-- ==== Sys2Proof/Word.lean ====
section
/-! DEFINITION. The word types: bytes of the window and its messages, and the 64-bit fund totals. -/

namespace Sys2Proof

/-- One byte of the memory window or of a message (R197). -/
abbrev Byte := BitVec 8

/-- A message of the inbound queue or the post area: 128 bytes, the first at offset 0 (R184). -/
abbrev Message := List Byte

/-- A fund total: added and subtracted modulo 2^64 and read as a signed number (R18). -/
abbrev Total := BitVec 64

end Sys2Proof
end

