-- ==== Sys2Proof/Syntax.lean ====
section
/-! DEFINITION. The commands of the block: one constructor of `Instr` for each row of
spec/opcode_table.json, in the table's order, with the operands the row's rule gives it.
A request carries its tag and the fields of its body as received (R198, R199): unsigned numbers, not yet
checked against their ranges. -/

namespace Sys2Proof

/-- How far a change had come when its writer was stopped (R193): its slot FILLING, or SEALED with a check
that passes or fails, with so many of its records already written to the tables and its fund total amounts
already applied or not. A FORMAT uses no slot (R190): there FILLING stands for a stop before its step 5 and SEALED for one
from step 5 on. -/
inductive Stage where
  | filling
  | sealed (checkPasses : Bool) (recordsWritten : Nat) (amountsApplied : Bool)
  deriving DecidableEq, Repr

/-- The two kinds of change that use update slot 1 (R193). -/
inductive PayoutWriter where
  | turn
  | service
  deriving DecidableEq, Repr

/-- The changes that use update slot 3 (R193): a hold expiry, a referral lapse, and the placing of a waiting
LAPSE-NOTICE. -/
inductive ExpiryWriter where
  | hold (slot : Nat)
  | lapse (number : Nat)
  | notice
  deriving DecidableEq, Repr

/-- What each of the four writers was doing when a power loss or an engine reset stopped it "between or
within its changes" (R195): `none` is between. The request is the one the port takes next, the turn and the
service those the state gives, the sweep's change its next step or, in ENDING, its notice. -/
structure Interruption where
  request : Option Stage
  payout : Option (PayoutWriter × Stage)
  sweep : Option Stage
  expiry : Option (ExpiryWriter × Stage)
  deriving DecidableEq, Repr

/-- The body of DEFINE-PRODUCT but for the product index (R198, code 27). -/
structure ProductOperands where
  mode : Nat
  order : Nat
  reload : Nat
  allowPartial : Nat
  holdsPerCard : Nat
  tolerance : Nat
  categoryMap : Nat
  maxBalance : Nat
  minLoad : Nat
  maxLoad : Nat
  cardLife : Nat
  bonusLife : Nat
  refundLife : Nat
  holdLife : Nat
  maxHoldLife : Nat
  deriving DecidableEq, Repr

/-- A watch condition's 16 bytes (R198). -/
structure ConditionOperands where
  product : Nat
  productInvert : Nat
  category : Nat
  categoryInvert : Nat
  anyMerchant : Nat
  merchantInvert : Nat
  relation : Nat
  merchant : Nat
  threshold : Nat
  deriving DecidableEq, Repr

/-- The body of DEFINE-WATCH but for the entry number (R198, code 42). -/
structure WatchOperands where
  action : Nat
  mode : Nat
  enable : Nat
  window : Nat
  level1 : ConditionOperands
  level2 : ConditionOperands
  deriving DecidableEq, Repr

/-- One member of a TENDER (R199). -/
structure MemberOperands where
  card : Nat
  condition : Nat
  selector : Nat
  sponsor : Nat
  deriving DecidableEq, Repr

/-- One bonus part of a REFUND (R198, code 22). -/
structure PartOperands where
  sponsor : Nat
  amount : Nat
  deriving DecidableEq, Repr

/-- The commands: every row of spec/opcode_table.json. -/
inductive Instr where
  /-- POST_WORD (R184): the server writes any value to the post word. -/
  | postWord (value : Nat)
  /-- OVERRUN_FLAG (R184): the server writes the overrun flag's bit. -/
  | overrunFlag (bit : Bool)
  /-- RELEASE_WORD (R185): the server writes any value to the release word. -/
  | releaseWord (value : Nat)
  /-- INTERRUPT_ENABLE (R186): the server writes the interrupt-enable bit. -/
  | interruptEnable (bit : Bool)
  /-- ENGINE_RESET (R195): the server writes the engine-reset bit; `cut` is what the reset stopped, `ties` the
  order in which recovery takes holds of one expiry time. -/
  | engineReset (bit : Bool) (cut : Interruption) (ties : List Nat)
  /-- WINDOW_WRITE (R197): a 32-bit write at a window offset. -/
  | windowWrite (offset value : Nat)
  /-- POWER_ON (R194). -/
  | powerOn (ties : List Nat)
  /-- LINK_RESET (R196). -/
  | linkReset
  /-- CLOCK_TICK (R173). -/
  | clockTick
  /-- BAD_CODE (R187): the message taken has an unknown code, or a length that does not fit its code. -/
  | badCode (code length tag : Nat)
  | format (tag day reading : Nat)
  | setClock (tag reading : Nat)
  | openTrading (tag : Nat)
  | closeTrading (tag : Nat)
  | closeDay (tag : Nat)
  | inquireClock (tag : Nat)
  | issue (tag card product sponsor life paid bonus : Nat)
  | load (tag card amount : Nat)
  | grantBonus (tag card sponsor life amount : Nat)
  | inquire (tag card : Nat)
  | freeze (tag card : Nat)
  | thaw (tag card : Nat)
  | lock (tag card : Nat)
  | unlock (tag card : Nat)
  | closeCard (tag card : Nat)
  | redeem (tag card merchant amount selector sponsor allowPartial : Nat)
  | hold (tag card merchant amount selector sponsor allowPartial life : Nat)
  | capture (tag slot generation merchant amount : Nat)
  | release (tag slot generation merchant : Nat)
  | inquireHold (tag slot generation : Nat)
  | tender (tag merchant amount settle count : Nat) (members : List MemberOperands)
  | refund (tag card merchant paid count : Nat) (parts : List PartOperands)
  | voidLast (tag card merchant stamp : Nat)
  | decide (tag number decision : Nat)
  | setReferralTime (tag seconds : Nat)
  | inquireReferral (tag number : Nat)
  | defineProduct (tag product : Nat) (fields : ProductOperands)
  | withdrawProduct (tag product : Nat)
  | reinstateProduct (tag product : Nat)
  | inquireProduct (tag product : Nat)
  | defineSponsor (tag sponsor : Nat)
  | retireSponsor (tag sponsor : Nat)
  | inquireSponsor (tag sponsor : Nat)
  | inquireFunds (tag : Nat)
  | defineMerchant (tag merchant category trust tier floor allowance period : Nat)
  | suspendMerchant (tag merchant : Nat)
  | reinstateMerchant (tag merchant : Nat)
  | closeMerchant (tag merchant : Nat)
  | inquireMerchant (tag form page index merchant : Nat)
  | defineTier (tag tier rate itemFee minFee maxFee : Nat)
  | inquireTier (tag tier : Nat)
  | defineWatch (tag entry : Nat) (fields : WatchOperands)
  | rearmWatch (tag entry : Nat)
  | inquireWatch (tag entry : Nat)
  | startPayout (tag descriptor mode ratio first last label : Nat)
  | stopPayout (tag descriptor form : Nat)
  | resumePayout (tag descriptor : Nat)
  | inquirePayout (tag descriptor : Nat)
  /-- HOLD_EXPIRY (R86): the Hold Pool takes the expiry of the hold in a slot. -/
  | holdExpiry (slot : Nat)
  /-- LAPSE (R122): the Referral Queue takes the lapse of an entry. -/
  | lapse (number : Nat)
  /-- WINDOW_EXPIRY (R136): the Velocity Watch takes the window expiry of a card on an entry's list. -/
  | windowExpiry (entry card : Nat)
  /-- TURN (R160): the arbiter gives the next turn. -/
  | turn
  /-- DESCRIPTOR_SERVICE (R162): the port serves the WAITING descriptor at the head of the waiting list. -/
  | descriptorService
  /-- LAPSE_NOTICE (R123): the port serves the LAPSED entry at the head of the waiting list. -/
  | lapseNotice
  /-- SWEEP_STEP (R179). -/
  | sweepStep
  /-- SWEEP_END (R181): the port serves the ENDING sweep unit at the head of the waiting list. -/
  | sweepEnd
  /-- POWER_LOSS (R192, R193): the supply fails; whether the battery keeps Record Memory in the interval, whether
  the indicator still passes its check, and what the loss stopped. -/
  | powerLoss (batteryKept checkPasses : Bool) (cut : Interruption)
  deriving DecidableEq, Repr

end Sys2Proof
end

