-- ==== Sys2Proof/Decode.lean ====
section
/-! DEFINITION. Reading a message of the inbound queue (R187, R197 to R199), writing one, and the host's
`decodeTableWord`. The opcode table gives no row any bits, so `decodeTableWord` answers none; the requests'
encodings are those of the messages. All multi-byte fields are little-endian (11.8). -/

namespace Sys2Proof

/-- The unsigned number that bytes spell, least significant first. -/
def readLE : List Byte → Nat
  | [] => 0
  | b :: bs => b.toNat + 256 * readLE bs

/-- A number's low bytes, least significant first. -/
def writeLE : Nat → Nat → List Byte
  | 0, _ => []
  | size + 1, n => BitVec.ofNat 8 n :: writeLE size (n / 256)

/-- The field of a message at an offset with a size in bytes. -/
def field (m : Message) (offset size : Nat) : Nat :=
  readLE ((m.drop offset).take size)

/-- A message of 128 bytes that begins with the given bytes; the others are 0. -/
def padMessage (bytes : List Byte) : Message :=
  bytes ++ List.replicate (128 - bytes.length) 0

/-- Fields written one after the other, each given as (size in bytes, value). -/
def pack (fields : List (Nat × Nat)) : List Byte :=
  fields.flatMap fun f => writeLE f.1 f.2

/-- The length a request code requires, for the codes whose length does not depend on a list (R198). -/
def fixedLength : Nat → Option Nat
  | 1 => some 16 | 2 => some 12 | 3 => some 8 | 4 => some 8 | 5 => some 8 | 6 => some 8
  | 7 => some 28 | 8 => some 20 | 9 => some 24 | 10 => some 16 | 11 => some 16 | 12 => some 16
  | 13 => some 16 | 14 => some 16 | 15 => some 16 | 16 => some 28 | 17 => some 32 | 18 => some 20
  | 19 => some 16 | 20 => some 12 | 23 => some 24 | 24 => some 12 | 25 => some 12 | 26 => some 12
  | 27 => some 52 | 28 => some 12 | 29 => some 12 | 30 => some 12 | 31 => some 12 | 32 => some 12
  | 33 => some 12 | 34 => some 8 | 35 => some 28 | 36 => some 12 | 37 => some 12 | 38 => some 12
  | 39 => some 16 | 40 => some 24 | 41 => some 12 | 42 => some 48 | 43 => some 12 | 44 => some 12
  | 45 => some 20 | 46 => some 12 | 47 => some 12 | 48 => some 12
  | _ => none

/-- A watch condition's fields, from its first byte (R198). -/
def readCondition (m : Message) (at_ : Nat) : ConditionOperands where
  product := field m at_ 1
  productInvert := field m (at_ + 1) 1
  category := field m (at_ + 2) 1
  categoryInvert := field m (at_ + 3) 1
  anyMerchant := field m (at_ + 4) 1
  merchantInvert := field m (at_ + 5) 1
  relation := field m (at_ + 6) 1
  merchant := field m (at_ + 8) 4
  threshold := field m (at_ + 12) 4

/-- The fields of DEFINE-PRODUCT after its product index (R198, code 27). -/
def readProduct (m : Message) : ProductOperands where
  mode := field m 9 1
  order := field m 10 1
  reload := field m 11 1
  allowPartial := field m 12 1
  holdsPerCard := field m 13 1
  tolerance := field m 14 1
  categoryMap := field m 16 8
  maxBalance := field m 24 4
  minLoad := field m 28 4
  maxLoad := field m 32 4
  cardLife := field m 36 2
  bonusLife := field m 38 2
  refundLife := field m 40 2
  holdLife := field m 44 4
  maxHoldLife := field m 48 4

/-- The fields of DEFINE-WATCH after its entry number (R198, code 42). -/
def readWatch (m : Message) : WatchOperands where
  action := field m 9 1
  mode := field m 10 1
  enable := field m 11 1
  window := field m 12 4
  level1 := readCondition m 16
  level2 := readCondition m 32

/-- Member k of a TENDER, at byte 20 + 12k (R199). -/
def readMember (m : Message) (k : Nat) : MemberOperands where
  card := field m (20 + 12 * k) 8
  condition := field m (28 + 12 * k) 1
  selector := field m (29 + 12 * k) 1
  sponsor := field m (30 + 12 * k) 1

/-- Part k of a REFUND, at byte 28 + 8k (R198, code 22). -/
def readPart (m : Message) (k : Nat) : PartOperands where
  sponsor := field m (28 + 8 * k) 1
  amount := field m (32 + 8 * k) 4

/-- The request of a code whose length is fixed and fits (R198). -/
def readFixed (m : Message) (code : Nat) : Instr :=
  let tag := field m 4 4
  match code with
  | 1 => .format tag (field m 8 2) (field m 12 4)
  | 2 => .setClock tag (field m 8 4)
  | 3 => .openTrading tag
  | 4 => .closeTrading tag
  | 5 => .closeDay tag
  | 6 => .inquireClock tag
  | 7 => .issue tag (field m 8 8) (field m 16 1) (field m 17 1) (field m 18 2) (field m 20 4) (field m 24 4)
  | 8 => .load tag (field m 8 8) (field m 16 4)
  | 9 => .grantBonus tag (field m 8 8) (field m 16 1) (field m 18 2) (field m 20 4)
  | 10 => .inquire tag (field m 8 8)
  | 11 => .freeze tag (field m 8 8)
  | 12 => .thaw tag (field m 8 8)
  | 13 => .lock tag (field m 8 8)
  | 14 => .unlock tag (field m 8 8)
  | 15 => .closeCard tag (field m 8 8)
  | 16 => .redeem tag (field m 8 8) (field m 16 4) (field m 20 4) (field m 24 1) (field m 25 1) (field m 26 1)
  | 17 => .hold tag (field m 8 8) (field m 16 4) (field m 20 4) (field m 24 1) (field m 25 1) (field m 26 1)
            (field m 28 4)
  | 18 => .capture tag (field m 8 2) (field m 10 2) (field m 12 4) (field m 16 4)
  | 19 => .release tag (field m 8 2) (field m 10 2) (field m 12 4)
  | 20 => .inquireHold tag (field m 8 2) (field m 10 2)
  | 23 => .voidLast tag (field m 8 8) (field m 16 4) (field m 20 4)
  | 24 => .decide tag (field m 8 2) (field m 10 1)
  | 25 => .setReferralTime tag (field m 8 4)
  | 26 => .inquireReferral tag (field m 8 2)
  | 27 => .defineProduct tag (field m 8 1) (readProduct m)
  | 28 => .withdrawProduct tag (field m 8 1)
  | 29 => .reinstateProduct tag (field m 8 1)
  | 30 => .inquireProduct tag (field m 8 1)
  | 31 => .defineSponsor tag (field m 8 1)
  | 32 => .retireSponsor tag (field m 8 1)
  | 33 => .inquireSponsor tag (field m 8 1)
  | 34 => .inquireFunds tag
  | 35 => .defineMerchant tag (field m 8 4) (field m 12 1) (field m 13 1) (field m 14 1) (field m 16 4)
            (field m 20 4) (field m 24 4)
  | 36 => .suspendMerchant tag (field m 8 4)
  | 37 => .reinstateMerchant tag (field m 8 4)
  | 38 => .closeMerchant tag (field m 8 4)
  | 39 => .inquireMerchant tag (field m 8 1) (field m 9 1) (field m 10 2) (field m 12 4)
  | 40 => .defineTier tag (field m 8 1) (field m 10 2) (field m 12 2) (field m 16 4) (field m 20 4)
  | 41 => .inquireTier tag (field m 8 1)
  | 42 => .defineWatch tag (field m 8 1) (readWatch m)
  | 43 => .rearmWatch tag (field m 8 1)
  | 44 => .inquireWatch tag (field m 8 1)
  | 45 => .startPayout tag (field m 8 1) (field m 9 1) (field m 10 1) (field m 12 2) (field m 14 2) (field m 16 4)
  | 46 => .stopPayout tag (field m 8 1) (field m 9 1)
  | 47 => .resumePayout tag (field m 8 1)
  | 48 => .inquirePayout tag (field m 8 1)
  | other => .badCode other (field m 2 2) tag

/-- The command a message of the inbound queue spells (R187): the request of its code when the length field
gives the length that the request's body requires, and BAD_CODE otherwise. A list count outside its range is
handed on with no list. -/
def readMessage (m : Message) : Instr :=
  let code := field m 0 2
  let length := field m 2 2
  let tag := field m 4 4
  if code = 21 then
    let count := field m 17 1
    if 1 ≤ count ∧ count ≤ 6 then
      if length = 20 + 12 * count then
        .tender tag (field m 8 4) (field m 12 4) (field m 16 1) count ((List.range count).map (readMember m))
      else .badCode code length tag
    else .tender tag (field m 8 4) (field m 12 4) (field m 16 1) count []
  else if code = 22 then
    let count := field m 24 1
    if count ≤ 4 then
      if length = 28 + 8 * count then
        .refund tag (field m 8 8) (field m 16 4) (field m 20 4) count ((List.range count).map (readPart m))
      else .badCode code length tag
    else .refund tag (field m 8 8) (field m 16 4) (field m 20 4) count []
  else if fixedLength code = some length then readFixed m code
  else .badCode code length tag

/-- The fields of a watch condition, in order (R198). -/
def conditionFields (c : ConditionOperands) : List (Nat × Nat) :=
  [(1, c.product), (1, c.productInvert), (1, c.category), (1, c.categoryInvert), (1, c.anyMerchant),
   (1, c.merchantInvert), (1, c.relation), (1, 0), (4, c.merchant), (4, c.threshold)]

/-- The fields of a TENDER member, in order (R199). -/
def memberFields (p : MemberOperands) : List (Nat × Nat) :=
  [(8, p.card), (1, p.condition), (1, p.selector), (1, p.sponsor), (1, 0)]

/-- The fields of a REFUND part, in order (R198, code 22). -/
def partFields (p : PartOperands) : List (Nat × Nat) :=
  [(1, p.sponsor), (3, 0), (4, p.amount)]

/-- The fields of the message that spells a request, header first; none for a command that is no request. A
BAD_CODE message is given with an empty body, but that a list's count is set where the code is TENDER or
REFUND, so that the length does not fit it. -/
def Instr.fields : Instr → Option (List (Nat × Nat))
  | .badCode code length tag => some ([(2, code), (2, length), (4, tag)] ++
      (if code = 21 then [(9, 0), (1, if length = 32 then 2 else 1)]
       else if code = 22 then [(16, 0), (1, if length = 28 then 1 else 0)] else []))
  | .format tag day reading => some [(2, 1), (2, 16), (4, tag), (2, day), (2, 0), (4, reading)]
  | .setClock tag reading => some [(2, 2), (2, 12), (4, tag), (4, reading)]
  | .openTrading tag => some [(2, 3), (2, 8), (4, tag)]
  | .closeTrading tag => some [(2, 4), (2, 8), (4, tag)]
  | .closeDay tag => some [(2, 5), (2, 8), (4, tag)]
  | .inquireClock tag => some [(2, 6), (2, 8), (4, tag)]
  | .issue tag card product sponsor life paid bonus =>
      some [(2, 7), (2, 28), (4, tag), (8, card), (1, product), (1, sponsor), (2, life), (4, paid), (4, bonus)]
  | .load tag card amount => some [(2, 8), (2, 20), (4, tag), (8, card), (4, amount)]
  | .grantBonus tag card sponsor life amount =>
      some [(2, 9), (2, 24), (4, tag), (8, card), (1, sponsor), (1, 0), (2, life), (4, amount)]
  | .inquire tag card => some [(2, 10), (2, 16), (4, tag), (8, card)]
  | .freeze tag card => some [(2, 11), (2, 16), (4, tag), (8, card)]
  | .thaw tag card => some [(2, 12), (2, 16), (4, tag), (8, card)]
  | .lock tag card => some [(2, 13), (2, 16), (4, tag), (8, card)]
  | .unlock tag card => some [(2, 14), (2, 16), (4, tag), (8, card)]
  | .closeCard tag card => some [(2, 15), (2, 16), (4, tag), (8, card)]
  | .redeem tag card merchant amount selector sponsor allowPartial =>
      some [(2, 16), (2, 28), (4, tag), (8, card), (4, merchant), (4, amount), (1, selector), (1, sponsor),
        (1, allowPartial)]
  | .hold tag card merchant amount selector sponsor allowPartial life =>
      some [(2, 17), (2, 32), (4, tag), (8, card), (4, merchant), (4, amount), (1, selector), (1, sponsor),
        (1, allowPartial), (1, 0), (4, life)]
  | .capture tag slot generation merchant amount =>
      some [(2, 18), (2, 20), (4, tag), (2, slot), (2, generation), (4, merchant), (4, amount)]
  | .release tag slot generation merchant =>
      some [(2, 19), (2, 16), (4, tag), (2, slot), (2, generation), (4, merchant)]
  | .inquireHold tag slot generation => some [(2, 20), (2, 12), (4, tag), (2, slot), (2, generation)]
  | .tender tag merchant amount settle count members =>
      some ([(2, 21), (2, 20 + 12 * count), (4, tag), (4, merchant), (4, amount), (1, settle), (1, count), (2, 0)] ++
        members.flatMap memberFields)
  | .refund tag card merchant paid count parts =>
      some ([(2, 22), (2, 28 + 8 * count), (4, tag), (8, card), (4, merchant), (4, paid), (1, count), (3, 0)] ++
        parts.flatMap partFields)
  | .voidLast tag card merchant stamp =>
      some [(2, 23), (2, 24), (4, tag), (8, card), (4, merchant), (4, stamp)]
  | .decide tag number decision => some [(2, 24), (2, 12), (4, tag), (2, number), (1, decision)]
  | .setReferralTime tag seconds => some [(2, 25), (2, 12), (4, tag), (4, seconds)]
  | .inquireReferral tag number => some [(2, 26), (2, 12), (4, tag), (2, number)]
  | .defineProduct tag product p =>
      some [(2, 27), (2, 52), (4, tag), (1, product), (1, p.mode), (1, p.order), (1, p.reload), (1, p.allowPartial),
        (1, p.holdsPerCard), (1, p.tolerance), (1, 0), (8, p.categoryMap), (4, p.maxBalance), (4, p.minLoad),
        (4, p.maxLoad), (2, p.cardLife), (2, p.bonusLife), (2, p.refundLife), (2, 0), (4, p.holdLife),
        (4, p.maxHoldLife)]
  | .withdrawProduct tag product => some [(2, 28), (2, 12), (4, tag), (1, product)]
  | .reinstateProduct tag product => some [(2, 29), (2, 12), (4, tag), (1, product)]
  | .inquireProduct tag product => some [(2, 30), (2, 12), (4, tag), (1, product)]
  | .defineSponsor tag sponsor => some [(2, 31), (2, 12), (4, tag), (1, sponsor)]
  | .retireSponsor tag sponsor => some [(2, 32), (2, 12), (4, tag), (1, sponsor)]
  | .inquireSponsor tag sponsor => some [(2, 33), (2, 12), (4, tag), (1, sponsor)]
  | .inquireFunds tag => some [(2, 34), (2, 8), (4, tag)]
  | .defineMerchant tag merchant category trust tier floor allowance period =>
      some [(2, 35), (2, 28), (4, tag), (4, merchant), (1, category), (1, trust), (1, tier), (1, 0), (4, floor),
        (4, allowance), (4, period)]
  | .suspendMerchant tag merchant => some [(2, 36), (2, 12), (4, tag), (4, merchant)]
  | .reinstateMerchant tag merchant => some [(2, 37), (2, 12), (4, tag), (4, merchant)]
  | .closeMerchant tag merchant => some [(2, 38), (2, 12), (4, tag), (4, merchant)]
  | .inquireMerchant tag form page index merchant =>
      some [(2, 39), (2, 16), (4, tag), (1, form), (1, page), (2, index), (4, merchant)]
  | .defineTier tag tier rate itemFee minFee maxFee =>
      some [(2, 40), (2, 24), (4, tag), (1, tier), (1, 0), (2, rate), (2, itemFee), (2, 0), (4, minFee), (4, maxFee)]
  | .inquireTier tag tier => some [(2, 41), (2, 12), (4, tag), (1, tier)]
  | .defineWatch tag entry w =>
      some ([(2, 42), (2, 48), (4, tag), (1, entry), (1, w.action), (1, w.mode), (1, w.enable), (4, w.window)] ++
        conditionFields w.level1 ++ conditionFields w.level2)
  | .rearmWatch tag entry => some [(2, 43), (2, 12), (4, tag), (1, entry)]
  | .inquireWatch tag entry => some [(2, 44), (2, 12), (4, tag), (1, entry)]
  | .startPayout tag descriptor mode ratio first last label =>
      some [(2, 45), (2, 20), (4, tag), (1, descriptor), (1, mode), (1, ratio), (1, 0), (2, first), (2, last),
        (4, label)]
  | .stopPayout tag descriptor form => some [(2, 46), (2, 12), (4, tag), (1, descriptor), (1, form)]
  | .resumePayout tag descriptor => some [(2, 47), (2, 12), (4, tag), (1, descriptor)]
  | .inquirePayout tag descriptor => some [(2, 48), (2, 12), (4, tag), (1, descriptor)]
  | .postWord _ | .overrunFlag _ | .releaseWord _ | .interruptEnable _ | .engineReset _ _ _ | .windowWrite _ _
  | .powerOn _ | .linkReset | .clockTick | .holdExpiry _ | .lapse _ | .windowExpiry _ _ | .turn
  | .descriptorService | .lapseNotice | .sweepStep | .sweepEnd | .powerLoss _ _ _ => none

/-- The 128-byte message that spells a request (R197 to R199). -/
def Instr.toMessage (i : Instr) : Option Message :=
  i.fields.map fun fs => padMessage (pack fs)

/-- The host's question, by the table's bits: the table gives no row any. -/
def decodeTableWord (_nbits _w : Nat) : Option Instr := none

end Sys2Proof
end

