-- ==== Sys2Proof/Machine/Limits.lean ====
section
/-! DEFINITION. The fixed sizes and limits of the engine (00 Capacities, and the rule named at each). -/

namespace Sys2Proof.Machine

/-- Messages the inbound queue holds (R184). -/
def inboundCapacity : Nat := 32
/-- Messages the answer queue holds (R185). -/
def answerCapacity : Nat := 64
/-- Buckets of the Card Table's main area (R32). -/
def buckets : Nat := 262144
/-- Slots of the main area (R32). -/
def mainSlots : Nat := 1048576
/-- Slots of the overflow pool (R32). -/
def overflowSlots : Nat := 65536
/-- Slots of the Hold Pool (R77). -/
def holdSlots : Nat := 16384
/-- Merchant records (R141). -/
def merchantSlots : Nat := 512
/-- Lots on a card (R2). -/
def lotPlaces : Nat := 4
/-- Entries of the Referral Queue (R113). -/
def referralPlaces : Nat := 32
/-- Numbers in the lapse record (R113). -/
def lapsePlaces : Nat := 32
/-- Watch entries (R129). -/
def watchEntries : Nat := 16
/-- Cards on one armed-card list (R131). -/
def armedPlaces : Nat := 4
/-- The largest card-side amount (00 Amounts). -/
def maxAmount : Nat := 10000000
/-- The largest gross or refunded of a position (R142). -/
def positionLimit : Int := 999999999999
/-- The largest clock reading (R173). -/
def clockCap : Nat := 4294967295
/-- The largest business day (R174). -/
def dayCap : Nat := 65535
/-- Numbers of 32 bits: answer numbers (R185) and period numbers (R154) wrap here. -/
def wordSpan : Nat := 4294967296
/-- The movement counter and a hold slot's generation wrap here (R29, R78). -/
def halfSpan : Nat := 65536
/-- The largest step credit (R156, R159). -/
def creditCap : Nat := 64
/-- The largest blocked-attempt count (R64). -/
def blockedCap : Nat := 255

end Sys2Proof.Machine
end

