-- ==== Sys2Proof/Machine/Records.lean ====
section
/-! DEFINITION. The record types of the engine's tables: plain data, in the manual's own fields. -/

namespace Sys2Proof.Machine

/-- A bonus lot of a card, or a bonus part of a split, hold or movement (R2, R10, R77). -/
structure Lot where
  sponsor : Fin 8
  expiry : Nat
  amount : Nat
  deriving DecidableEq, Repr

/-- A hold's name (R78). -/
structure Handle where
  slot : Nat
  generation : Nat
  deriving DecidableEq, Repr

/-- A card's base state (R27, R48). -/
inductive BaseState where
  | active
  | expired
  deriving DecidableEq, Repr

/-- The kind of a last movement, with the merchant id and period of a redemption or capture (R30). -/
inductive MovementKind where
  | load
  | redeem (merchant period : Nat)
  | capture (merchant period : Nat)
  deriving DecidableEq, Repr

/-- The last movement (R30). -/
structure Movement where
  kind : MovementKind
  stamp : Nat
  day : Nat
  paid : Nat
  parts : List Lot
  deriving DecidableEq, Repr

/-- A card record (R27). The blocked-attempt fields are those of R63. -/
structure Card where
  number : Nat
  product : Nat
  base : BaseState
  frozen : Bool
  softLocked : Bool
  attemptPending : Bool
  referralOpen : Bool
  awaitingLoad : Bool
  blockedCount : Nat
  lastBlocked : Option Nat
  paid : Nat
  lots : List Lot
  holds : List Handle
  expiry : Nat
  lastActivity : Nat
  sweptThrough : Nat
  counter : Nat
  last : Option Movement
  deriving DecidableEq, Repr

/-- A place of the Card Table (R32); also the sweep cursor (R178). -/
inductive Slot where
  | main (n : Nat)
  | overflow (n : Nat)
  deriving DecidableEq, Repr

inductive ProductState where
  | unused
  | active
  | withdrawn
  deriving DecidableEq, Repr

/-- A product's acceptance mode (R60); the mode OPEN is written `opened`. -/
inductive AcceptanceMode where
  | opened
  | mapped
  | guarded
  deriving DecidableEq, Repr

/-- A product's drawdown order (R9). -/
inductive DrawOrder where
  | bonusFirst
  | paidFirst
  | proRata
  deriving DecidableEq, Repr

/-- A product record (R52). -/
structure Product where
  state : ProductState
  mode : AcceptanceMode
  categoryMap : BitVec 64
  order : DrawOrder
  maxBalance : Nat
  minLoad : Nat
  maxLoad : Nat
  reload : Bool
  allowPartial : Bool
  cardLife : Nat
  bonusLife : Nat
  refundLife : Nat
  holdLife : Nat
  maxHoldLife : Nat
  holdsPerCard : Nat
  tolerance : Nat
  issued : Nat
  deriving DecidableEq, Repr

/-- An UNUSED product record: no meaningful field but the state, issued count 0 (R52, R56). -/
def Product.unused : Product where
  state := .unused
  mode := .opened
  categoryMap := 0
  order := .bonusFirst
  maxBalance := 0
  minLoad := 0
  maxLoad := 0
  reload := false
  allowPartial := false
  cardLife := 0
  bonusLife := 0
  refundLife := 0
  holdLife := 0
  maxHoldLife := 0
  holdsPerCard := 0
  tolerance := 0
  issued := 0

inductive SponsorState where
  | unused
  | active
  | retired
  deriving DecidableEq, Repr

/-- A fee tier (R151). -/
structure Tier where
  rate : Nat
  itemFee : Nat
  minFee : Nat
  maxFee : Nat
  deriving DecidableEq, Repr

/-- A tier after FORMAT: every field 0 (R151). -/
def Tier.zero : Tier := ⟨0, 0, 0, 0⟩

/-- A merchant's position (R142): signed whole numbers, one entry per sponsor in the two lists. -/
structure Position where
  gross : Int
  refunded : Int
  items : Int
  carryIn : Int
  drawn : Vector Int 8
  returned : Vector Int 8
  deriving DecidableEq, Repr

/-- A position with every field 0. -/
def Position.zero : Position where
  gross := 0
  refunded := 0
  items := 0
  carryIn := 0
  drawn := Vector.replicate 8 0
  returned := Vector.replicate 8 0

/-- A merchant's state; OPEN is written `opened` (R141). -/
inductive MerchantState where
  | unused
  | opened
  | suspended
  deriving DecidableEq, Repr

/-- A merchant record (R141). -/
structure Merchant where
  state : MerchantState
  id : Nat
  category : Nat
  trust : Nat
  tier : Nat
  floor : Nat
  allowance : Nat
  openHolds : Nat
  period : Nat
  position : Position
  deriving DecidableEq, Repr

/-- An UNUSED merchant record: fields cleared (R141, R146). -/
def Merchant.unused : Merchant where
  state := .unused
  id := 0
  category := 0
  trust := 0
  tier := 0
  floor := 0
  allowance := 0
  openHolds := 0
  period := 0
  position := Position.zero

/-- A hold's origin (R77). -/
inductive HoldOrigin where
  | hold
  | tender
  deriving DecidableEq, Repr

/-- Why a hold ended (R77). -/
inductive EndCause where
  | expired
  | settled
  deriving DecidableEq, Repr

/-- A hold slot's last end (R77). -/
structure LastEnd where
  generation : Nat
  merchant : Nat
  cause : EndCause
  deriving DecidableEq, Repr

/-- An OPEN hold's record (R77). The held total is `HoldRecord.total`: it is the parts' sum. -/
structure HoldRecord where
  origin : HoldOrigin
  card : Nat
  merchant : Nat
  paid : Nat
  parts : List Lot
  created : Nat
  expires : Nat
  period : Nat
  deriving DecidableEq, Repr

/-- A Hold Pool slot (R77): FREE exactly when it holds no record. -/
structure HoldSlot where
  generation : Nat
  lastEnd : Option LastEnd
  record : Option HoldRecord
  deriving DecidableEq, Repr

/-- A slot after FORMAT (R95). -/
def HoldSlot.free : HoldSlot := ⟨0, none, none⟩

inductive WatchState where
  | disabled
  | waitFirst
  | waitSecond
  | triggered
  deriving DecidableEq, Repr

/-- One test of a condition: a value or ANY (none), and the invert option (R130). -/
structure FieldTest where
  value : Option Nat
  invert : Bool
  deriving DecidableEq, Repr

/-- The four tests a condition of either level has (R130). -/
structure Condition where
  product : FieldTest
  category : FieldTest
  merchant : FieldTest
  threshold : Nat
  deriving DecidableEq, Repr

/-- The level-2 merchant relation (R130). -/
inductive Relation where
  | any
  | same
  | other
  deriving DecidableEq, Repr

inductive WatchAction where
  | freeze
  | refer
  | mark
  deriving DecidableEq, Repr

inductive WatchMode where
  | oneShot
  | rearm
  deriving DecidableEq, Repr

/-- The retained part of a watch entry (R129). -/
structure WatchEntry where
  state : WatchState
  level1 : Condition
  level2 : Condition
  relation : Relation
  window : Nat
  action : WatchAction
  mode : WatchMode
  deriving DecidableEq, Repr

/-- A condition every attempt meets. -/
def Condition.any : Condition := ⟨⟨none, false⟩, ⟨none, false⟩, ⟨none, false⟩, 0⟩

/-- A watch entry after FORMAT (R140). -/
def WatchEntry.formatted : WatchEntry where
  state := .disabled
  level1 := Condition.any
  level2 := Condition.any
  relation := .any
  window := 1
  action := .mark
  mode := .oneShot

/-- One entry of an armed-card list (R129). -/
structure Armed where
  card : Nat
  merchant : Nat
  time : Nat
  deriving DecidableEq, Repr

/-- A payout descriptor's state (R156). -/
inductive RunState where
  | idle
  | running
  | waiting
  | stopped
  | done
  deriving DecidableEq, Repr

inductive RunMode where
  | step
  | burst
  deriving DecidableEq, Repr

/-- A payout descriptor (R156). -/
structure Descriptor where
  state : RunState
  first : Nat
  last : Nat
  cursor : Nat
  label : Nat
  mode : RunMode
  ratio : Nat
  credit : Nat
  cut : Nat
  passed : Nat
  payout : Int
  fees : Int
  billed : Int
  carried : Int
  deriving DecidableEq, Repr

/-- A descriptor after FORMAT: IDLE, every field 0 (R170, R171). -/
def Descriptor.idle : Descriptor := ⟨.idle, 0, 0, 0, 0, .step, 0, 0, 0, 0, 0, 0, 0, 0⟩

inductive SweepState where
  | idle
  | sweeping
  | ending
  deriving DecidableEq, Repr

/-- The Day Sweep Unit (R178). -/
structure SweepUnit where
  state : SweepState
  day : Nat
  cursor : Slot
  swept : Nat
  passed : Nat
  expired : Nat
  lots : Nat
  bonus : Nat
  deriving DecidableEq, Repr

/-- The fund totals (R18): 64-bit, modulo 2^64, one entry per sponsor in the last four. -/
structure Funds where
  cashIn : Total
  cashOut : Total
  paidLiability : Total
  due : Total
  paidOut : Total
  fees : Total
  writeOff : Total
  granted : Vector Total 8
  liability : Vector Total 8
  expired : Vector Total 8
  billed : Vector Total 8
  deriving DecidableEq, Repr

/-- Every fund total 0 (R18). -/
def Funds.zero : Funds where
  cashIn := 0
  cashOut := 0
  paidLiability := 0
  due := 0
  paidOut := 0
  fees := 0
  writeOff := 0
  granted := Vector.replicate 8 0
  liability := Vector.replicate 8 0
  expired := Vector.replicate 8 0
  billed := Vector.replicate 8 0

/-- A purse selector (R6). -/
inductive Purse where
  | default
  | paidOnly
  | bonusOnly
  | sponsor (s : Fin 8)
  deriving DecidableEq, Repr

/-- The acceptance method letters (R60). -/
inductive Method where
  | a
  | b
  | c
  | d
  | e
  | f
  deriving DecidableEq, Repr

/-- What a referral entry of kind DEBIT, HOLD or WATCH records of its request (R112). -/
structure Terms where
  merchant : Nat
  amount : Nat
  purse : Purse
  allowPartial : Bool
  method : Method
  deriving DecidableEq, Repr

/-- The request a debit attempt performs: a redemption, or a hold with its requested life (R73, R112). -/
inductive Attempted where
  | redeem
  | hold (life : Nat)
  deriving DecidableEq, Repr

/-- A referral entry's kind with the fields that kind has (R112). -/
inductive ReferralKind where
  | debit (terms : Terms)
  | hold (terms : Terms) (life : Nat)
  | unlock
  | watch (request : Attempted) (terms : Terms) (entry : Nat)
  deriving DecidableEq, Repr

/-- A referral entry's state; OPEN is written `opened` (R112). -/
inductive ReferralState where
  | opened
  | lapsed
  deriving DecidableEq, Repr

/-- A referral entry (R112). -/
structure Referral where
  number : Nat
  kind : ReferralKind
  tag : Nat
  card : Nat
  time : Nat
  deadline : Nat
  state : ReferralState
  deriving DecidableEq, Repr

/-- A producer of notices on the waiting list (R188). -/
inductive Producer where
  | descriptor (i : Nat)
  | entry (number : Nat)
  | sweep
  deriving DecidableEq, Repr

inductive EngineState where
  | unformatted
  | setup
  | trading
  deriving DecidableEq, Repr

inductive StartCause where
  | none
  | resumed
  | cold
  deriving DecidableEq, Repr

inductive Retention where
  | lost
  | valid
  deriving DecidableEq, Repr

end Sys2Proof.Machine
end

