-- ==== Sys2Proof/Machine/Answers.lean ====
section
/-! DEFINITION. The messages of the answer queue: outcome, reason and flags (00 Outcomes, Answer flags, reasons), and
what each request's rule says its answer carries. The bytes of headers and notices are in Machine/Window.lean; the
manual lays out no other body (log 15). -/

namespace Sys2Proof.Machine

/-- The refusal reasons, in the order of the introduction's table (R197 numbers them from 1). -/
inductive RefusalReason where
  | badCode
  | badLength
  | badField
  | badNumber
  | badTime
  | wrongState
  | tableFull
  | unknownCard
  | unknownProduct
  | unknownMerchant
  | unknownSponsor
  | unknownHold
  | unknownReferral
  | duplicate
  | inUse
  | holdsOpen
  | dueOpen
  | sweepBusy
  | runBusy
  deriving DecidableEq, Repr

/-- The decline reasons, in the order of the introduction's table (R197 numbers them from 1). -/
inductive DeclineReason where
  | short
  | cardFrozen
  | cardLocked
  | cardExpired
  | cardBusy
  | merchantSuspended
  | category
  | overLimit
  | loadRange
  | lotsFull
  | holdsFull
  | poolFull
  | allowance
  | cut
  | stale
  | tooLate
  | referFull
  | needsReferral
  | watchFrozen
  | denied
  | positionLimit
  deriving DecidableEq, Repr

/-- An answer's outcome, with the reason a REFUSED or DECLINED one carries (00 Outcomes, R197); PARTIAL is written
`inPart`. -/
inductive AnswerOutcome where
  | done
  | inPart
  | declined (reason : DeclineReason)
  | referred
  | refused (reason : RefusalReason)
  | notice
  deriving DecidableEq, Repr

/-- The answer flags (00 Answer flags). -/
structure AnswerFlags where
  zero : Bool
  short : Bool
  clamped : Bool
  bonus : Bool
  watch : Bool
  deriving DecidableEq, Repr

/-- No flag set. -/
def AnswerFlags.none : AnswerFlags := ⟨false, false, false, false, false⟩

/-- What became of a returned or restored bonus part: joined a lot by a step of the lot-merge rule, or written off
(R4, R5). -/
inductive PartFate where
  | joined (step : Nat)
  | writtenOff
  deriving DecidableEq, Repr

/-- What an answer to REDEEM, HOLD, UNLOCK or DECIDE carries of the attempt. `method` is the letter when step 6 was
reached (R62), `mark` the lowest triggering MARK entry and `freezer` the lowest FREEZE entry (R135), `counter` the
card's movement counter when the change was a value change (R30), `period` the merchant's period that a redemption fell
in (R150). -/
inductive AttemptBody where
  | redeemed (granted paid : Nat) (parts : List Lot) (stamp freeValue : Nat) (method : Option Method)
      (shortfall : Nat) (mark : Option Nat) (period : Nat)
  | held (handle : Handle) (total paid : Nat) (parts : List Lot) (expires counter : Nat) (method : Option Method)
      (shortfall : Nat) (mark : Option Nat)
  | referred (number : Nat) (kind : ReferralKind) (deadline : Nat) (mark counter : Option Nat)
  | unlockReferred (number deadline blockedCount : Nat) (lastBlocked counter : Option Nat)
  | declined (method : Option Method) (mark freezer counter : Option Nat)
  | unlocked
  deriving DecidableEq, Repr

/-- A TENDER member's status (R94). -/
inductive MemberStatus where
  | taken
  | returned
  | skipped
  | declined (reason : DeclineReason)
  deriving DecidableEq, Repr

/-- What the TENDER answer carries for one member (R94); `counter` is its card's movement counter when the tender
was a value change on it (R30). -/
structure MemberAnswer where
  status : MemberStatus
  amount : Nat
  method : Option Method
  freezer : Option Nat
  counter : Option Nat
  deriving DecidableEq, Repr

/-- What INQUIRE gives (R43). -/
structure CardReport where
  product : Nat
  base : BaseState
  frozen : Bool
  softLocked : Bool
  attemptPending : Bool
  referralOpen : Bool
  awaitingLoad : Bool
  blockedCount : Nat
  lastBlocked : Option Nat
  paid : Nat
  lots : List Lot
  holds : List Handle
  held : Nat
  expiry : Nat
  lastActivity : Nat
  sweptThrough : Nat
  counter : Nat
  usable : Nat
  expiryPassed : Bool
  deriving DecidableEq, Repr

/-- One page of INQUIRE-MERCHANT (R147). -/
inductive MerchantPage where
  | record (category trust tier floor allowance openHolds : Nat) (gross refunded items carryIn due : Int)
  | drawn (amounts : Vector Int 8)
  | returned (amounts : Vector Int 8)
  deriving DecidableEq, Repr

/-- The six run counters with the run's label and range (R156, R163, R166). -/
structure RunReport where
  label : Nat
  first : Nat
  last : Nat
  cursor : Nat
  cut : Nat
  passed : Nat
  payout : Int
  fees : Int
  billed : Int
  carried : Int
  deriving DecidableEq, Repr

/-- Which step a WAITING descriptor waits for (R168). -/
inductive WaitedStep where
  | cut
  | close
  deriving DecidableEq, Repr

/-- A cut's results (R152 to R154). -/
structure CutResult where
  net : Int
  fee : Int
  payout : Int
  carry : Int
  billings : Vector Int 8
  deriving DecidableEq, Repr

/-- The watched request a LAPSE-NOTICE names (R123, R201). -/
inductive NoticeKind where
  | debit
  | hold
  | unlock
  | watchRedeem
  | watchHold
  deriving DecidableEq, Repr

/-- What a message of the answer queue carries after its header. `period` is the merchant's period that the answered
request's accrual fell in, where it made one (R150, log 35). -/
inductive AnswerBody where
  | empty
  | formatted (day reading : Nat)
  | clockSet (previous reading : Nat)
  | tradingClosed (lapsed : Nat)
  | dayClosed (day : Nat)
  | clock (reading today : Nat) (sweep : SweepUnit)
  | issued (slot : Slot) (expiry paid : Nat) (lot : Option Lot) (counter : Nat)
  | loaded (paid expiry : Nat) (base : BaseState) (stamp : Nat)
  | grantedBonus (lot : Lot) (counter : Nat)
  | card (report : CardReport)
  /-- A request on a card that carries nothing more than the new counter, when it was a value change (R30). -/
  | touched (counter : Option Nat)
  /-- The paid value cashed out, and every lot the change wrote off (R47). -/
  | cardClosed (paid : Nat) (lots : List Lot)
  | attempt (result : AttemptBody)
  | captured (amount paid : Nat) (parts : List Lot) (stamp returnedPaid : Nat) (returned : List (Lot × PartFate))
      (shortfall period : Nat)
  | released (paid : Nat) (returned : List (Lot × PartFate)) (counter : Nat)
  | holdReport (record : HoldRecord) (total : Nat)
  | tendered (members : List MemberAnswer) (placed captured remainder : Nat) (mark period : Option Nat)
  | refunded (credit : Nat) (parts : List (Nat × Nat)) (expiry : Nat) (steps : List Nat) (freeValue counter : Nat)
      (due : Int) (period : Nat)
  | voided (kind : MovementKind) (amount paid : Nat) (fates : List (Lot × PartFate)) (freeValue counter : Nat)
      (due : Option Int) (period : Option Nat)
  | decided (number : Nat) (kind : ReferralKind) (tag : Nat) (result : AttemptBody)
  | referralTime (previous setting : Nat)
  | referral (entry : Referral)
  | referralSummary (opened lapsed : Nat) (numbers : List Nat) (setting next : Nat)
  | productCount (issued : Nat)
  | product (record : Product)
  | sponsor (state : SponsorState) (granted liability expired billed : Total)
  | funds (cashIn cashOut paidLiability due paidOut fees writeOff granted liability expired billed : Total)
  | merchantIndex (index : Nat)
  | merchantStanding (openHolds : Nat) (due : Int)
  | merchantClosed (index : Nat) (due writeOff : Int) (billings : Vector Int 8)
  | merchantUnused
  | merchantPage (index : Nat) (state : MerchantState) (id period : Nat) (page : MerchantPage)
  | tier (tier : Tier)
  | watchDefined (previous : WatchState) (listed : Nat)
  /-- Each listed card with the reading at which its window runs out (R139). -/
  | watch (entry : WatchEntry) (armed : List (Armed × Nat))
  | payoutStarted (descriptor : Nat)
  | runEnded (report : RunReport)
  | descriptor (fields : Descriptor) (waitsFor : Option WaitedStep)
  | payoutAdvice (descriptor index merchant label : Nat) (cut : CutResult)
  | payoutEnd (descriptor : Nat) (report : RunReport)
  | lapseNotice (number : Nat) (kind : NoticeKind) (tag card merchant amount : Nat)
  | sweepEnd (day swept passed expired lots bonus : Nat)
  deriving DecidableEq, Repr

/-- A message of the answer queue: its header's fields (R197) and its body. -/
structure Answer where
  kind : Nat
  outcome : AnswerOutcome
  flags : AnswerFlags
  tag : Nat
  number : Nat
  body : AnswerBody
  deriving DecidableEq, Repr

/-- What a request's own rule answers, before the port adds the header. -/
structure Reply where
  outcome : AnswerOutcome
  flags : AnswerFlags
  body : AnswerBody
  deriving DecidableEq, Repr

end Sys2Proof.Machine
end

