-- ==== Sys2Proof/Config.lean ====
section
/-! DEFINITION. What the manual leaves to the implementation: the layout of the answer bodies that chapter 11 does not
lay out. Each is a constant with no body, so nothing can be proved of its value (log 15). -/

namespace Sys2Proof

/-- FREE VALUE: how long the body of an answer is, before the bound of R197 is applied. -/
opaque Config.bodyLength : Machine.AnswerBody → Nat

/-- FREE VALUE: the bytes of an answer's body, by offset from the start of the message. -/
opaque Config.bodyByte : Machine.AnswerBody → Nat → Byte

end Sys2Proof
end

