-- ==== Sys2Proof/Machine/Table.lean ====
section
/-! DEFINITION. The engine's tables as sparse lists: (index, record) pairs with strictly rising indexes, and no
entry equal to what an unlisted index holds, so that equal tables are equal data. -/

namespace Sys2Proof.Machine

/-- A sparse table. -/
abbrev Table (α : Type) := List (Nat × α)

/-- The entry listed at an index. -/
def Table.find {α : Type} (t : Table α) (k : Nat) : Option α :=
  match t with
  | [] => none
  | (j, v) :: rest => if j = k then some v else Table.find rest k

/-- The record at an index; `d` is what an unlisted index holds. -/
def Table.get {α : Type} (d : α) (t : Table α) (k : Nat) : α := (t.find k).getD d

/-- The table with an entry listed at an index, the indexes still rising. -/
def Table.insert {α : Type} (t : Table α) (k : Nat) (v : α) : Table α :=
  match t with
  | [] => [(k, v)]
  | (j, w) :: rest =>
    if k < j then (k, v) :: (j, w) :: rest
    else if k = j then (k, v) :: rest
    else (j, w) :: Table.insert rest k v

/-- The table with no entry at an index. -/
def Table.erase {α : Type} (t : Table α) (k : Nat) : Table α :=
  match t with
  | [] => []
  | (j, w) :: rest => if j = k then rest else (j, w) :: Table.erase rest k

/-- The table with a record at an index: writing what an unlisted index holds removes the entry. -/
def Table.set {α : Type} [DecidableEq α] (d : α) (t : Table α) (k : Nat) (v : α) : Table α :=
  if v = d then t.erase k else t.insert k v

/-- The table with an entry listed or removed. -/
def Table.write {α : Type} (t : Table α) (k : Nat) (v : Option α) : Table α :=
  match v with
  | some w => t.insert k w
  | none => t.erase k

/-- Every listed record changed by a function, entries that become the unlisted record dropped. -/
def Table.update {α : Type} [DecidableEq α] (d : α) (f : α → α) (t : Table α) : Table α :=
  (t.map fun e => (e.1, f e.2)).filter fun e => !decide (e.2 = d)

/-- What must be written to the first table to make it the second. -/
def Table.diff {α : Type} [DecidableEq α] (a b : Table α) : List (Nat × Option α) :=
  (b.filter fun e => !decide (a.find e.1 = some e.2)).map (fun e => (e.1, some e.2)) ++
    (a.filter fun e => (b.find e.1).isNone).map (fun e => (e.1, none))

/-- The indexes rise strictly. -/
def Table.rising {α : Type} : Table α → Bool
  | [] => true
  | [_] => true
  | (j, _) :: (k, w) :: rest => decide (j < k) && Table.rising ((k, w) :: rest)

/-- The canonical form: rising indexes, and no entry equal to the unlisted record. -/
def Table.wf {α : Type} [DecidableEq α] (d : α) (t : Table α) : Bool :=
  t.rising && t.all fun e => !decide (e.2 = d)

/-- The first of `fuel` indexes from `start` on that meets a test. -/
def firstIndex (p : Nat → Bool) : Nat → Nat → Option Nat
  | 0, _ => none
  | fuel + 1, start => if p start then some start else firstIndex p fuel (start + 1)

end Sys2Proof.Machine
end

