-- ==== Sys2Proof/Machine/State.lean ====
section
/-! DEFINITION. The state of the engine as plain data: Record Memory (the retained tables, R193), the working state,
the board's supply, and the queue of commands that wait. -/

namespace Sys2Proof.Machine

/-- Record Memory (R193): every table whose values the manual calls retained. In each table an index that is not
listed holds the record's FORMAT value: no card, an empty chain, an UNUSED record, a FREE slot, a DISABLED watch
entry, an IDLE descriptor. -/
structure RecordMemory where
  /-- The Card Table's main area by main slot number (R32). -/
  mainCards : Table Card
  /-- The overflow pool by pool slot (R32). -/
  poolCards : Table Card
  /-- Each bucket's overflow chain (R32). -/
  chains : Table (List Nat)
  products : Table Product
  merchants : Table Merchant
  tiers : Table Tier
  sponsors : Table SponsorState
  holds : Table HoldSlot
  watches : Table WatchEntry
  descriptors : Table Descriptor
  sweep : SweepUnit
  funds : Funds
  /-- The referral deadline setting, in seconds (R113). -/
  referralTime : Nat
  /-- The next referral number (R113). -/
  nextReferral : Nat
  /-- The trading clock's reading (R173). -/
  clock : Nat
  /-- Today (R174). -/
  today : Nat
  deriving DecidableEq, Repr

/-- One retained record with its new contents, as an update slot holds it (R193); `none` is the record's unlisted
value. -/
inductive RecordWrite where
  | mainCard (slot : Nat) (value : Option Card)
  | poolCard (slot : Nat) (value : Option Card)
  | chain (bucket : Nat) (value : Option (List Nat))
  | product (index : Nat) (value : Option Product)
  | merchant (index : Nat) (value : Option Merchant)
  | tier (index : Nat) (value : Option Tier)
  | sponsor (index : Nat) (value : Option SponsorState)
  | hold (slot : Nat) (value : Option HoldSlot)
  | watch (entry : Nat) (value : Option WatchEntry)
  | descriptor (index : Nat) (value : Option Descriptor)
  | sweep (value : SweepUnit)
  | referralTime (value : Nat)
  | nextReferral (value : Nat)
  | clock (value : Nat)
  | today (value : Nat)
  deriving DecidableEq, Repr

/-- An update slot (R193). A FILLING slot's contents are never used: recovery discards them. -/
inductive UpdateSlot where
  | empty
  | filling
  | sealed (records : List RecordWrite) (amounts : Funds) (applied checkPasses : Bool)
  deriving DecidableEq, Repr

/-- The four update slots (R193). -/
structure UpdateSlots where
  request : UpdateSlot
  payout : UpdateSlot
  sweep : UpdateSlot
  expiry : UpdateSlot
  deriving DecidableEq, Repr

/-- All four slots EMPTY. -/
def UpdateSlots.empty : UpdateSlots := ⟨.empty, .empty, .empty, .empty⟩

/-- The machine's state. -/
structure State where
  /-- The commands that wait, first in, first out (the model's own field, log 1). -/
  pending : List Instr
  /-- The board's supply is present (R192). -/
  powered : Bool
  memory : RecordMemory
  slots : UpdateSlots
  /-- The retention indicator (R192). -/
  retention : Retention
  /-- The indicator passes the check over its contents (R192). -/
  indicatorCheck : Bool
  engine : EngineState
  startCause : StartCause
  /-- The inbound queue, oldest first (R184). -/
  inbound : List Message
  /-- The post area (R184). -/
  postArea : Message
  overrun : Bool
  /-- The answer queue, oldest first (R185). -/
  answers : List Answer
  /-- The last answer number given (R185). -/
  lastNumber : Nat
  interruptEnable : Bool
  /-- How many interrupt messages the port has sent (the model's own field, log 14). -/
  interruptsSent : Nat
  /-- The waiting list, oldest first (R188). -/
  waiting : List Producer
  /-- The Referral Queue's entries, oldest first (R113). -/
  referrals : List Referral
  /-- The lapse record, oldest first (R113). -/
  lapseRecord : List Nat
  /-- The armed-card lists of the watch entries, each oldest first (R129). -/
  armed : Table (List Armed)
  /-- The arbiter's last served descriptor (R158). -/
  lastServed : Nat
  deriving DecidableEq, Repr

/-- Why a command stops the machine. -/
inductive Fault where
  /-- WINDOW_WRITE names an offset that the layout of R197 does not hold. Raised by `execWindowWrite` alone. Safe:
  the manual gives such a write no effect to claim anything about. -/
  | outsideWindow (offset : Nat)
  deriving DecidableEq, Repr

/-- Why a command has no meaning in the model. -/
inductive Refusal where
  /-- A row of the opcode table not modelled yet; raised by exec's arms alone, by none in this model. Safe. -/
  | notModelled (mnemonic : String)
  deriving DecidableEq, Repr

/-- The Day Sweep Unit with no walk (R183). -/
def SweepUnit.idleOn (day : Nat) : SweepUnit := ⟨.idle, day, .main 0, 0, 0, 0, 0, 0⟩

/-- Record Memory with every table at its FORMAT value, and the given settings, reading and day. -/
def RecordMemory.blank (referralTime nextReferral clock today : Nat) : RecordMemory where
  mainCards := []
  poolCards := []
  chains := []
  products := []
  merchants := []
  tiers := []
  sponsors := []
  holds := []
  watches := []
  descriptors := []
  sweep := SweepUnit.idleOn today
  funds := Funds.zero
  referralTime := referralTime
  nextReferral := nextReferral
  clock := clock
  today := today

/-- The machine right after reset: a power-on with retention lost (R194, log 4). -/
def State.reset : State where
  pending := []
  powered := true
  memory := RecordMemory.blank 0 0 0 0
  slots := UpdateSlots.empty
  retention := .lost
  indicatorCheck := true
  engine := .unformatted
  startCause := .cold
  inbound := []
  postArea := List.replicate 128 0
  overrun := false
  answers := []
  lastNumber := 0
  interruptEnable := false
  interruptsSent := 0
  waiting := []
  referrals := []
  lapseRecord := []
  armed := []
  lastServed := 3

end Sys2Proof.Machine
end

