-- ==== Sys2Proof/Machine/Ops.lean ====
section
/-! DEFINITION. The named operations over the tables, the fund totals and the port's queues, shared by every
command's meaning. -/

namespace Sys2Proof.Machine

/-! ### Records by index -/

/-- The product record at an index (R52). -/
def RecordMemory.product (m : RecordMemory) (i : Nat) : Product := m.products.get Product.unused i

def RecordMemory.setProduct (m : RecordMemory) (i : Nat) (p : Product) : RecordMemory :=
  { m with products := m.products.set Product.unused i p }

/-- The merchant record at an index (R141). -/
def RecordMemory.merchant (m : RecordMemory) (i : Nat) : Merchant := m.merchants.get Merchant.unused i

def RecordMemory.setMerchant (m : RecordMemory) (i : Nat) (r : Merchant) : RecordMemory :=
  { m with merchants := m.merchants.set Merchant.unused i r }

/-- The fee tier of a number (R151). -/
def RecordMemory.tier (m : RecordMemory) (i : Nat) : Tier := m.tiers.get Tier.zero i

def RecordMemory.setTier (m : RecordMemory) (i : Nat) (t : Tier) : RecordMemory :=
  { m with tiers := m.tiers.set Tier.zero i t }

/-- A sponsor's state (R16). -/
def RecordMemory.sponsor (m : RecordMemory) (i : Nat) : SponsorState := m.sponsors.get .unused i

def RecordMemory.setSponsor (m : RecordMemory) (i : Nat) (st : SponsorState) : RecordMemory :=
  { m with sponsors := m.sponsors.set .unused i st }

/-- The Hold Pool slot of a number (R77). -/
def RecordMemory.holdSlot (m : RecordMemory) (i : Nat) : HoldSlot := m.holds.get HoldSlot.free i

def RecordMemory.setHoldSlot (m : RecordMemory) (i : Nat) (h : HoldSlot) : RecordMemory :=
  { m with holds := m.holds.set HoldSlot.free i h }

/-- The retained part of a watch entry (R129). -/
def RecordMemory.watchEntry (m : RecordMemory) (i : Nat) : WatchEntry := m.watches.get WatchEntry.formatted i

def RecordMemory.setWatchEntry (m : RecordMemory) (i : Nat) (w : WatchEntry) : RecordMemory :=
  { m with watches := m.watches.set WatchEntry.formatted i w }

/-- The payout descriptor of a number (R156). -/
def RecordMemory.descriptor (m : RecordMemory) (i : Nat) : Descriptor := m.descriptors.get Descriptor.idle i

def RecordMemory.setDescriptor (m : RecordMemory) (i : Nat) (d : Descriptor) : RecordMemory :=
  { m with descriptors := m.descriptors.set Descriptor.idle i d }

/-- A bucket's overflow chain (R32). -/
def RecordMemory.chain (m : RecordMemory) (b : Nat) : List Nat := m.chains.get [] b

/-- The armed-card list of a watch entry (R129). -/
def State.armedList (s : State) (i : Nat) : List Armed := s.armed.get [] i

def State.setArmedList (s : State) (i : Nat) (l : List Armed) : State :=
  { s with armed := s.armed.set [] i l }

/-! ### Merchants by id -/

/-- A record is used while OPEN or SUSPENDED (R141). -/
def Merchant.used (r : Merchant) : Bool := decide (r.state ≠ .unused)

/-- The used record holding an id, with its index (R141). -/
def RecordMemory.findMerchant (m : RecordMemory) (id : Nat) : Option (Nat × Merchant) :=
  List.find? (fun e => e.2.used && e.2.id == id) m.merchants

/-- A position's due (R142). -/
def Position.due (p : Position) : Int := p.gross - p.refunded + p.carryIn

/-! ### The Card Table (R31 to R35) -/

/-- The check sum of R31 over at most `fuel` digits, from the rightmost: `double` says whether this digit is
doubled. -/
def checkSum : Nat → Bool → Nat → Nat
  | 0, _, _ => 0
  | fuel + 1, double, n =>
    let d := n % 10
    let v := if double then (if 2 * d > 9 then 2 * d - 9 else 2 * d) else d
    v + checkSum fuel (!double) (n / 10)

/-- A card number is well formed: 16 to 19 digits, and the mod-10 check passes (R31). -/
def wellFormedNumber (n : Nat) : Bool :=
  decide (10 ^ 15 ≤ n) && decide (n < 10 ^ 19) && checkSum 19 false n % 10 == 0

/-- A card's bucket: its body modulo the number of buckets (R32). -/
def bucketOf (number : Nat) : Nat := number / 10 % buckets

/-- The card in a slot, if it is used. -/
def RecordMemory.cardAt (m : RecordMemory) : Slot → Option Card
  | .main n => m.mainCards.find n
  | .overflow n => m.poolCards.find n

/-- The memory with a card in a slot. -/
def RecordMemory.putCard (m : RecordMemory) (slot : Slot) (c : Card) : RecordMemory :=
  match slot with
  | .main n => { m with mainCards := m.mainCards.insert n c }
  | .overflow n => { m with poolCards := m.poolCards.insert n c }

/-- The slots a lookup examines, in order: the bucket's four places, then its chain (R33). -/
def RecordMemory.slotsOf (m : RecordMemory) (b : Nat) : List Slot :=
  [.main (4 * b), .main (4 * b + 1), .main (4 * b + 2), .main (4 * b + 3)] ++ (m.chain b).map .overflow

/-- The first used slot on the way that holds a number (R33). -/
def RecordMemory.findCard (m : RecordMemory) (number : Nat) : Option (Slot × Card) :=
  (m.slotsOf (bucketOf number)).findSome? fun slot =>
    match m.cardAt slot with
    | some c => if c.number = number then some (slot, c) else none
    | none => none

/-- The slot a new card of a bucket takes: the lowest free place, else the lowest free pool slot (R34). -/
def RecordMemory.freePlace (m : RecordMemory) (b : Nat) : Option Slot :=
  match firstIndex (fun n => (m.mainCards.find n).isNone) 4 (4 * b) with
  | some n => some (.main n)
  | none => (firstIndex (fun n => (m.poolCards.find n).isNone) overflowSlots 0).map .overflow

/-- A new card placed in the slot R34 gives; a pool slot joins the end of its bucket's chain. -/
def RecordMemory.placeCard (m : RecordMemory) (slot : Slot) (c : Card) : RecordMemory :=
  match slot with
  | .main n => { m with mainCards := m.mainCards.insert n c }
  | .overflow n =>
    { m with
      poolCards := m.poolCards.insert n c
      chains := m.chains.set [] (bucketOf c.number) (m.chain (bucketOf c.number) ++ [n]) }

/-- A card removed from its slot; a pool slot is unlinked from its bucket's chain (R35). -/
def RecordMemory.removeCard (m : RecordMemory) (slot : Slot) (c : Card) : RecordMemory :=
  match slot with
  | .main n => { m with mainCards := m.mainCards.erase n }
  | .overflow n =>
    { m with
      poolCards := m.poolCards.erase n
      chains := m.chains.set [] (bucketOf c.number) ((m.chain (bucketOf c.number)).erase n) }

/-! ### Value on a card (R1) -/

/-- The amounts of a list of lots or parts. -/
def sumLots (lots : List Lot) : Nat := (lots.map Lot.amount).sum

/-- A hold's held total: its paid part and its bonus parts (R77). -/
def HoldRecord.total (h : HoldRecord) : Nat := h.paid + sumLots h.parts

/-- A last movement's whole amount. -/
def Movement.amount (v : Movement) : Nat := v.paid + sumLots v.parts

/-- A card's free value: its free paid value and all its lots (R1). -/
def Card.free (c : Card) : Nat := c.paid + sumLots c.lots

/-- The held total of the OPEN hold in a slot, 0 when it is FREE. -/
def RecordMemory.heldIn (m : RecordMemory) (slot : Nat) : Nat :=
  match (m.holdSlot slot).record with
  | some h => h.total
  | none => 0

/-- A card's held value: the held totals of the holds on its list (R1, R28). -/
def RecordMemory.held (m : RecordMemory) (c : Card) : Nat := (c.holds.map fun h => m.heldIn h.slot).sum

/-- A card's total value (R1). -/
def RecordMemory.total (m : RecordMemory) (c : Card) : Nat := c.free + m.held c

/-! ### The fund totals (R18, R21 to R25) -/

/-- An amount as it is added to a fund total. -/
def money (n : Nat) : Total := BitVec.ofNat 64 n

/-- A signed amount as it is added to a fund total. -/
def moneyInt (n : Int) : Total := BitVec.ofInt 64 n

/-- One sponsor's entry grown by an amount. -/
def addFor (v : Vector Total 8) (s : Fin 8) (x : Total) : Vector Total 8 := v.set s.val (v[s.val] + x)

/-- Paid value taken in (R21). -/
def Funds.takeIn (f : Funds) (n : Nat) : Funds :=
  { f with cashIn := f.cashIn + money n, paidLiability := f.paidLiability + money n }

/-- A load voided (R21). -/
def Funds.voidLoad (f : Funds) (n : Nat) : Funds :=
  { f with cashIn := f.cashIn - money n, paidLiability := f.paidLiability - money n }

/-- Bonus granted (R21). -/
def Funds.grant (f : Funds) (s : Fin 8) (n : Nat) : Funds :=
  { f with granted := addFor f.granted s (money n), liability := addFor f.liability s (money n) }

/-- Bonus value that stood in the liability written off: a lot expired by the sweep or closed with its card, or a
held part written off at its return (R21, R24). -/
def Funds.writeOffLot (f : Funds) (p : Lot) : Funds :=
  { f with
    expired := addFor f.expired p.sponsor (money p.amount)
    liability := addFor f.liability p.sponsor (-money p.amount) }

/-- Paid value cashed out (R21). -/
def Funds.cashOutPaid (f : Funds) (n : Nat) : Funds :=
  { f with cashOut := f.cashOut + money n, paidLiability := f.paidLiability - money n }

/-- One bonus part moved to the merchants' due (R22). -/
def Funds.spendPart (f : Funds) (p : Lot) : Funds :=
  { f with
    liability := addFor f.liability p.sponsor (-money p.amount)
    due := f.due + money p.amount }

/-- Value going to a merchant: its paid part and its bonus parts (R22). -/
def Funds.spend (f : Funds) (paid : Nat) (parts : List Lot) : Funds :=
  parts.foldl Funds.spendPart
    { f with paidLiability := f.paidLiability - money paid, due := f.due + money paid }

/-- Paid value coming back from a merchant (R23). -/
def Funds.unspendPaid (f : Funds) (n : Nat) : Funds :=
  { f with paidLiability := f.paidLiability + money n, due := f.due - money n }

/-- A bonus part coming back from a merchant: it joins a lot, or is written off (R23). -/
def Funds.unspendPart (f : Funds) (p : Lot × PartFate) : Funds :=
  match p.2 with
  | .joined _ =>
    { f with
      liability := addFor f.liability p.1.sponsor (money p.1.amount)
      due := f.due - money p.1.amount }
  | .writtenOff =>
    { f with
      expired := addFor f.expired p.1.sponsor (money p.1.amount)
      due := f.due - money p.1.amount }

/-- The parts of a returned hold that were written off leave the liability (R24). -/
def Funds.returnPart (f : Funds) (p : Lot × PartFate) : Funds :=
  match p.2 with
  | .joined _ => f
  | .writtenOff => f.writeOffLot p.1

/-- One sponsor's billing (R25, R154). -/
def Funds.bill (f : Funds) (s : Fin 8) (x : Int) : Funds :=
  { f with billed := addFor f.billed s (moneyInt x) }

/-- Two sets of fund totals added entry by entry, as an update slot's amounts are (R193). -/
def Funds.add (a b : Funds) : Funds where
  cashIn := a.cashIn + b.cashIn
  cashOut := a.cashOut + b.cashOut
  paidLiability := a.paidLiability + b.paidLiability
  due := a.due + b.due
  paidOut := a.paidOut + b.paidOut
  fees := a.fees + b.fees
  writeOff := a.writeOff + b.writeOff
  granted := Vector.zipWith (· + ·) a.granted b.granted
  liability := Vector.zipWith (· + ·) a.liability b.liability
  expired := Vector.zipWith (· + ·) a.expired b.expired
  billed := Vector.zipWith (· + ·) a.billed b.billed

/-- The amounts by which the first totals exceed the second. -/
def Funds.sub (a b : Funds) : Funds where
  cashIn := a.cashIn - b.cashIn
  cashOut := a.cashOut - b.cashOut
  paidLiability := a.paidLiability - b.paidLiability
  due := a.due - b.due
  paidOut := a.paidOut - b.paidOut
  fees := a.fees - b.fees
  writeOff := a.writeOff - b.writeOff
  granted := Vector.zipWith (· - ·) a.granted b.granted
  liability := Vector.zipWith (· - ·) a.liability b.liability
  expired := Vector.zipWith (· - ·) a.expired b.expired
  billed := Vector.zipWith (· - ·) a.billed b.billed

/-- A per-sponsor total summed over the sponsors. -/
def sumSponsors (v : Vector Total 8) : Total :=
  v[0] + v[1] + v[2] + v[3] + v[4] + v[5] + v[6] + v[7]

/-! ### Bonus lots (R2, R4, R5) -/

/-- The lot order: expiry day, then sponsor number (R2). -/
def lotBefore (a b : Lot) : Bool :=
  decide (a.expiry < b.expiry) || (a.expiry == b.expiry && decide (a.sponsor.val < b.sponsor.val))

/-- A lot added at the place its expiry day and sponsor give it (R2). -/
def insertLot (p : Lot) : List Lot → List Lot
  | [] => [p]
  | l :: rest => if lotBefore p l then p :: l :: rest else l :: insertLot p rest

/-- Whether a lot has a part's sponsor and expiry day. -/
def sameLot (p l : Lot) : Bool := l.sponsor == p.sponsor && l.expiry == p.expiry

/-- A part's amount added to the lot of its sponsor and expiry day. -/
def joinLot (p : Lot) (lots : List Lot) : List Lot :=
  lots.map fun l => if sameLot p l then { l with amount := l.amount + p.amount } else l

/-- The lot of a sponsor whose expiry day is the latest. -/
def latestLot (s : Fin 8) : List Lot → Option Lot
  | [] => none
  | l :: rest =>
    match latestLot s rest with
    | some k => if l.sponsor = s ∧ k.expiry < l.expiry then some l else some k
    | none => if l.sponsor = s then some l else none

/-- The lot-merge rule (R4): the lots with the part placed and the step that placed it; none at step 4. -/
def mergeLot (lots : List Lot) (p : Lot) : Option (List Lot × Nat) :=
  if lots.any (sameLot p) then some (joinLot p lots, 1)
  else if lots.length < lotPlaces then some (insertLot p lots, 2)
  else
    match latestLot p.sponsor lots with
    | some l =>
      some (insertLot { l with amount := l.amount + p.amount, expiry := max l.expiry p.expiry } (lots.erase l), 3)
    | none => none

/-- Parts placed one at a time in the rule's return form: a part past its expiry day, or one that reaches step 4, is
written off (R4, R5). -/
def placeParts (today : Nat) (lots : List Lot) : List Lot → List Lot × List (Lot × PartFate)
  | [] => (lots, [])
  | p :: rest =>
    if p.expiry < today then
      let r := placeParts today lots rest
      (r.1, (p, .writtenOff) :: r.2)
    else
      match mergeLot lots p with
      | some (lots', step) =>
        let r := placeParts today lots' rest
        (r.1, (p, .joined step) :: r.2)
      | none =>
        let r := placeParts today lots rest
        (r.1, (p, .writtenOff) :: r.2)

/-- At least one part joined a lot (R5). -/
def anyJoined (fates : List (Lot × PartFate)) : Bool := fates.any fun f => decide (f.2 ≠ .writtenOff)

/-! ### Touching, sweeping and changing a card (R29, R30, R37) -/

/-- A sweep's result: the card brought up to the day, the lots written off, and whether the card went from ACTIVE to
EXPIRED. -/
structure Swept where
  card : Card
  written : List Lot
  expired : Bool
  deriving DecidableEq, Repr

/-- A card swept to a day, when its swept-through day is before it (R37, R179). -/
def sweepCard (day : Nat) (c : Card) : Swept :=
  if c.sweptThrough < day then
    { card := { c with
        lots := c.lots.filter fun l => decide (day ≤ l.expiry)
        base := if c.expiry < day then .expired else c.base
        sweptThrough := day }
      written := c.lots.filter fun l => decide (l.expiry < day)
      expired := decide (c.expiry < day) && decide (c.base = .active) }
  else { card := c, written := [], expired := false }

/-- What a value change's last movement records: kind, paid part and bonus parts (R30). -/
abbrev Moved := MovementKind × Nat × List Lot

/-- A value change's bookkeeping on the card: counter, last activity day, last movement (R29). -/
def Card.changed (c : Card) (today : Nat) (moved : Option Moved) : Card :=
  let stamp := (c.counter + 1) % halfSpan
  { c with
    counter := stamp
    lastActivity := today
    last := moved.map fun v => ⟨v.1, stamp, today, v.2.1, v.2.2⟩ }

/-- A touched card: the memory with the touch sweep's write-offs in the fund totals, the swept card, and whether a lot
was written off. The card is not yet written back. -/
structure Touched where
  memory : RecordMemory
  card : Card
  wrote : Bool
  deriving DecidableEq, Repr

/-- A touch (R37). -/
def RecordMemory.touch (m : RecordMemory) (c : Card) : Touched :=
  let w := sweepCard m.today c
  { memory := { m with funds := w.written.foldl Funds.writeOffLot m.funds }
    card := w.card
    wrote := !w.written.isEmpty }

/-- The card of a change that moves no value of its own written back: a value change exactly when the touch sweep
wrote off a lot (R29, R30). Gives the new counter in that case. -/
def RecordMemory.settle (m : RecordMemory) (slot : Slot) (c : Card) (wrote : Bool) : RecordMemory × Option Nat :=
  if wrote then
    let c' := c.changed m.today none
    (m.putCard slot c', some c'.counter)
  else (m.putCard slot c, none)

/-- The card of a value change written back (R29, R30). -/
def RecordMemory.commit (m : RecordMemory) (slot : Slot) (c : Card) (moved : Option Moved) : RecordMemory × Card :=
  let c' := c.changed m.today moved
  (m.putCard slot c', c')

/-- A day plus a life, capped at the day range, and whether the cap applied (R39). -/
def cappedDay (today life : Nat) : Nat × Bool :=
  if today + life > dayCap then (dayCap, true) else (today + life, false)

/-- A clock reading plus seconds, capped at the largest reading, and whether the cap applied (R80, R115). -/
def cappedTime (now seconds : Nat) : Nat × Bool :=
  if now + seconds > clockCap then (clockCap, true) else (now + seconds, false)

/-! ### The answer queue, the inbound queue and the waiting list (R184 to R188) -/

/-- An answer slot is free (R187). -/
def State.slotFree (s : State) : Bool := decide (s.answers.length < answerCapacity)

/-- A message entered in the answer queue: it takes the next answer number, and an interrupt message is sent when it
enters an empty queue while the enable is set (R185, R186). -/
def State.enter (s : State) (kind : Nat) (outcome : AnswerOutcome) (flags : AnswerFlags) (tag : Nat)
    (body : AnswerBody) : State :=
  let number := (s.lastNumber + 1) % wordSpan
  { s with
    answers := s.answers ++ [⟨kind, outcome, flags, tag, number, body⟩]
    lastNumber := number
    interruptsSent := if s.answers.isEmpty && s.interruptEnable then s.interruptsSent + 1 else s.interruptsSent }

/-- A notice entered: tag 0, outcome NOTICE, no flags (R200, R201). -/
def State.enterNotice (s : State) (kind : Nat) (body : AnswerBody) : State :=
  s.enter kind .notice AnswerFlags.none 0 body

/-- A BURST descriptor is RUNNING or WAITING: intake is held (R165). -/
def State.burstHeld (s : State) : Bool :=
  [0, 1, 2, 3].any fun i =>
    let d := s.memory.descriptor i
    decide (d.mode = .burst) && (decide (d.state = .running) || decide (d.state = .waiting))

/-- One request counted in a descriptor's step credit: STEP, and RUNNING or WAITING (R159). -/
def Descriptor.credited (d : Descriptor) : Descriptor :=
  if d.mode = .step ∧ (d.state = .running ∨ d.state = .waiting) then
    { d with credit := min creditCap (d.credit + 1) }
  else d

/-- The port takes the oldest message, when it reads as this command and the conditions of R187 hold: the message
leaves the queue and the step credits grow. -/
def State.take (s : State) (i : Instr) : Option State :=
  match s.inbound with
  | [] => none
  | m :: rest =>
    if s.powered && s.slotFree && !s.burstHeld && decide (readMessage m = i) then
      some { s with
        inbound := rest
        memory := { s.memory with
          descriptors := s.memory.descriptors.update Descriptor.idle Descriptor.credited } }
    else none

/-- A request's change: what it makes of the state, and what it answers. -/
abbrev Change := State → State × Reply

/-- One request taken and answered: the change, and the answer entered under the request's code and tag in the same
change (R187). A request that the port cannot take now waits: nothing happens (log 2). -/
def answerRequest (i : Instr) (code tag : Nat) (change : Change) (s : State) :
    Host.Outcome State Fault Refusal :=
  match s.take i with
  | none => .next s
  | some t =>
    let r := change t
    .next (r.1.enter code r.2.outcome r.2.flags tag r.2.body)

/-- A change made on Record Memory alone. -/
def onMemory (change : RecordMemory → RecordMemory × Reply) : Change := fun s =>
  let r := change s.memory
  ({ s with memory := r.1 }, r.2)

/-- A step the board's supply must be present for. -/
def whenPowered (s : State) (step : State → State) : Host.Outcome State Fault Refusal :=
  if s.powered then .next (step s) else .next s

/-- A producer that found no slot joins the end of the waiting list (R188). -/
def State.wait (s : State) (p : Producer) : State := { s with waiting := s.waiting ++ [p] }

/-- A producer taken off the waiting list. -/
def State.unwait (s : State) (p : Producer) : State := { s with waiting := s.waiting.erase p }

end Sys2Proof.Machine
end

