-- ==== Sys2Proof/Machine/Flags.lean ====
section
/-! DEFINITION. The flags of an answer and the replies that carry them (00 Answer flags; R1, R5, R11). -/

namespace Sys2Proof.Machine

/-- A refusal: nothing carried, and no flags but the ZERO of the cards its request names, which `naming` gives (R1). -/
def Reply.refused (r : RefusalReason) : Reply := ⟨.refused r, AnswerFlags.none, .empty⟩

/-- A request answered DONE that names no card. -/
def Reply.done (body : AnswerBody) : Reply := ⟨.done, AnswerFlags.none, body⟩

/-- A request refused: nothing changes. -/
def refuse (r : RefusalReason) : Change := fun s => (s, Reply.refused r)

/-- The ZERO flag of a card as the request left it: its total value, free plus held, is 0 (R1). -/
def zeroFlag (m : RecordMemory) (c : Card) : Bool := m.total c == 0

/-- No flag but ZERO. -/
def zeroOnly (m : RecordMemory) (c : Card) : AnswerFlags := { AnswerFlags.none with zero := zeroFlag m c }

/-- A card of this number is present with total value 0 (R1): with no card present ZERO is clear. -/
def RecordMemory.namedZero (m : RecordMemory) (number : Nat) : Bool :=
  match m.findCard number with
  | some (_, c) => zeroFlag m c
  | none => false

/-- The flags of a refusal by the cards its request names: ZERO when every one of them is present with total value 0 (R1
for one card, R94 for a tender's members). -/
def refusalFlags (m : RecordMemory) (cards : List Nat) : AnswerFlags :=
  { AnswerFlags.none with zero := !cards.isEmpty && cards.all m.namedZero }

/-- A request whose body names cards by number: R1's ZERO stands on a REFUSED answer too (log 17). -/
def naming (cards : List Nat) (change : Change) : Change := fun s =>
  let r := change s
  match r.2.outcome with
  | .refused _ => (r.1, { r.2 with flags := refusalFlags r.1.memory cards })
  | _ => r

/-- The flags of a drawn split: SHORT and CLAMPED when it was reduced, BONUS when its bonus share is at least 1
(R11). -/
def splitFlags (zero reduced clamped watch : Bool) (parts : List Lot) : AnswerFlags where
  zero := zero
  short := reduced
  clamped := reduced || clamped
  bonus := decide (1 ≤ sumLots parts)
  watch := watch

/-- DONE, or PARTIAL when less than asked was done. -/
def doneOrPart (less : Bool) : AnswerOutcome := if less then .inPart else .done

end Sys2Proof.Machine
end

