-- ==== Sys2Proof/Machine/Days.lean ====
section
/-! DEFINITION. The trading clock, the business day and the Day Sweep Unit (R173 to R182). -/

namespace Sys2Proof.Machine

/-! ### The clock (R173, R175) -/

/-- One second counted: the reading stops at its largest value (R173). -/
def RecordMemory.tick (m : RecordMemory) : RecordMemory := { m with clock := min clockCap (m.clock + 1) }

/-- CLOCK_TICK (R173): the clock runs in SETUP and TRADING. While the board is unpowered the backup oscillator counts
the retained reading of an engine that had left UNFORMATTED (R183, R192, log 13). -/
def execClockTick (s : State) : Host.Outcome State Fault Refusal :=
  .next (if s.engine = .unformatted then s else { s with memory := s.memory.tick })

/-- SET-CLOCK (R175), taken in every engine state. -/
def setClockChange (reading : Nat) : Change := fun s =>
  if reading < s.memory.clock then
    (s, ⟨.refused .badTime, AnswerFlags.none, .clockSet s.memory.clock s.memory.clock⟩)
  else
    ({ s with memory := { s.memory with clock := reading } }, Reply.done (.clockSet s.memory.clock reading))

def execSetClock (tag reading : Nat) (s : State) : Host.Outcome State Fault Refusal :=
  answerRequest (.setClock tag reading) 2 tag (setClockChange reading) s

/-- INQUIRE-CLOCK (R182). -/
def inquireClockChange : Change := fun s =>
  if s.engine = .unformatted then refuse .wrongState s
  else (s, Reply.done (.clock s.memory.clock s.memory.today s.memory.sweep))

def execInquireClock (tag : Nat) (s : State) : Host.Outcome State Fault Refusal :=
  answerRequest (.inquireClock tag) 6 tag inquireClockChange s

/-! ### CLOSE-DAY (R177) -/

/-- The Day Sweep Unit at the start of a walk (R177). -/
def SweepUnit.begin (day : Nat) : SweepUnit := ⟨.sweeping, day, .main 0, 0, 0, 0, 0, 0⟩

/-- CLOSE-DAY (R177). Where both refusals apply SWEEP-BUSY comes first: R177 gives no order (DESIGN CHOICE, log 39). -/
def closeDayChange : Change := fun s =>
  if s.engine = .unformatted then refuse .wrongState s
  else if s.memory.sweep.state ≠ .idle then refuse .sweepBusy s
  else if dayCap ≤ s.memory.today then refuse .wrongState s
  else
    let day := s.memory.today + 1
    ({ s with memory := { s.memory with today := day, sweep := SweepUnit.begin day } }, Reply.done (.dayClosed day))

def execCloseDay (tag : Nat) (s : State) : Host.Outcome State Fault Refusal :=
  answerRequest (.closeDay tag) 5 tag closeDayChange s

/-! ### The walk (R179 to R181) -/

/-- The slot after a slot of the walk; none after the last (R179). -/
def Slot.after : Slot → Option Slot
  | .main n => if n + 1 < mainSlots then some (.main (n + 1)) else some (.overflow 0)
  | .overflow n => if n + 1 < overflowSlots then some (.overflow (n + 1)) else none

/-- The unit's counters after a card is swept (R178, R179). -/
def SweepUnit.count (u : SweepUnit) (w : Swept) : SweepUnit :=
  { u with
    swept := u.swept + 1
    expired := u.expired + if w.expired then 1 else 0
    lots := u.lots + w.written.length
    bonus := u.bonus + sumLots w.written }

/-- The card in the slot at the cursor examined (R179): passed, or swept with its write-offs in the fund totals. -/
def RecordMemory.examine (m : RecordMemory) : RecordMemory :=
  match m.cardAt m.sweep.cursor with
  | none => m
  | some c =>
    if m.sweep.day ≤ c.sweptThrough then { m with sweep := { m.sweep with passed := m.sweep.passed + 1 } }
    else
      let w := sweepCard m.sweep.day c
      ({ m with
        funds := w.written.foldl Funds.writeOffLot m.funds
        sweep := m.sweep.count w }.settle m.sweep.cursor w.card (!w.written.isEmpty)).1

/-- A SWEEP-END's body (R181, R201). -/
def SweepUnit.notice (u : SweepUnit) : AnswerBody := .sweepEnd u.day u.swept u.passed u.expired u.lots u.bonus

/-- The unit in a state. -/
def State.setSweep (s : State) (u : SweepUnit) : State := { s with memory := { s.memory with sweep := u } }

/-- The SWEEP-END placed and the unit made IDLE (R181). -/
def State.endSweep (s : State) : State :=
  (s.setSweep { s.memory.sweep with state := .idle }).enterNotice 65535 s.memory.sweep.notice

/-- One step of the walk (R179); the last completes it (R181). -/
def State.sweepOnce (s : State) : State :=
  if s.engine ≠ .unformatted ∧ s.memory.sweep.state = .sweeping then
    let t := { s with memory := s.memory.examine }
    match t.memory.sweep.cursor.after with
    | some next => t.setSweep { t.memory.sweep with cursor := next }
    | none =>
      if t.slotFree then t.endSweep
      else (t.setSweep { t.memory.sweep with state := .ending }).wait .sweep
  else s

/-- SWEEP_STEP (R179). -/
def execSweepStep (s : State) : Host.Outcome State Fault Refusal := whenPowered s State.sweepOnce

/-- The head of the waiting list served when it is the sweep unit and a slot is free (R181, R188). -/
def State.serveSweep (s : State) : State :=
  match s.waiting with
  | .sweep :: rest =>
    if s.slotFree then { s with waiting := rest }.endSweep else s
  | _ => s

/-- SWEEP_END (R181). -/
def execSweepEnd (s : State) : Host.Outcome State Fault Refusal := whenPowered s State.serveSweep

end Sys2Proof.Machine
end

