-- ==== Sys2Proof/Machine/Drawdown.lean ====
section
/-! DEFINITION. The Drawdown Unit (R7 to R15). -/

namespace Sys2Proof.Machine

/-- Whether a selector reaches paid value (R6). -/
def Purse.reachesPaid : Purse → Bool
  | .default => true
  | .paidOnly => true
  | .bonusOnly => false
  | .sponsor _ => false

/-- Whether a selector reaches a lot, usable lots alone (R3, R6). -/
def Purse.reachesLot (purse : Purse) (today : Nat) (l : Lot) : Bool :=
  decide (today ≤ l.expiry) &&
    match purse with
    | .default => true
    | .paidOnly => false
    | .bonusOnly => true
    | .sponsor s => l.sponsor == s

/-- The bonus share of an amount under a drawdown order, over a paid value and a bonus value (R9, R13). -/
def bonusShare (order : DrawOrder) (amount paid bonus : Nat) : Nat :=
  match order with
  | .bonusFirst => min amount bonus
  | .paidFirst => amount - min amount paid
  | .proRata => amount * bonus / (paid + bonus)

/-- The bonus share a selector gives (R9). -/
def Purse.share (purse : Purse) (order : DrawOrder) (amount paid bonus : Nat) : Nat :=
  match purse with
  | .default => bonusShare order amount paid bonus
  | .paidOnly => 0
  | .bonusOnly => amount
  | .sponsor _ => amount

/-- Value taken from lots in list order: each reached lot gives the smaller of its amount and what remains, a lot left
at zero is removed (R10). Gives the parts and the lots left. -/
def takeLots (reach : Lot → Bool) : Nat → List Lot → List Lot × List Lot
  | _, [] => ([], [])
  | b, l :: rest =>
    if reach l && decide (0 < min l.amount b) then
      let given := min l.amount b
      let r := takeLots reach (b - given) rest
      ({ l with amount := given } :: r.1,
        if given = l.amount then r.2 else { l with amount := l.amount - given } :: r.2)
    else
      let r := takeLots reach b rest
      (r.1, l :: r.2)

/-- A drawdown's split: the granted amount, the paid share, the bonus parts in drawing order, and the lots the card
keeps (R7, R10). -/
structure Split where
  granted : Nat
  paid : Nat
  parts : List Lot
  lotsLeft : List Lot
  deriving DecidableEq, Repr

/-- The reached bonus of a call (R8). -/
def reachedBonus (purse : Purse) (today : Nat) (c : Card) : Nat :=
  sumLots (c.lots.filter (purse.reachesLot today))

/-- The reached paid value of a call (R8). -/
def reachedPaid (purse : Purse) (c : Card) : Nat := if purse.reachesPaid then c.paid else 0

/-- The granted amount (R8): all of it, all there is in UP-TO mode, or nothing. -/
def grantedAmount (asked available : Nat) (upTo : Bool) : Nat :=
  if asked ≤ available then asked else if upTo then available else 0

/-- A drawdown call (R7 to R10); none is the result NONE, and the result is REDUCED when less than asked is
granted. -/
def drawdown (today : Nat) (c : Card) (asked : Nat) (purse : Purse) (order : DrawOrder) (upTo : Bool) :
    Option Split :=
  let paid := reachedPaid purse c
  let bonus := reachedBonus purse today c
  let granted := grantedAmount asked (paid + bonus) upTo
  if granted = 0 then none
  else
    let share := purse.share order granted paid bonus
    let taken := takeLots (purse.reachesLot today) share c.lots
    some ⟨granted, granted - share, taken.1, taken.2⟩

/-- A split taken from its card (R10). -/
def Card.draw (c : Card) (d : Split) : Card := { c with paid := c.paid - d.paid, lots := d.lotsLeft }

/-- A capture's limit (R12). -/
def captureLimit (held tolerance : Nat) : Nat := held * (100 + tolerance) / 100

/-- A hold divided at its capture (R13): the captured paid share and parts, and the paid part and parts left. -/
structure HoldSplit where
  paid : Nat
  parts : List Lot
  paidLeft : Nat
  partsLeft : List Lot
  deriving DecidableEq, Repr

/-- A capture of at most the held total taken from the hold's own parts (R13). -/
def splitHold (h : HoldRecord) (amount : Nat) (order : DrawOrder) : HoldSplit :=
  let share := bonusShare order amount h.paid (sumLots h.parts)
  let taken := takeLots (fun _ => true) share h.parts
  ⟨amount - share, taken.1, h.paid - (amount - share), taken.2⟩

/-- A hold's parts followed by an excess's, a part of the same sponsor and expiry day combined into one (R14). The
combined part keeps the hold part's place: DESIGN CHOICE, R14 names none (log 33). -/
def combineParts (parts extra : List Lot) : List Lot :=
  extra.foldl (fun ps p => if ps.any (sameLot p) then joinLot p ps else ps ++ [p]) parts

end Sys2Proof.Machine
end

