-- ==== Sys2Proof/Machine/HoldPool.lean ====
section
/-! DEFINITION. The Hold Pool and the merchants' positions: placing, freeing and returning a hold (R15, R77 to R81),
resolving a handle (R79), and accruals (R148). -/

namespace Sys2Proof.Machine

/-- One sponsor's entry of a position grown by an amount. -/
def addSponsor (v : Vector Int 8) (s : Fin 8) (x : Int) : Vector Int 8 := v.set s.val (v[s.val] + x)

/-- The bonus drawn of each sponsor grown by that sponsor's parts (R148). -/
def drawParts (v : Vector Int 8) (parts : List Lot) : Vector Int 8 :=
  parts.foldl (fun v p => addSponsor v p.sponsor p.amount) v

/-- The bonus drawn of each sponsor lowered by that sponsor's parts (R148). -/
def undrawParts (v : Vector Int 8) (parts : List Lot) : Vector Int 8 :=
  parts.foldl (fun v p => addSponsor v p.sponsor (-p.amount)) v

/-- One item accrued: a redemption, a capture or a captured member hold (R148). -/
def Position.accrue (p : Position) (amount : Nat) (parts : List Lot) : Position :=
  { p with gross := p.gross + amount, items := p.items + 1, drawn := drawParts p.drawn parts }

/-- One item taken out of the position by a void (R148). -/
def Position.unaccrue (p : Position) (amount : Nat) (parts : List Lot) : Position :=
  { p with gross := p.gross - amount, items := p.items - 1, drawn := undrawParts p.drawn parts }

/-- The gross would leave its range (R149). -/
def Position.wouldExceed (p : Position) (amount : Nat) : Bool := decide (p.gross + amount > positionLimit)

/-- Value that has left a card or hold accrued to a merchant, and moved in the fund totals (R22, R148). -/
def RecordMemory.payMerchant (m : RecordMemory) (index : Nat) (r : Merchant) (paid : Nat) (parts : List Lot) :
    RecordMemory :=
  { m with funds := m.funds.spend paid parts }.setMerchant index
    { r with position := r.position.accrue (paid + sumLots parts) parts }

/-- The lowest-numbered FREE slot (R78). -/
def RecordMemory.freeHoldSlot (m : RecordMemory) : Option Nat :=
  firstIndex (fun i => (m.holdSlot i).record.isNone) holdSlots 0

/-- A hold placed in a FREE slot, and counted at its merchant (R77, R78, R81). -/
def RecordMemory.openHold (m : RecordMemory) (slot : Nat) (h : HoldRecord) (index : Nat) (r : Merchant) :
    RecordMemory :=
  (m.setHoldSlot slot { m.holdSlot slot with record := some h }).setMerchant index
    { r with openHolds := r.openHolds + 1 }

/-- A slot freed: its last end recorded, its generation moved on, its merchant's open hold count lowered (R78). -/
def RecordMemory.freeHold (m : RecordMemory) (slot : Nat) (h : HoldRecord) (cause : EndCause) : RecordMemory :=
  let old := m.holdSlot slot
  let m' := m.setHoldSlot slot
    ⟨(old.generation + 1) % halfSpan, some ⟨old.generation, h.merchant, cause⟩, none⟩
  match m'.findMerchant h.merchant with
  | some (i, r) => m'.setMerchant i { r with openHolds := r.openHolds - 1 }
  | none => m'

/-- A handle taken off a card's hold list (R28). -/
def Card.dropHold (c : Card) (handle : Handle) : Card := { c with holds := c.holds.erase handle }

/-- Held value returned to its card (R15): the memory with the written-off parts in the fund totals, the card with the
rest, and each part's fate. -/
def RecordMemory.returnValue (m : RecordMemory) (c : Card) (paid : Nat) (parts : List Lot) :
    RecordMemory × Card × List (Lot × PartFate) :=
  let placed := placeParts m.today c.lots parts
  ({ m with funds := placed.2.foldl Funds.returnPart m.funds },
    { c with paid := c.paid + paid, lots := placed.1 },
    placed.2)

/-- What a handle resolves to (R79). -/
inductive Resolved where
  | found (h : HoldRecord)
  | tooLate (merchant : Nat)
  | unknown
  deriving DecidableEq, Repr

/-- A handle resolved against its slot (R79). -/
def HoldSlot.resolve (h : HoldSlot) (generation : Nat) : Resolved :=
  match h.record with
  | some r =>
    if h.generation = generation then .found r
    else
      match h.lastEnd with
      | some e => if e.generation = generation ∧ e.cause = .expired then .tooLate e.merchant else .unknown
      | none => .unknown
  | none =>
    match h.lastEnd with
    | some e => if e.generation = generation ∧ e.cause = .expired then .tooLate e.merchant else .unknown
    | none => .unknown

/-- A hold's life in seconds from the life asked, and whether it was clamped (R80). -/
def Product.lifeOf (p : Product) (asked : Nat) : Nat × Bool :=
  if asked = 0 then (p.holdLife, false)
  else if asked < 60 then (60, true)
  else if asked > p.maxHoldLife then (p.maxHoldLife, true)
  else (asked, false)

/-- A redemption that is carried out (R76): the memory, the card as left, and the split. -/
structure Redeemed where
  memory : RecordMemory
  card : Card
  split : Split
  deriving DecidableEq, Repr

/-- Step 8 of a redemption: the drawdown and the position limit (R75, R76). -/
def RecordMemory.redeem (m : RecordMemory) (slot : Slot) (c : Card) (index : Nat) (r : Merchant) (amount : Nat)
    (purse : Purse) (upTo : Bool) : Except DeclineReason Redeemed :=
  match drawdown m.today c amount purse (m.product c.product).order upTo with
  | none => .error .short
  | some d =>
    if r.position.wouldExceed d.granted then .error .positionLimit
    else
      let done := (m.payMerchant index r d.paid d.parts).commit slot (c.draw d)
        (some (.redeem r.id r.period, d.paid, d.parts))
      .ok ⟨done.1, done.2, d⟩

/-- A hold that is placed (R81): the memory, the card before it is written back, the handle and the record. -/
structure Placed where
  memory : RecordMemory
  card : Card
  handle : Handle
  record : HoldRecord
  deriving DecidableEq, Repr

/-- Step 8 of a hold or a tender member: HOLDS-FULL, POOL-FULL, and the drawdown (R80, R91, R92). The card is not yet
written back. -/
def RecordMemory.place (m : RecordMemory) (c : Card) (index : Nat) (r : Merchant) (amount : Nat) (purse : Purse)
    (upTo : Bool) (origin : HoldOrigin) (expires : Nat) : Except DeclineReason Placed :=
  if (m.product c.product).holdsPerCard ≤ c.holds.length then .error .holdsFull
  else
    match m.freeHoldSlot with
    | none => .error .poolFull
    | some slot =>
      match drawdown m.today c amount purse (m.product c.product).order upTo with
      | none => .error .short
      | some d =>
        let record : HoldRecord := ⟨origin, c.number, r.id, d.paid, d.parts, m.clock, expires, r.period⟩
        let handle : Handle := ⟨slot, (m.holdSlot slot).generation⟩
        .ok ⟨m.openHold slot record index r, { c.draw d with holds := c.holds ++ [handle] }, handle, record⟩

end Sys2Proof.Machine
end

