-- ==== Sys2Proof/Machine/Operands.lean ====
section
/-! DEFINITION. Operand forms: the ranges and codes of the request bodies (R198, R199, and the rule of each request).
`none` is an operand the owning block refuses BAD-FIELD. -/

namespace Sys2Proof.Machine

/-- A field that is set or clear holds 1 or 0 (R198). -/
def flagOf (n : Nat) : Option Bool :=
  if n = 0 then some false else if n = 1 then some true else none

/-- A number inside a range. -/
def inRange (least most n : Nat) : Bool := decide (least ≤ n) && decide (n ≤ most)

/-- A sponsor number from 0 to 7. -/
def sponsorOf (n : Nat) : Option (Fin 8) := if h : n < 8 then some ⟨n, h⟩ else none

/-- A purse selector's code and sponsor; the sponsor is read for SPONSOR alone (R6, R199). -/
def purseOf (selector sponsor : Nat) : Option Purse :=
  match selector with
  | 0 => some .default
  | 1 => some .paidOnly
  | 2 => some .bonusOnly
  | 3 => (sponsorOf sponsor).map .sponsor
  | _ => none

/-- The operands of a debit attempt (R75). -/
structure DebitOperands where
  amount : Nat
  purse : Purse
  allowPartial : Bool
  deriving DecidableEq, Repr

/-- REDEEM's and HOLD's amount, selector and allow-partial operand (R75). -/
def debitOf (amount selector sponsor allowPartial : Nat) : Option DebitOperands :=
  if inRange 1 maxAmount amount then
    match purseOf selector sponsor, flagOf allowPartial with
    | some purse, some flag => some ⟨amount, purse, flag⟩
    | _, _ => none
  else none

/-- ISSUE's bonus operands: absent (255) without a range check of the others, or a sponsor with an amount from 1 to
10,000,000 and a life from 0 to 730 (R38, R198). -/
def issueBonusOf (sponsor life bonus : Nat) : Option (Option (Fin 8 × Nat × Nat)) :=
  if sponsor = 255 then some none
  else
    match sponsorOf sponsor with
    | some s => if inRange 1 maxAmount bonus && inRange 0 730 life then some (some (s, life, bonus)) else none
    | none => none

/-- The acceptance mode codes (R198, code 27). -/
def modeOf : Nat → Option AcceptanceMode
  | 0 => some .opened
  | 1 => some .mapped
  | 2 => some .guarded
  | _ => none

/-- The drawdown order codes (R198, code 27). -/
def orderOf : Nat → Option DrawOrder
  | 0 => some .bonusFirst
  | 1 => some .paidFirst
  | 2 => some .proRata
  | _ => none

/-- The numeric ranges of R52, and the two orders between fields of R54. -/
def productInRange (p : ProductOperands) : Bool :=
  inRange 1 maxAmount p.maxBalance && inRange 1 maxAmount p.minLoad && inRange p.minLoad maxAmount p.maxLoad &&
    inRange 1 3650 p.cardLife && inRange 1 730 p.bonusLife && inRange 1 365 p.refundLife &&
    inRange 60 604800 p.holdLife && inRange p.holdLife 604800 p.maxHoldLife && inRange 1 8 p.holdsPerCard &&
    inRange 0 25 p.tolerance

/-- The product record a DEFINE-PRODUCT's fields spell, ACTIVE with issued count 0 (R52, R54). -/
def productOf (p : ProductOperands) : Option Product :=
  if productInRange p then
    match modeOf p.mode, orderOf p.order, flagOf p.reload, flagOf p.allowPartial with
    | some mode, some order, some reload, some allowPartial =>
      some
        { state := .active
          mode := mode
          categoryMap := BitVec.ofNat 64 p.categoryMap
          order := order
          maxBalance := p.maxBalance
          minLoad := p.minLoad
          maxLoad := p.maxLoad
          reload := reload
          allowPartial := allowPartial
          cardLife := p.cardLife
          bonusLife := p.bonusLife
          refundLife := p.refundLife
          holdLife := p.holdLife
          maxHoldLife := p.maxHoldLife
          holdsPerCard := p.holdsPerCard
          tolerance := p.tolerance
          issued := 0 }
    | _, _, _, _ => none
  else none

/-- A product or category test: 255 is ANY, 0 to 63 a value; an invert option set on ANY is refused (R137, R198). -/
def indexTestOf (n invert : Nat) : Option FieldTest :=
  match flagOf invert with
  | none => none
  | some inv =>
    if n = 255 then (if inv then none else some ⟨none, false⟩)
    else if n < 64 then some ⟨some n, inv⟩
    else none

/-- A merchant test: the id is ignored when ANY is set (R137, R198). -/
def merchantTestOf (any merchant invert : Nat) : Option FieldTest :=
  match flagOf any, flagOf invert with
  | some true, some true => none
  | some true, some false => some ⟨none, false⟩
  | some false, some inv => some ⟨some merchant, inv⟩
  | _, _ => none

/-- The four tests of a watch condition (R130, R137). -/
def conditionOf (c : ConditionOperands) : Option Condition :=
  match indexTestOf c.product c.productInvert, indexTestOf c.category c.categoryInvert,
    merchantTestOf c.anyMerchant c.merchant c.merchantInvert with
  | some product, some category, some merchant =>
    if c.threshold ≤ maxAmount then some ⟨product, category, merchant, c.threshold⟩ else none
  | _, _, _ => none

/-- The merchant relation codes (R198). -/
def relationOf : Nat → Option Relation
  | 0 => some .any
  | 1 => some .same
  | 2 => some .other
  | _ => none

/-- The watch action codes (R198, code 42). -/
def actionOf : Nat → Option WatchAction
  | 0 => some .freeze
  | 1 => some .refer
  | 2 => some .mark
  | _ => none

/-- The watch mode codes (R198, code 42). -/
def watchModeOf : Nat → Option WatchMode
  | 0 => some .oneShot
  | 1 => some .rearm
  | _ => none

/-- The watch entry a DEFINE-WATCH's fields spell, in the state the enable operand gives (R137). The relation of the
level-1 condition is ignored (R198). -/
def watchOf (w : WatchOperands) : Option WatchEntry :=
  match conditionOf w.level1, conditionOf w.level2, relationOf w.level2.relation, actionOf w.action,
    watchModeOf w.mode, flagOf w.enable with
  | some level1, some level2, some relation, some action, some mode, some enable =>
    if inRange 1 86400 w.window then
      some ⟨if enable then .waitFirst else .disabled, level1, level2, relation, w.window, action, mode⟩
    else none
  | _, _, _, _, _, _ => none

/-- A TENDER member's condition: ALWAYS, or WHILE-DUE (R90). -/
inductive MemberCondition where
  | always
  | whileDue
  deriving DecidableEq, Repr

/-- A TENDER member (R90). -/
structure Member where
  card : Nat
  condition : MemberCondition
  purse : Purse
  deriving DecidableEq, Repr

/-- A member's codes (R199). -/
def memberOf (p : MemberOperands) : Option Member :=
  match flagOf p.condition, purseOf p.selector p.sponsor with
  | some whileDue, some purse => some ⟨p.card, if whileDue then .whileDue else .always, purse⟩
  | _, _ => none

/-- Every entry of a list converted, none when one is refused. -/
def convertAll {α β : Type} (f : α → Option β) : List α → Option (List β)
  | [] => some []
  | a :: rest =>
    match f a, convertAll f rest with
    | some b, some bs => some (b :: bs)
    | _, _ => none

/-- A REFUND part: sponsor 0 to 7, amount 1 to 10,000,000 (R96). -/
def refundPartOf (p : PartOperands) : Option (Fin 8 × Nat) :=
  if inRange 1 maxAmount p.amount then (sponsorOf p.sponsor).map fun s => (s, p.amount) else none

/-- No sponsor is named twice. -/
def distinctSponsors : List (Fin 8 × Nat) → Bool
  | [] => true
  | p :: rest => rest.all (fun q => decide (q.1 ≠ p.1)) && distinctSponsors rest

/-- REFUND's parts with their total tested (R96): the list's entries and the refund total. -/
def refundOf (paid count : Nat) (parts : List PartOperands) : Option (List (Fin 8 × Nat) × Nat) :=
  if inRange 0 4 count && inRange 0 maxAmount paid then
    match convertAll refundPartOf parts with
    | some ps =>
      let total := paid + (ps.map Prod.snd).sum
      if distinctSponsors ps && inRange 1 maxAmount total then some (ps, total) else none
    | none => none
  else none

/-- A fee tier's fields (R151). -/
def tierOf (rate itemFee minFee maxFee : Nat) : Option Tier :=
  if inRange 0 1000 rate && inRange 0 1000 itemFee && inRange 0 100000 minFee && inRange 0 10000000 maxFee &&
      (maxFee == 0 || decide (minFee ≤ maxFee)) then
    some ⟨rate, itemFee, minFee, maxFee⟩
  else none

/-- START-PAYOUT's mode codes (R198, code 45). -/
def runModeOf : Nat → Option RunMode
  | 0 => some .step
  | 1 => some .burst
  | _ => none

end Sys2Proof.Machine
end

