-- ==== Sys2Proof/Machine/Watch.lean ====
section
/-! DEFINITION. The Velocity Watch (R129 to R139): step 7 of the debit evaluation sequence, and the requests and the
window expiry that change its entries. -/

namespace Sys2Proof.Machine

/-- A test of a condition passes (R130). -/
def FieldTest.passes (t : FieldTest) (n : Nat) : Bool :=
  match t.value with
  | none => true
  | some v => (v == n) != t.invert

/-- What the watch reads of a debit attempt (R130). -/
structure WatchedAttempt where
  card : Nat
  product : Nat
  category : Nat
  merchant : Nat
  amount : Nat
  now : Nat
  deriving DecidableEq, Repr

/-- The four tests of a condition pass (R130). -/
def Condition.meets (c : Condition) (a : WatchedAttempt) : Bool :=
  c.product.passes a.product && c.category.passes a.category && c.merchant.passes a.merchant &&
    decide (c.threshold ≤ a.amount)

/-- The merchant relation of level 2 passes (R130). -/
def Relation.passes (r : Relation) (attempt arming : Nat) : Bool :=
  match r with
  | .any => true
  | .same => attempt == arming
  | .other => attempt != arming

/-- The card armed on a list (R131): it joins at the end, the oldest dropped when four are listed, or keeps its place
with a new merchant and time. -/
def armCard (a : WatchedAttempt) (list : List Armed) : List Armed :=
  if list.any (fun e => e.card == a.card) then
    list.map fun e => if e.card = a.card then ⟨a.card, a.merchant, a.now⟩ else e
  else if list.length < armedPlaces then list ++ [⟨a.card, a.merchant, a.now⟩]
  else list.drop 1 ++ [⟨a.card, a.merchant, a.now⟩]

/-- The state of an enabled entry with a list: WAIT-SECOND exactly while the list is not empty (R129). -/
def waitState (list : List Armed) : WatchState := if list.isEmpty then .waitFirst else .waitSecond

/-- A listed card's window has run out: the reading has passed its arm time plus the window (R136). -/
def Armed.runOut (e : Armed) (window now : Nat) : Bool := decide (e.time + window < now)

/-- One entry's evaluation for an attempt. -/
structure EntryResult where
  state : WatchState
  list : List Armed
  triggered : Bool
  deriving DecidableEq, Repr

/-- One entry evaluated (R132 to R134): run-out cards leave, then the level-2 test on the list as it then stands, then
the level-1 test. -/
def WatchEntry.evaluate (w : WatchEntry) (a : WatchedAttempt) (list : List Armed) : EntryResult :=
  if w.state = .disabled ∨ w.state = .triggered then ⟨w.state, list, false⟩
  else
    let live := list.filter fun e => !e.runOut w.window a.now
    let triggered := live.any fun e =>
      e.card == a.card && w.level2.meets a && w.relation.passes a.merchant e.merchant
    if triggered && decide (w.mode = .oneShot) then ⟨.triggered, [], true⟩
    else
      let rest := if triggered then live.filter (fun e => e.card != a.card) else live
      let armedList := if w.level1.meets a then armCard a rest else rest
      ⟨waitState armedList, armedList, triggered⟩

/-- One entry of the table evaluated, and its trigger added to those before it. -/
def State.watchOne (a : WatchedAttempt) (acc : State × List (Nat × WatchAction)) (i : Nat) :
    State × List (Nat × WatchAction) :=
  let w := acc.1.memory.watchEntry i
  let r := w.evaluate a (acc.1.armedList i)
  ({ acc.1 with memory := acc.1.memory.setWatchEntry i { w with state := r.state } }.setArmedList i r.list,
    if r.triggered then acc.2 ++ [(i, w.action)] else acc.2)

/-- Step 7 (R132): every entry in number order; gives the triggered entries with their actions, lowest first. -/
def State.watchAttempt (s : State) (a : WatchedAttempt) : State × List (Nat × WatchAction) :=
  (List.range watchEntries).foldl (State.watchOne a) (s, [])

/-- The lowest triggered entry with an action (R135). -/
def lowestWith (action : WatchAction) (triggers : List (Nat × WatchAction)) : Option Nat :=
  (triggers.find? fun t => t.2 == action).map Prod.fst

/-- A card off an entry's list; an entry left in WAIT-SECOND with an empty list goes to WAIT-FIRST (R131). -/
def State.disarm (s : State) (card i : Nat) : State :=
  let list := (s.armedList i).filter fun e => e.card != card
  let w := s.memory.watchEntry i
  let state := if w.state = .waitSecond ∧ list.isEmpty then .waitFirst else w.state
  { s with memory := s.memory.setWatchEntry i { w with state := state } }.setArmedList i list

/-- A card off every list that holds it (R47, R131). -/
def State.disarmAll (s : State) (card : Nat) : State :=
  (List.range watchEntries).foldl
    (fun s i => if (s.armedList i).any (fun e => e.card == card) then s.disarm card i else s) s

/-- DEFINE-WATCH (R137). -/
def defineWatchChange (entry : Nat) (fields : WatchOperands) : Change := fun s =>
  if s.engine = .unformatted then refuse .wrongState s
  else
    match watchOf fields with
    | some w =>
      if entry < watchEntries then
        ({ s with memory := s.memory.setWatchEntry entry w }.setArmedList entry [],
          Reply.done (.watchDefined (s.memory.watchEntry entry).state (s.armedList entry).length))
      else refuse .badField s
    | none => refuse .badField s

def execDefineWatch (tag entry : Nat) (fields : WatchOperands) (s : State) : Host.Outcome State Fault Refusal :=
  answerRequest (.defineWatch tag entry fields) 42 tag (defineWatchChange entry fields) s

/-- REARM-WATCH (R138). -/
def rearmWatchChange (entry : Nat) : Change := fun s =>
  if s.engine = .unformatted then refuse .wrongState s
  else if watchEntries ≤ entry then refuse .badField s
  else
    let w := s.memory.watchEntry entry
    match w.state with
    | .disabled => refuse .wrongState s
    | .triggered =>
      ({ s with memory := s.memory.setWatchEntry entry { w with state := .waitFirst } }.setArmedList entry [],
        Reply.done .empty)
    | .waitFirst | .waitSecond => (s, Reply.done .empty)

def execRearmWatch (tag entry : Nat) (s : State) : Host.Outcome State Fault Refusal :=
  answerRequest (.rearmWatch tag entry) 43 tag (rearmWatchChange entry) s

/-- INQUIRE-WATCH (R139). -/
def inquireWatchChange (entry : Nat) : Change := fun s =>
  if s.engine = .unformatted then refuse .wrongState s
  else if watchEntries ≤ entry then refuse .badField s
  else
    let w := s.memory.watchEntry entry
    (s, Reply.done (.watch w ((s.armedList entry).map fun e => (e, e.time + w.window))))

def execInquireWatch (tag entry : Nat) (s : State) : Host.Outcome State Fault Refusal :=
  answerRequest (.inquireWatch tag entry) 44 tag (inquireWatchChange entry) s

/-- The time at which a listed card's window runs out, for every listed card whose reading has passed it (R136). -/
def State.dueWindows (s : State) : List (Nat × Nat × Nat) :=
  (List.range watchEntries).flatMap fun i =>
    let window := (s.memory.watchEntry i).window
    ((s.armedList i).filter fun e => e.runOut window s.memory.clock).map fun e => (e.time + window, i, e.card)

/-- The Velocity Watch may take this card's window expiry next: it is due, and none due falls earlier (R136, R176). -/
def State.windowDue (s : State) (entry card : Nat) : Bool :=
  s.dueWindows.any fun d =>
    d.2.1 == entry && d.2.2 == card && s.dueWindows.all fun e => decide (d.1 ≤ e.1)

/-- WINDOW_EXPIRY (R136): the card leaves the list, and an emptied entry returns to WAIT-FIRST. -/
def execWindowExpiry (entry card : Nat) (s : State) : Host.Outcome State Fault Refusal :=
  whenPowered s fun s =>
    if s.engine ≠ .unformatted ∧ s.windowDue entry card then s.disarm card entry else s

end Sys2Proof.Machine
end

