-- ==== Sys2Proof/Machine/ReferralQueue.lean ====
section
/-! DEFINITION. The Referral Queue's own operations (R112 to R115, R122, R123): numbers, entries, lapses and their
notices. -/

namespace Sys2Proof.Machine

/-- The number after a referral number: 65,535 is followed by 1 (R114). -/
def numberAfter (n : Nat) : Nat := if 65535 ≤ n then 1 else n + 1

/-- The first number from `n` on that no entry holds, at most `fuel` passed over (R114). -/
def freshNumber (entries : List Referral) : Nat → Nat → Nat
  | 0, n => n
  | fuel + 1, n =>
    if entries.any (fun e => e.number == n) then freshNumber entries fuel (numberAfter n) else n

/-- A referral made (R114, R115): the queue with the OPEN entry at its end and the next number moved on; none when 32
entries stand. The card's flag is the caller's. -/
def State.makeReferral (s : State) (card tag : Nat) (kind : ReferralKind) : Option (State × Referral) :=
  if referralPlaces ≤ s.referrals.length then none
  else
    let number := freshNumber s.referrals referralPlaces s.memory.nextReferral
    let entry : Referral :=
      ⟨number, kind, tag, card, s.memory.clock, (cappedTime s.memory.clock s.memory.referralTime).1, .opened⟩
    some
      ({ s with
          referrals := s.referrals ++ [entry]
          lapseRecord := s.lapseRecord.filter fun n => n != number
          memory := { s.memory with nextReferral := numberAfter number } },
        entry)

/-- The entry of a number (R117). -/
def State.findReferral (s : State) (number : Nat) : Option Referral :=
  s.referrals.find? fun e => e.number == number

/-- An entry taken out of the queue. -/
def State.dropReferral (s : State) (number : Nat) : State :=
  { s with referrals := s.referrals.filter fun e => e.number != number }

/-- A number joins the lapse record; a 33rd drops the oldest (R113). -/
def lapseRecordWith (record : List Nat) (number : Nat) : List Nat :=
  (if lapsePlaces ≤ record.length then record.drop 1 else record) ++ [number]

/-- A card changed in place, when it is present. -/
def RecordMemory.mapCard (m : RecordMemory) (number : Nat) (f : Card → Card) : RecordMemory :=
  match m.findCard number with
  | some (slot, c) => m.putCard slot (f c)
  | none => m

/-- A card's referral-open flag cleared (R113, R123). -/
def clearReferralOpen (c : Card) : Card := { c with referralOpen := false }

/-- What an UNLOCK referral's DENY or lapse does to the lock fields (R69). -/
def denyUnlock (c : Card) : Card := { c with attemptPending := false }

/-- What an UNLOCK referral's APPROVE does to the lock fields (R69). -/
def approveUnlock (c : Card) : Card :=
  { c with softLocked := false, attemptPending := false, blockedCount := 0, lastBlocked := none }

/-- An OPEN entry lapsed with its default decision DENY (R122): it becomes LAPSED, and an UNLOCK entry's card loses
attempt-pending. -/
def State.lapseEntry (s : State) (e : Referral) : State :=
  { s with
    referrals := s.referrals.map fun r => if r.number = e.number then { r with state := .lapsed } else r
    memory := if e.kind = .unlock then s.memory.mapCard e.card denyUnlock else s.memory }

/-- The fields of a LAPSE-NOTICE that its kind gives: the watched kind, merchant and amount (R201). -/
def ReferralKind.noticeFields : ReferralKind → NoticeKind × Nat × Nat
  | .debit t => (.debit, t.merchant, t.amount)
  | .hold t _ => (.hold, t.merchant, t.amount)
  | .unlock => (.unlock, 0, 0)
  | .watch .redeem t _ => (.watchRedeem, t.merchant, t.amount)
  | .watch (.hold _) t _ => (.watchHold, t.merchant, t.amount)

/-- A LAPSED entry's notice placed (R123): the entry leaves the queue, its number joins the lapse record, and the
card's referral-open flag is cleared, in the change that enters the notice. -/
def State.placeLapseNotice (s : State) (e : Referral) : State :=
  let f := e.kind.noticeFields
  { s.dropReferral e.number with
    lapseRecord := lapseRecordWith s.lapseRecord e.number
    memory := s.memory.mapCard e.card clearReferralOpen }.enterNotice 65534
      (.lapseNotice e.number f.1 e.tag e.card f.2.1 f.2.2)

/-- A LAPSED entry stands on the waiting list (R188). -/
def State.lapsedWaits (s : State) : Bool :=
  s.waiting.any fun p =>
    match p with
    | .entry _ => true
    | _ => false

/-- A LAPSED entry offers its notice: it enters when a slot is free and no entry lapsed before it still waits, so that the
notices come in the order of the lapses; otherwise the entry joins the waiting list (R123, R188, log 20). -/
def State.offerLapse (s : State) (e : Referral) : State :=
  if s.slotFree && !s.lapsedWaits then s.placeLapseNotice e else s.wait (.entry e.number)

end Sys2Proof.Machine
end

