-- ==== Sys2Proof/Machine/Debits.lean ====
section
/-! DEFINITION. The debit evaluation sequence (R60 to R64, R72 to R74), and REDEEM and HOLD. -/

namespace Sys2Proof.Machine

/-- The result of acceptance (R60). -/
inductive Acceptance where
  | locally
  | refer
  | category
  deriving DecidableEq, Repr

/-- Acceptance (R60, R61): the method letter and its result. A TENDER member reached with remainder 0 compares 0 with the
floor, so that even a floor of 0 takes it LOCAL: DESIGN CHOICE, R61's two sentences part there (log 34). -/
def acceptance (p : Product) (r : Merchant) (amount : Nat) : Method × Acceptance :=
  let inMap := p.categoryMap.getLsbD r.category
  match p.mode with
  | .opened => if r.trust = 3 then (.a, .locally) else (.b, .refer)
  | .mapped => if inMap then (.c, .locally) else (.d, .category)
  | .guarded =>
    if inMap then
      if r.trust = 3 then (.e, .locally)
      else if amount ≤ r.floor then (.e, .locally)
      else (.e, .refer)
    else if r.trust = 3 then (.f, .refer)
    else (.f, .category)

/-- A blocked attempt counted on a locked card (R64), and whether the count was at its top. -/
def Card.block (c : Card) (merchant : Nat) : Card × Bool :=
  ({ c with
      attemptPending := true
      blockedCount := min blockedCap (c.blockedCount + 1)
      lastBlocked := some merchant },
    decide (blockedCap ≤ c.blockedCount))

/-- How an attempt stands after steps 1 to 7: ended, to be referred (by a watch entry, or by acceptance), or on to
step 8. -/
inductive Verdict where
  | declined (reason : DeclineReason)
  | refer (entry : Option Nat)
  | proceed
  deriving DecidableEq, Repr

/-- An attempt judged by steps 1 to 7: the state and card with the changes those steps made (R74). -/
structure Judged where
  state : State
  card : Card
  verdict : Verdict
  method : Option Method
  mark : Option Nat
  freezer : Option Nat
  clamped : Bool
  deriving DecidableEq, Repr

/-- Steps 1 to 4 on a touched card (R72, R119): none when they pass. No merchant record, or a suspended one, ends the
attempt at step 4. -/
def standing (c : Card) (r : Option Merchant) : Option DeclineReason :=
  if c.base = .expired then some .cardExpired
  else if c.frozen then some .cardFrozen
  else if c.softLocked then some .cardLocked
  else
    match r with
    | none => some .merchantSuspended
    | some r => if r.state = .suspended then some .merchantSuspended else none

/-- An attempt ended before step 6: at step 3 the blocked attempt is counted (R64). -/
def endedEarly (s : State) (c : Card) (merchant : Nat) (reason : DeclineReason) : Judged :=
  if reason = .cardLocked then
    let b := c.block merchant
    ⟨s, b.1, .declined reason, none, none, none, b.2⟩
  else ⟨s, c, .declined reason, none, none, none, false⟩

/-- Step 7 and the results it hands on (R73, R135). -/
def judgeWatch (s : State) (c : Card) (r : Merchant) (amount : Nat) (method : Method) (result : Acceptance) :
    Judged :=
  let w := s.watchAttempt ⟨c.number, c.product, r.category, r.id, amount, s.memory.clock⟩
  let mark := lowestWith .mark w.2
  match lowestWith .freeze w.2 with
  | some entry =>
    ⟨w.1, { c with frozen := true }, .declined .watchFrozen, some method, mark, some entry, false⟩
  | none =>
    match lowestWith .refer w.2 with
    | some entry => ⟨w.1, c, .refer (some entry), some method, mark, none, false⟩
    | none =>
      ⟨w.1, c, if result = .refer then .refer none else .proceed, some method, mark, none, false⟩

/-- Steps 1 to 7 of the debit evaluation sequence on a touched card (R72). -/
def judge (s : State) (c : Card) (r : Merchant) (amount : Nat) : Judged :=
  match standing c (some r) with
  | some reason => endedEarly s c r.id reason
  | none =>
    if c.referralOpen then ⟨s, c, .declined .cardBusy, none, none, none, false⟩
    else
      let a := acceptance (s.memory.product c.product) r amount
      if a.2 = .category then ⟨s, c, .declined .category, some a.1, none, none, false⟩
      else judgeWatch s c r amount a.1 a.2

/-- A state with its Record Memory replaced. -/
def State.withMemory (s : State) (m : RecordMemory) : State := { s with memory := m }

/-- An attempt that ends in a decline (R74): the card written back with what the steps before the end made of it. -/
def declineAttempt (s : State) (slot : Slot) (c : Card) (wrote : Bool) (reason : DeclineReason)
    (method : Option Method) (mark freezer : Option Nat) (clamped : Bool) :
    State × AnswerOutcome × AnswerFlags × AttemptBody :=
  let r := s.memory.settle slot c wrote
  (s.withMemory r.1, .declined reason,
    { zeroOnly r.1 c with clamped := clamped, watch := mark.isSome },
    .declined method mark freezer r.2)

/-- A referred attempt (R73, R115): an entry made and the card's flag set, or DECLINED REFER-FULL. -/
def referAttempt (s : State) (slot : Slot) (c : Card) (wrote : Bool) (tag : Nat) (kind : ReferralKind)
    (method : Option Method) (mark : Option Nat) : State × AnswerOutcome × AnswerFlags × AttemptBody :=
  match s.makeReferral c.number tag kind with
  | none => declineAttempt s slot c wrote .referFull method mark none false
  | some (s', e) =>
    let r := s'.memory.settle slot { c with referralOpen := true } wrote
    (s'.withMemory r.1, .referred, { zeroOnly r.1 c with watch := mark.isSome },
      .referred e.number e.kind e.deadline mark r.2)

/-- Step 8 of a redemption with its answer (R75, R76); also what an approval performs (R119). -/
def finishRedeem (s : State) (slot : Slot) (c : Card) (wrote : Bool) (index : Nat) (r : Merchant) (amount : Nat)
    (purse : Purse) (upTo : Bool) (method : Option Method) (mark : Option Nat) :
    State × AnswerOutcome × AnswerFlags × AttemptBody :=
  match s.memory.redeem slot c index r amount purse upTo with
  | .error reason => declineAttempt s slot c wrote reason method mark none false
  | .ok d =>
    (s.withMemory d.memory, doneOrPart (decide (d.split.granted < amount)),
      splitFlags (zeroFlag d.memory d.card) (decide (d.split.granted < amount)) false mark.isSome d.split.parts,
      .redeemed d.split.granted d.split.paid d.split.parts d.card.counter d.card.free method
        (amount - d.split.granted) mark r.period)

/-- Step 8 of a hold with its answer (R80, R81); also what an approval performs (R120). A decline carries
no CLAMPED, though the life asked was clamped: DEDUCED (log 18). -/
def finishHold (s : State) (slot : Slot) (c : Card) (wrote : Bool) (index : Nat) (r : Merchant) (amount life : Nat)
    (purse : Purse) (upTo : Bool) (method : Option Method) (mark : Option Nat) :
    State × AnswerOutcome × AnswerFlags × AttemptBody :=
  let seconds := (s.memory.product c.product).lifeOf life
  let expires := cappedTime s.memory.clock seconds.1
  match s.memory.place c index r amount purse upTo .hold expires.1 with
  | .error reason => declineAttempt s slot c wrote reason method mark none false
  | .ok p =>
    let done := p.memory.commit slot p.card none
    (s.withMemory done.1, doneOrPart (decide (p.record.total < amount)),
      splitFlags (zeroFlag done.1 done.2) (decide (p.record.total < amount)) (seconds.2 || expires.2) mark.isSome
        p.record.parts,
      .held p.handle p.record.total p.record.paid p.record.parts expires.1 done.2.counter method
        (amount - p.record.total) mark)

/-- A REDEEM or HOLD taken on its card and merchant (R72 to R76, R80): touched, judged, and performed, referred or
declined. -/
def attemptDebit (s : State) (tag : Nat) (slot : Slot) (c : Card) (index : Nat) (r : Merchant) (d : DebitOperands)
    (request : Attempted) : State × AnswerOutcome × AnswerFlags × AttemptBody :=
  let t := s.memory.touch c
  let j := judge (s.withMemory t.memory) t.card r d.amount
  match j.verdict with
  | .declined reason => declineAttempt j.state slot j.card t.wrote reason j.method j.mark j.freezer j.clamped
  | .refer entry =>
    let terms : Terms := ⟨r.id, d.amount, d.purse, d.allowPartial, j.method.getD .a⟩
    let kind : ReferralKind :=
      match entry, request with
      | some i, request => .watch request terms i
      | none, .redeem => .debit terms
      | none, .hold life => .hold terms life
    referAttempt j.state slot j.card t.wrote tag kind j.method j.mark
  | .proceed =>
    let upTo := d.allowPartial && (j.state.memory.product j.card.product).allowPartial
    match request with
    | .redeem => finishRedeem j.state slot j.card t.wrote index r d.amount d.purse upTo j.method j.mark
    | .hold life => finishHold j.state slot j.card t.wrote index r d.amount life d.purse upTo j.method j.mark

/-- The checks of R72 before the card is touched, for REDEEM and HOLD. -/
def debitChange (tag card merchant : Nat) (operands : Option DebitOperands) (request : Attempted) : Change := fun s =>
  if s.engine ≠ .trading then refuse .wrongState s
  else
    match operands with
    | none => refuse .badField s
    | some d =>
      if !wellFormedNumber card then refuse .badNumber s
      else
        match s.memory.findMerchant merchant with
        | none => refuse .unknownMerchant s
        | some (index, r) =>
          match s.memory.findCard card with
          | none => refuse .unknownCard s
          | some (slot, c) =>
            let a := attemptDebit s tag slot c index r d request
            (a.1, ⟨a.2.1, a.2.2.1, .attempt a.2.2.2⟩)

/-- REDEEM (R75, R76). -/
def execRedeem (tag card merchant amount selector sponsor allowPartial : Nat) (s : State) :
    Host.Outcome State Fault Refusal :=
  answerRequest (.redeem tag card merchant amount selector sponsor allowPartial) 16 tag
    (naming [card] (debitChange tag card merchant (debitOf amount selector sponsor allowPartial) .redeem)) s

/-- HOLD (R80, R81). -/
def execHold (tag card merchant amount selector sponsor allowPartial life : Nat) (s : State) :
    Host.Outcome State Fault Refusal :=
  answerRequest (.hold tag card merchant amount selector sponsor allowPartial life) 17 tag
    (naming [card] (debitChange tag card merchant (debitOf amount selector sponsor allowPartial) (.hold life))) s

end Sys2Proof.Machine
end

