-- ==== Sys2Proof/Machine/Referrals.lean ====
section
/-! DEFINITION. DECIDE, SET-REFERRAL-TIME, INQUIRE-REFERRAL, the lapse and its notice (R116 to R127). -/

namespace Sys2Proof.Machine

/-! ### DECIDE (R117 to R121) -/

/-- The decision codes (R198, code 24): 0 APPROVE, 1 DENY; true is APPROVE. -/
def decisionOf : Nat → Option Bool
  | 0 => some true
  | 1 => some false
  | _ => none

/-- The DECIDE answer: the number, kind and original tag with the referred request's own result (R117). -/
def decidedReply (e : Referral) (r : AnswerOutcome × AnswerFlags × AttemptBody) : Reply :=
  ⟨r.1, r.2.1, .decided e.number e.kind e.tag r.2.2⟩

/-- A DENY (R118): no touch; the card's referral-open flag is cleared, and an UNLOCK entry's attempt-pending. -/
def denyEntry (s : State) (e : Referral) (slot : Slot) (c : Card) : State × Reply :=
  let c' := clearReferralOpen (if e.kind = .unlock then denyUnlock c else c)
  let m := s.memory.putCard slot c'
  ((s.dropReferral e.number).withMemory m,
    decidedReply e (.declined .denied, zeroOnly m c', .declined none none none none))

/-- An approved UNLOCK (R121): no touch. -/
def approveUnlockEntry (s : State) (e : Referral) (slot : Slot) (c : Card) : State × Reply :=
  let c' := clearReferralOpen (approveUnlock c)
  let m := s.memory.putCard slot c'
  ((s.dropReferral e.number).withMemory m, decidedReply e (.done, zeroOnly m c', .unlocked))

/-- An approved debit or hold (R119, R120): the touched card judged by steps 1 to 4, step 5 passed and steps 6 and 7
not run, then step 8 as it stands now. -/
def approveDebit (s0 : State) (slot : Slot) (c0 : Card) (terms : Terms) (request : Attempted) :
    State × AnswerOutcome × AnswerFlags × AttemptBody :=
  let t := s0.memory.touch c0
  let s := s0.withMemory t.memory
  let c := clearReferralOpen t.card
  let found := s.memory.findMerchant terms.merchant
  match standing c (found.map Prod.snd), found with
  | none, some (index, r) =>
    let upTo := terms.allowPartial && (s.memory.product c.product).allowPartial
    match request with
    | .redeem => finishRedeem s slot c t.wrote index r terms.amount terms.purse upTo (some terms.method) none
    | .hold life => finishHold s slot c t.wrote index r terms.amount life terms.purse upTo (some terms.method) none
  | reason, _ =>
    let j := endedEarly s c terms.merchant (reason.getD .merchantSuspended)
    declineAttempt j.state slot j.card t.wrote (reason.getD .merchantSuspended) (some terms.method) none none
      j.clamped

/-- An APPROVE, by the entry's kind (R119 to R121). -/
def approveEntry (s : State) (e : Referral) (slot : Slot) (c : Card) : State × Reply :=
  let debit := fun terms request =>
    let r := approveDebit (s.dropReferral e.number) slot c terms request
    (r.1, decidedReply e r.2)
  match e.kind with
  | .debit terms => debit terms .redeem
  | .hold terms life => debit terms (.hold life)
  | .watch request terms _ => debit terms request
  | .unlock => approveUnlockEntry s e slot c

/-- DECIDE (R117). An OPEN entry's card is present (R125); a state in which it is not is answered UNKNOWN-CARD
(log 26). -/
def decideChange (number decision : Nat) : Change := fun s =>
  if s.engine = .unformatted then refuse .wrongState s
  else if number = 0 then refuse .badField s
  else
    match decisionOf decision with
    | none => refuse .badField s
    | some approve =>
      match s.findReferral number with
      | some e =>
        match e.state with
        | .lapsed => (s, ⟨.declined .tooLate, AnswerFlags.none, .empty⟩)
        | .opened =>
          match s.memory.findCard e.card with
          | some (slot, c) => if approve then approveEntry s e slot c else denyEntry s e slot c
          | none => refuse .unknownCard s
      | none =>
        if s.lapseRecord.contains number then (s, ⟨.declined .tooLate, AnswerFlags.none, .empty⟩)
        else refuse .unknownReferral s

def execDecide (tag number decision : Nat) (s : State) : Host.Outcome State Fault Refusal :=
  answerRequest (.decide tag number decision) 24 tag (decideChange number decision) s

/-! ### SET-REFERRAL-TIME and INQUIRE-REFERRAL (R116, R127) -/

/-- SET-REFERRAL-TIME (R116). -/
def setReferralTimeChange (seconds : Nat) : Change := fun s =>
  if s.engine = .unformatted then refuse .wrongState s
  else if !inRange 5 300 seconds then refuse .badField s
  else
    (s.withMemory { s.memory with referralTime := seconds },
      Reply.done (.referralTime s.memory.referralTime seconds))

def execSetReferralTime (tag seconds : Nat) (s : State) : Host.Outcome State Fault Refusal :=
  answerRequest (.setReferralTime tag seconds) 25 tag (setReferralTimeChange seconds) s

/-- How many entries stand in a state (R127). -/
def State.countReferrals (s : State) (st : ReferralState) : Nat :=
  (s.referrals.filter fun e => decide (e.state = st)).length

/-- INQUIRE-REFERRAL (R127). -/
def inquireReferralChange (number : Nat) : Change := fun s =>
  if s.engine = .unformatted then refuse .wrongState s
  else if number = 0 then
    (s, Reply.done (.referralSummary (s.countReferrals .opened) (s.countReferrals .lapsed)
      (s.referrals.map Referral.number) s.memory.referralTime s.memory.nextReferral))
  else
    match s.findReferral number with
    | some e =>
      let flags :=
        match s.memory.findCard e.card with
        | some (_, c) => zeroOnly s.memory c
        | none => AnswerFlags.none
      (s, ⟨.done, flags, .referral e⟩)
    | none =>
      if s.lapseRecord.contains number then (s, ⟨.declined .tooLate, AnswerFlags.none, .empty⟩)
      else refuse .unknownReferral s

def execInquireReferral (tag number : Nat) (s : State) : Host.Outcome State Fault Refusal :=
  answerRequest (.inquireReferral tag number) 26 tag (inquireReferralChange number) s

/-! ### The lapse and its notice (R122, R123, R188) -/

/-- The OPEN entries whose deadline the reading has reached (R122). -/
def State.dueLapses (s : State) : List Referral :=
  s.referrals.filter fun e => decide (e.state = .opened) && decide (e.deadline ≤ s.memory.clock)

/-- An answer slot is free while a LAPSED entry waits for one: that entry's notice comes before any later one
(R123, log 19). -/
def State.lapseBlocked (s : State) : Bool := s.slotFree && s.lapsedWaits

/-- The entry of a number, when the Referral Queue may take its lapse next: it is due, none due has an earlier
deadline, and no LAPSED entry waits that could be served (R122, R176). -/
def State.nextLapse (s : State) (number : Nat) : Option Referral :=
  if s.lapseBlocked then none
  else
    (s.dueLapses.filter fun e => s.dueLapses.all fun f => decide (e.deadline ≤ f.deadline)).find?
      fun e => e.number == number

/-- A lapse taken in its own change, with the notice when a slot is free (R122, R123). -/
def State.takeLapse (s : State) (e : Referral) : State := (s.lapseEntry e).offerLapse e

/-- LAPSE (R122). -/
def execLapse (number : Nat) (s : State) : Host.Outcome State Fault Refusal :=
  whenPowered s fun s =>
    if s.engine = .unformatted then s
    else
      match s.nextLapse number with
      | some e => s.takeLapse e
      | none => s

/-- The head of the waiting list served when it is a LAPSED entry and a slot is free (R123, R188). -/
def State.serveLapse (s : State) : State :=
  match s.waiting with
  | .entry number :: rest =>
    if s.slotFree then
      match s.findReferral number with
      | some e => { s with waiting := rest }.placeLapseNotice e
      | none => { s with waiting := rest }
    else s
  | _ => s

/-- LAPSE_NOTICE (R123, R188). -/
def execLapseNotice (s : State) : Host.Outcome State Fault Refusal :=
  whenPowered s State.serveLapse

end Sys2Proof.Machine
end

