-- ==== Sys2Proof/Machine/Engine.lean ====
section
/-! DEFINITION. FORMAT, OPEN-TRADING and CLOSE-TRADING (R126, R190, R191). -/

namespace Sys2Proof.Machine

/-- A FORMAT's changes (R190): every table and the working state at their FORMAT values; the port's queues, the overrun
flag, the interrupt enable and the answer number count as they were. -/
def State.formatted (s : State) (day reading : Nat) : State :=
  { s with
    memory := RecordMemory.blank 30 1 reading day
    slots := UpdateSlots.empty
    retention := .valid
    indicatorCheck := true
    engine := .setup
    startCause := .none
    waiting := []
    referrals := []
    lapseRecord := []
    armed := []
    lastServed := 3 }

/-- FORMAT (R190). -/
def formatChange (day reading : Nat) : Change := fun s =>
  if s.engine = .trading then refuse .wrongState s
  else (s.formatted day reading, Reply.done (.formatted day reading))

def execFormat (tag day reading : Nat) (s : State) : Host.Outcome State Fault Refusal :=
  answerRequest (.format tag day reading) 1 tag (formatChange day reading) s

/-- Some product record is ACTIVE and some merchant record is used (R191). -/
def RecordMemory.tradable (m : RecordMemory) : Bool :=
  List.any m.products (fun e => decide (e.2.state = .active)) && List.any m.merchants (fun e => e.2.used)

/-- OPEN-TRADING (R191). -/
def openTradingChange : Change := fun s =>
  if s.engine = .setup ∧ s.memory.tradable then
    ({ s with engine := .trading, startCause := .none }, Reply.done .empty)
  else refuse .wrongState s

def execOpenTrading (tag : Nat) (s : State) : Host.Outcome State Fault Refusal :=
  answerRequest (.openTrading tag) 3 tag openTradingChange s

/-- The OPEN entries, oldest first. -/
def State.openReferrals (s : State) : List Referral := s.referrals.filter fun e => decide (e.state = .opened)

/-- A taken CLOSE-TRADING with its answer (R126, R191): every OPEN entry lapses, the answer enters, then the lapsed
entries offer their notices in queue order. -/
def State.closeTrading (s : State) (tag : Nat) : State :=
  let entries := s.openReferrals
  let lapsed := entries.foldl State.lapseEntry { s with engine := .setup }
  entries.foldl State.offerLapse
    (lapsed.enter 4 .done AnswerFlags.none tag (.tradingClosed entries.length))

/-- CLOSE-TRADING (R191): its answer enters before the notices, so it does not stand at the end of the change. -/
def execCloseTrading (tag : Nat) (s : State) : Host.Outcome State Fault Refusal :=
  match s.take (.closeTrading tag) with
  | none => .next s
  | some t =>
    if t.engine = .trading then .next (t.closeTrading tag)
    else .next (t.enter 4 (.refused .wrongState) AnswerFlags.none tag .empty)

end Sys2Proof.Machine
end

