-- ==== Sys2Proof/Machine/Holds.lean ====
section
/-! DEFINITION. CAPTURE, RELEASE, INQUIRE-HOLD and the hold expiry (R79, R82 to R89). -/

namespace Sys2Proof.Machine

/-- How a capture's amount is met (R83): the movement's paid part and parts, the card after any excess draw, what is
left of the hold to return, the shortfall, and whether the amount asked was clamped to the limit. -/
structure CapturePlan where
  paid : Nat
  parts : List Lot
  card : Card
  paidLeft : Nat
  partsLeft : List Lot
  shortfall : Nat
  clamped : Bool
  deriving DecidableEq, Repr

/-- A capture's amount set and divided, on the touched card (R12 to R14, R83). -/
def planCapture (today : Nat) (p : Product) (c : Card) (h : HoldRecord) (asked : Nat) : CapturePlan :=
  let limit := captureLimit h.total p.tolerance
  let amount := min asked limit
  let clamped := decide (limit < asked)
  if amount ≤ h.total then
    let sp := splitHold h amount p.order
    ⟨sp.paid, sp.parts, c, sp.paidLeft, sp.partsLeft, 0, clamped⟩
  else
    let excess := amount - h.total
    match drawdown today c excess .default p.order true with
    | none => ⟨h.paid, h.parts, c, 0, [], excess, clamped⟩
    | some d =>
      ⟨h.paid + d.paid, combineParts h.parts d.parts, c.draw d, 0, [], excess - d.granted, clamped⟩

/-- A CAPTURE of a found hold whose card and merchant are present (R83, R84). A decline carries no CLAMPED, though the
amount was clamped: DEDUCED (log 18). -/
def captureHold (m0 : RecordMemory) (n : Nat) (h : HoldRecord) (slot : Slot) (c0 : Card) (index : Nat)
    (r : Merchant) (asked : Nat) : RecordMemory × Reply :=
  let t := m0.touch c0
  let plan := planCapture m0.today (m0.product t.card.product) t.card h asked
  let amount := plan.paid + sumLots plan.parts
  if r.position.wouldExceed amount then
    let s := t.memory.settle slot t.card t.wrote
    (s.1, ⟨.declined .positionLimit, zeroOnly s.1 t.card, .touched s.2⟩)
  else
    let back := t.memory.returnValue plan.card plan.paidLeft plan.partsLeft
    let m := (back.1.payMerchant index r plan.paid plan.parts).freeHold n h .settled
    let done := m.commit slot (back.2.1.dropHold ⟨n, (m0.holdSlot n).generation⟩)
      (some (.capture r.id r.period, plan.paid, plan.parts))
    (done.1,
      ⟨doneOrPart (plan.clamped || decide (0 < plan.shortfall)),
        { zero := zeroFlag done.1 done.2
          short := decide (0 < plan.shortfall)
          clamped := plan.clamped
          bonus := decide (1 ≤ sumLots plan.parts) || anyJoined back.2.2
          watch := false },
        .captured amount plan.paid plan.parts done.2.counter plan.paidLeft back.2.2 plan.shortfall r.period⟩)

/-- A hold given back to its card and freed (R85, R86): the memory, the card as left, and each part's fate. -/
def RecordMemory.giveBack (m0 : RecordMemory) (n : Nat) (h : HoldRecord) (slot : Slot) (c0 : Card)
    (cause : EndCause) : RecordMemory × Card × List (Lot × PartFate) :=
  let t := m0.touch c0
  let back := t.memory.returnValue t.card h.paid h.parts
  let done := (back.1.freeHold n h cause).commit slot (back.2.1.dropHold ⟨n, (m0.holdSlot n).generation⟩) none
  (done.1, done.2, back.2.2)

/-- A RELEASE of a found hold (R85). -/
def releaseHold (m0 : RecordMemory) (n : Nat) (h : HoldRecord) (slot : Slot) (c0 : Card) : RecordMemory × Reply :=
  let r := m0.giveBack n h slot c0 .settled
  (r.1, ⟨.done, { zeroOnly r.1 r.2.1 with bonus := anyJoined r.2.2 }, .released h.paid r.2.2 r.2.1.counter⟩)

/-- A handle resolved for CAPTURE or RELEASE, with the merchant comparison of R79. A found hold's card and merchant are
present (R28, R77); a state in which they are not is answered UNKNOWN-CARD or UNKNOWN-MERCHANT (log 26). -/
def withHold (n generation merchant : Nat)
    (change : RecordMemory → HoldRecord → Slot → Card → Nat → Merchant → RecordMemory × Reply) : Change := fun s =>
  match (s.memory.holdSlot n).resolve generation with
  | .unknown => refuse .unknownHold s
  | .tooLate id =>
    if id = merchant then (s, ⟨.declined .tooLate, AnswerFlags.none, .empty⟩) else refuse .unknownHold s
  | .found h =>
    if h.merchant ≠ merchant then refuse .unknownHold s
    else
      match s.memory.findCard h.card, s.memory.findMerchant merchant with
      | some (slot, c), some (index, r) => onMemory (fun m => change m h slot c index r) s
      | none, _ => refuse .unknownCard s
      | _, none => refuse .unknownMerchant s

/-- CAPTURE (R82). -/
def captureChange (n generation merchant amount : Nat) : Change := fun s =>
  if s.engine = .unformatted then refuse .wrongState s
  else if holdSlots ≤ n ∨ inRange 1 maxAmount amount = false then refuse .badField s
  else withHold n generation merchant (fun m h slot c index r => captureHold m n h slot c index r amount) s

def execCapture (tag slot generation merchant amount : Nat) (s : State) : Host.Outcome State Fault Refusal :=
  answerRequest (.capture tag slot generation merchant amount) 18 tag
    (captureChange slot generation merchant amount) s

/-- RELEASE (R85). -/
def releaseChange (n generation merchant : Nat) : Change := fun s =>
  if s.engine = .unformatted then refuse .wrongState s
  else if holdSlots ≤ n then refuse .badField s
  else withHold n generation merchant (fun m h slot c _ _ => releaseHold m n h slot c) s

def execRelease (tag slot generation merchant : Nat) (s : State) : Host.Outcome State Fault Refusal :=
  answerRequest (.release tag slot generation merchant) 19 tag (releaseChange slot generation merchant) s

/-- INQUIRE-HOLD (R89): no merchant comparison, no touch. -/
def inquireHoldChange (n generation : Nat) : Change := fun s =>
  if s.engine = .unformatted then refuse .wrongState s
  else if holdSlots ≤ n then refuse .badField s
  else
    match (s.memory.holdSlot n).resolve generation with
    | .unknown => refuse .unknownHold s
    | .tooLate _ => (s, ⟨.declined .tooLate, AnswerFlags.none, .empty⟩)
    | .found h =>
      (s, ⟨.done,
        match s.memory.findCard h.card with
        | some (_, c) => zeroOnly s.memory c
        | none => AnswerFlags.none,
        .holdReport h h.total⟩)

def execInquireHold (tag slot generation : Nat) (s : State) : Host.Outcome State Fault Refusal :=
  answerRequest (.inquireHold tag slot generation) 20 tag (inquireHoldChange slot generation) s

/-- The OPEN holds whose expiry time the reading has reached, as (expiry time, slot, record) (R86). -/
def RecordMemory.dueHolds (m : RecordMemory) : List (Nat × Nat × HoldRecord) :=
  List.filterMap (fun e =>
    match e.2.record with
    | some h => if h.expires ≤ m.clock then some (h.expires, e.1, h) else none
    | none => none) m.holds

/-- The due holds none of which falls earlier than another: those the Hold Pool may take next (R86, R176). -/
def RecordMemory.nextHolds (m : RecordMemory) : List (Nat × Nat × HoldRecord) :=
  m.dueHolds.filter fun d => m.dueHolds.all fun e => decide (d.1 ≤ e.1)

/-- One hold expired (R86). A found hold's card is present (R28). -/
def RecordMemory.expireHold (m : RecordMemory) (n : Nat) (h : HoldRecord) : RecordMemory :=
  match m.findCard h.card with
  | some (slot, c) => (m.giveBack n h slot c .expired).1
  | none => m

/-- HOLD_EXPIRY (R86): the hold of a slot, when its expiry is due and none due falls earlier. -/
def execHoldExpiry (slot : Nat) (s : State) : Host.Outcome State Fault Refusal :=
  whenPowered s fun s =>
    if s.engine = .unformatted then s
    else
      match s.memory.nextHolds.find? fun d => d.2.1 == slot with
      | some d => { s with memory := s.memory.expireHold slot d.2.2 }
      | none => s

end Sys2Proof.Machine
end

