-- ==== Sys2Proof/Machine/Products.lean ====
section
/-! DEFINITION. The product requests (R54 to R58) and the sponsor and fund total inquiries (R16 to R18). -/

namespace Sys2Proof.Machine

/-- A request taken in SETUP and TRADING whose number is in range: WRONG-STATE in UNFORMATTED, then BAD-FIELD. -/
def onIndex (limit index : Nat) (change : RecordMemory → RecordMemory × Reply) : Change := fun s =>
  if s.engine = .unformatted then refuse .wrongState s
  else if limit ≤ index then refuse .badField s
  else onMemory change s

/-- A request refused on Record Memory. -/
def refuseMemory (r : RefusalReason) (m : RecordMemory) : RecordMemory × Reply := (m, Reply.refused r)

/-! ### Products (R54 to R58) -/

/-- A DEFINE-PRODUCT whose fields passed their checks (R54, R55). -/
def defineProductRecord (product : Nat) (p : Product) (m : RecordMemory) : RecordMemory × Reply :=
  let old := m.product product
  if old.state = .unused then (m.setProduct product { p with state := .active, issued := 0 }, Reply.done .empty)
  else if 0 < old.issued ∧ (p.maxBalance < old.maxBalance ∨ p.holdsPerCard < old.holdsPerCard) then
    refuseMemory .inUse m
  else
    (m.setProduct product { p with state := old.state, issued := old.issued },
      Reply.done (.productCount old.issued))

/-- DEFINE-PRODUCT (R54). -/
def defineProductChange (product : Nat) (fields : ProductOperands) : Change := fun s =>
  if s.engine = .unformatted then refuse .wrongState s
  else
    match productOf fields with
    | some p => if product < 64 then onMemory (defineProductRecord product p) s else refuse .badField s
    | none => refuse .badField s

def execDefineProduct (tag product : Nat) (fields : ProductOperands) (s : State) :
    Host.Outcome State Fault Refusal :=
  answerRequest (.defineProduct tag product fields) 27 tag (defineProductChange product fields) s

/-- A withdrawal by the record's state (R56). -/
def withdrawProductRecord (product : Nat) (m : RecordMemory) : RecordMemory × Reply :=
  let p := m.product product
  match p.state with
  | .active => (m.setProduct product { p with state := .withdrawn }, Reply.done .empty)
  | .withdrawn =>
    if p.issued = 0 then (m.setProduct product Product.unused, Reply.done .empty) else refuseMemory .inUse m
  | .unused => refuseMemory .unknownProduct m

/-- WITHDRAW-PRODUCT (R56). -/
def execWithdrawProduct (tag product : Nat) (s : State) : Host.Outcome State Fault Refusal :=
  answerRequest (.withdrawProduct tag product) 28 tag (onIndex 64 product (withdrawProductRecord product)) s

/-- A reinstatement by the record's state (R57). -/
def reinstateProductRecord (product : Nat) (m : RecordMemory) : RecordMemory × Reply :=
  let p := m.product product
  match p.state with
  | .withdrawn => (m.setProduct product { p with state := .active }, Reply.done .empty)
  | .active => (m, Reply.done .empty)
  | .unused => refuseMemory .unknownProduct m

/-- REINSTATE-PRODUCT (R57). -/
def execReinstateProduct (tag product : Nat) (s : State) : Host.Outcome State Fault Refusal :=
  answerRequest (.reinstateProduct tag product) 29 tag (onIndex 64 product (reinstateProductRecord product)) s

/-- INQUIRE-PRODUCT (R58). -/
def execInquireProduct (tag product : Nat) (s : State) : Host.Outcome State Fault Refusal :=
  answerRequest (.inquireProduct tag product) 30 tag
    (onIndex 64 product fun m => (m, Reply.done (.product (m.product product)))) s

/-! ### Sponsors and fund totals (R16 to R18) -/

/-- DEFINE-SPONSOR (R16). -/
def execDefineSponsor (tag sponsor : Nat) (s : State) : Host.Outcome State Fault Refusal :=
  answerRequest (.defineSponsor tag sponsor) 31 tag
    (onIndex 8 sponsor fun m => (m.setSponsor sponsor .active, Reply.done .empty)) s

/-- A retirement by the record's state (R16). -/
def retireSponsorRecord (sponsor : Nat) (m : RecordMemory) : RecordMemory × Reply :=
  match m.sponsor sponsor with
  | .active => (m.setSponsor sponsor .retired, Reply.done .empty)
  | .retired => (m, Reply.done .empty)
  | .unused => refuseMemory .unknownSponsor m

/-- RETIRE-SPONSOR (R16). -/
def execRetireSponsor (tag sponsor : Nat) (s : State) : Host.Outcome State Fault Refusal :=
  answerRequest (.retireSponsor tag sponsor) 32 tag (onIndex 8 sponsor (retireSponsorRecord sponsor)) s

/-- What INQUIRE-SPONSOR gives (R17). -/
def reportSponsor (m : RecordMemory) (sponsor : Nat) : AnswerBody :=
  .sponsor (m.sponsor sponsor) (m.funds.granted[sponsor]?.getD 0) (m.funds.liability[sponsor]?.getD 0)
    (m.funds.expired[sponsor]?.getD 0) (m.funds.billed[sponsor]?.getD 0)

/-- INQUIRE-SPONSOR (R17). -/
def execInquireSponsor (tag sponsor : Nat) (s : State) : Host.Outcome State Fault Refusal :=
  answerRequest (.inquireSponsor tag sponsor) 33 tag
    (onIndex 8 sponsor fun m => (m, Reply.done (reportSponsor m sponsor))) s

/-- What INQUIRE-FUNDS gives (R18). -/
def reportFunds (f : Funds) : AnswerBody :=
  .funds f.cashIn f.cashOut f.paidLiability f.due f.paidOut f.fees f.writeOff (sumSponsors f.granted)
    (sumSponsors f.liability) (sumSponsors f.expired) (sumSponsors f.billed)

/-- INQUIRE-FUNDS (R18). -/
def inquireFundsChange : Change := fun s =>
  if s.engine = .unformatted then refuse .wrongState s
  else (s, Reply.done (reportFunds s.memory.funds))

def execInquireFunds (tag : Nat) (s : State) : Host.Outcome State Fault Refusal :=
  answerRequest (.inquireFunds tag) 34 tag inquireFundsChange s

end Sys2Proof.Machine
end

