-- ==== Sys2Proof/Machine/Merchants.lean ====
section
/-! DEFINITION. The merchant and fee tier requests (R143 to R147, R151). -/

namespace Sys2Proof.Machine

/-- The fields DEFINE-MERCHANT writes (R143). -/
structure MerchantOperands where
  category : Nat
  trust : Nat
  tier : Nat
  floor : Nat
  allowance : Nat
  period : Nat
  deriving DecidableEq, Repr

/-- The ranges of R143. -/
def MerchantOperands.ranged (p : MerchantOperands) : Bool :=
  inRange 0 63 p.category && inRange 0 3 p.trust && inRange 0 15 p.tier && inRange 0 maxAmount p.floor &&
    inRange 0 100000000 p.allowance

/-- The lowest-indexed UNUSED record (R143). -/
def RecordMemory.freeMerchant (m : RecordMemory) : Option Nat :=
  firstIndex (fun i => !(m.merchant i).used) merchantSlots 0

/-- A record created for an id (R143). -/
def newMerchant (id : Nat) (p : MerchantOperands) : Merchant where
  state := .opened
  id := id
  category := p.category
  trust := p.trust
  tier := p.tier
  floor := p.floor
  allowance := p.allowance
  openHolds := 0
  period := p.period
  position := Position.zero

/-- A used record updated (R144). -/
def Merchant.redefine (r : Merchant) (p : MerchantOperands) : Merchant :=
  { r with
    category := p.category
    trust := p.trust
    tier := p.tier
    floor := p.floor
    allowance := p.allowance }

/-- A DEFINE-MERCHANT whose operands passed their checks (R143, R144). -/
def defineMerchantRecord (id : Nat) (p : MerchantOperands) (m : RecordMemory) : RecordMemory × Reply :=
  match m.findMerchant id with
  | some (i, r) => (m.setMerchant i (r.redefine p), Reply.done (.merchantIndex i))
  | none =>
    match m.freeMerchant with
    | none => refuseMemory .tableFull m
    | some i => (m.setMerchant i (newMerchant id p), Reply.done (.merchantIndex i))

/-- DEFINE-MERCHANT (R143). -/
def defineMerchantChange (id : Nat) (p : MerchantOperands) : Change := fun s =>
  if s.engine = .unformatted then refuse .wrongState s
  else if !p.ranged then refuse .badField s
  else onMemory (defineMerchantRecord id p) s

def execDefineMerchant (tag merchant category trust tier floor allowance period : Nat) (s : State) :
    Host.Outcome State Fault Refusal :=
  answerRequest (.defineMerchant tag merchant category trust tier floor allowance period) 35 tag
    (defineMerchantChange merchant ⟨category, trust, tier, floor, allowance, period⟩) s

/-- A request on the used record that holds an id: WRONG-STATE in UNFORMATTED, then UNKNOWN-MERCHANT (R141). -/
def onMerchant (id : Nat) (change : Nat → Merchant → RecordMemory → RecordMemory × Reply) : Change := fun s =>
  if s.engine = .unformatted then refuse .wrongState s
  else
    match s.memory.findMerchant id with
    | some (i, r) => onMemory (change i r) s
    | none => refuse .unknownMerchant s

/-- A used record put in a state, answered with its open hold count and due (R145). -/
def setStanding (state : MerchantState) (i : Nat) (r : Merchant) (m : RecordMemory) : RecordMemory × Reply :=
  (m.setMerchant i { r with state := state }, Reply.done (.merchantStanding r.openHolds r.position.due))

/-- SUSPEND-MERCHANT (R145). -/
def execSuspendMerchant (tag merchant : Nat) (s : State) : Host.Outcome State Fault Refusal :=
  answerRequest (.suspendMerchant tag merchant) 36 tag (onMerchant merchant (setStanding .suspended)) s

/-- REINSTATE-MERCHANT (R145). -/
def execReinstateMerchant (tag merchant : Nat) (s : State) : Host.Outcome State Fault Refusal :=
  answerRequest (.reinstateMerchant tag merchant) 37 tag (onMerchant merchant (setStanding .opened)) s

/-- The eight sponsor billings of a period: bonus drawn less bonus returned (R146, R154). -/
def Position.billings (p : Position) : Vector Int 8 := Vector.zipWith (· - ·) p.drawn p.returned

/-- Every sponsor billed (R25, R146, R154). -/
def Funds.billAll (f : Funds) (billings : Vector Int 8) : Funds :=
  (List.finRange 8).foldl (fun f s => f.bill s billings[s.val]) f

/-- A merchant's write-off: the shortfall of a negative due joins merchant write-off and due to merchants (R25,
R146). -/
def Funds.writeOffDue (f : Funds) (shortfall : Int) : Funds :=
  { f with writeOff := f.writeOff + moneyInt shortfall, due := f.due + moneyInt shortfall }

/-- A CLOSE-MERCHANT judged and carried out (R146). -/
def closeMerchantRecord (i : Nat) (r : Merchant) (m : RecordMemory) : RecordMemory × Reply :=
  let due := r.position.due
  if 0 < r.openHolds then refuseMemory .holdsOpen m
  else if 0 < due then refuseMemory .dueOpen m
  else
    let billings := r.position.billings
    let funds := (m.funds.writeOffDue (-due)).billAll billings
    ({ m with funds := funds }.setMerchant i Merchant.unused,
      Reply.done (.merchantClosed i due (-due) billings))

/-- CLOSE-MERCHANT (R146). -/
def execCloseMerchant (tag merchant : Nat) (s : State) : Host.Outcome State Fault Refusal :=
  answerRequest (.closeMerchant tag merchant) 38 tag (onMerchant merchant closeMerchantRecord) s

/-- One page of a used record (R147). -/
def Merchant.page (r : Merchant) (page : Nat) : MerchantPage :=
  if page = 0 then
    .record r.category r.trust r.tier r.floor r.allowance r.openHolds r.position.gross r.position.refunded
      r.position.items r.position.carryIn r.position.due
  else if page = 1 then .drawn r.position.drawn
  else .returned r.position.returned

/-- What INQUIRE-MERCHANT gives for a record (R147). -/
def reportMerchant (i : Nat) (r : Merchant) (page : Nat) : AnswerBody :=
  if r.used then .merchantPage i r.state r.id r.period (r.page page) else .merchantUnused

/-- INQUIRE-MERCHANT: form 0 names the record by id, form 1 by index; the index is read for form 1 alone (R147,
R198). -/
def inquireMerchantChange (form page index merchant : Nat) : Change := fun s =>
  if s.engine = .unformatted then refuse .wrongState s
  else if 2 < page then refuse .badField s
  else
    match form with
    | 0 =>
      match s.memory.findMerchant merchant with
      | some (i, r) => (s, Reply.done (reportMerchant i r page))
      | none => refuse .unknownMerchant s
    | 1 =>
      if merchantSlots ≤ index then refuse .badField s
      else (s, Reply.done (reportMerchant index (s.memory.merchant index) page))
    | _ => refuse .badField s

def execInquireMerchant (tag form page index merchant : Nat) (s : State) : Host.Outcome State Fault Refusal :=
  answerRequest (.inquireMerchant tag form page index merchant) 39 tag
    (inquireMerchantChange form page index merchant) s

/-- DEFINE-TIER (R151). -/
def defineTierChange (tier : Nat) (fields : Option Tier) : Change := fun s =>
  if s.engine = .unformatted then refuse .wrongState s
  else
    match fields with
    | some t =>
      if tier < 16 then onMemory (fun m => (m.setTier tier t, Reply.done (.tier (m.tier tier)))) s
      else refuse .badField s
    | none => refuse .badField s

def execDefineTier (tag tier rate itemFee minFee maxFee : Nat) (s : State) : Host.Outcome State Fault Refusal :=
  answerRequest (.defineTier tag tier rate itemFee minFee maxFee) 40 tag
    (defineTierChange tier (tierOf rate itemFee minFee maxFee)) s

/-- INQUIRE-TIER (R151). -/
def execInquireTier (tag tier : Nat) (s : State) : Host.Outcome State Fault Refusal :=
  answerRequest (.inquireTier tag tier) 41 tag (onIndex 16 tier fun m => (m, Reply.done (.tier (m.tier tier)))) s

end Sys2Proof.Machine
end

