-- ==== Sys2Proof/Machine/Payouts.lean ====
section
/-! DEFINITION. The cut of a merchant's period (R152 to R154) and the Payout Engine (R156 to R168). -/

namespace Sys2Proof.Machine

/-! ### The cut (R152 to R154) -/

/-- A whole number divided, the quotient rounded half to even (R153). -/
def halfEven (n d : Nat) : Nat :=
  let q := n / d
  let r := n % d
  if 2 * r > d then q + 1
  else if 2 * r = d ∧ q % 2 = 1 then q + 1
  else q

/-- The fee of a positive net (R153). -/
def Tier.fee (t : Tier) (net items : Int) : Int :=
  let raw : Int := halfEven (net.toNat * t.rate) 10000 + items * t.itemFee
  let least := max raw t.minFee
  let most := if t.maxFee = 0 then least else min least t.maxFee
  min most net

/-- What a cut computes (R152, R153). -/
def cutOf (t : Tier) (p : Position) : CutResult :=
  let net := p.due
  let fee := if 0 < net then t.fee net p.items else 0
  { net := net
    fee := fee
    payout := if 0 < net then net - fee else 0
    carry := min net 0
    billings := p.billings }

/-- A cut's fund totals (R25, R154). -/
def Funds.settleCut (f : Funds) (c : CutResult) : Funds :=
  { f with
    paidOut := f.paidOut + moneyInt c.payout
    fees := f.fees + moneyInt c.fee
    due := f.due - moneyInt (c.payout + c.fee) }.billAll c.billings

/-- A merchant record after its cut (R154). -/
def Merchant.afterCut (r : Merchant) (c : CutResult) : Merchant :=
  { r with
    period := (r.period + 1) % wordSpan
    position := { Position.zero with carryIn := c.carry } }

/-! ### Turns (R158 to R163) -/

/-- The cursor is past the range (R156). -/
def Descriptor.walked (d : Descriptor) : Bool := decide (d.last < d.cursor)

/-- A descriptor is eligible for a turn (R158). -/
def Descriptor.eligible (d : Descriptor) (inboundEmpty : Bool) : Bool :=
  decide (d.state = .running) &&
    (decide (d.mode = .burst) || decide (d.ratio ≤ d.credit) || inboundEmpty || d.walked)

/-- The descriptor the arbiter gives the next turn: the first eligible one after the one last served (R158). -/
def State.nextTurn (s : State) : Option Nat :=
  ([1, 2, 3, 4].map fun k => (s.lastServed + k) % 4).find? fun i =>
    (s.memory.descriptor i).eligible s.inbound.isEmpty

/-- The record at a cursor is to be cut (R160). -/
def Descriptor.cuts (d : Descriptor) (r : Merchant) : Bool := r.used && r.period == d.label

/-- A pass (R160). -/
def Descriptor.pass (d : Descriptor) : Descriptor :=
  { d with state := .running, passed := d.passed + 1, cursor := d.cursor + 1 }

/-- The sum of a cut's billings. -/
def CutResult.billed (c : CutResult) : Int :=
  ((List.finRange 8).map fun s => c.billings[s.val]).sum

/-- A descriptor after its cut (R161). -/
def Descriptor.afterCut (d : Descriptor) (c : CutResult) : Descriptor :=
  { d with
    state := .running
    cut := d.cut + 1
    payout := d.payout + c.payout
    fees := d.fees + c.fee
    billed := d.billed + c.billed
    carried := d.carried + c.carry
    cursor := d.cursor + 1
    credit := 0 }

/-- The fields a run's end reports (R163, R166). -/
def Descriptor.report (d : Descriptor) : RunReport :=
  ⟨d.label, d.first, d.last, d.cursor, d.cut, d.passed, d.payout, d.fees, d.billed, d.carried⟩

/-- A descriptor replaced. -/
def State.setDescriptor (s : State) (i : Nat) (d : Descriptor) : State :=
  { s with memory := s.memory.setDescriptor i d }

/-- A cut made, with its PAYOUT-ADVICE (R161, R164). -/
def State.cutMerchant (s : State) (i : Nat) : State :=
  let d := s.memory.descriptor i
  let r := s.memory.merchant d.cursor
  let c := cutOf (s.memory.tier r.tier) r.position
  let m := { s.memory with funds := s.memory.funds.settleCut c }.setMerchant d.cursor (r.afterCut c)
  { s with memory := m.setDescriptor i (d.afterCut c) }.enterNotice 65532
    (.payoutAdvice i d.cursor r.id d.label c)

/-- A run ended, with its PAYOUT-END (R163). -/
def State.endRun (s : State) (i : Nat) : State :=
  let d := s.memory.descriptor i
  (s.setDescriptor i { d with state := .done }).enterNotice 65533 (.payoutEnd i d.report)

/-- A step that needs an answer slot: taken when one is free, and otherwise the descriptor becomes WAITING and joins
the waiting list (R160, R162, R163). -/
def State.orWait (s : State) (i : Nat) (step : State → Nat → State) : State :=
  if s.slotFree then step s i
  else (s.setDescriptor i { s.memory.descriptor i with state := .waiting }).wait (.descriptor i)

/-- One descriptor's turn (R160, R163). -/
def State.takeTurn (s : State) (i : Nat) : State :=
  let d := s.memory.descriptor i
  if d.walked then s.orWait i State.endRun
  else if d.cuts (s.memory.merchant d.cursor) then s.orWait i State.cutMerchant
  else s.setDescriptor i d.pass

/-- The arbiter's next turn (R158): the served descriptor is recorded whatever its turn does. -/
def State.turn (s : State) : State :=
  if s.engine = .unformatted then s
  else
    match s.nextTurn with
    | some i => { s with lastServed := i }.takeTurn i
    | none => s

/-- TURN (R160). -/
def execTurn (s : State) : Host.Outcome State Fault Refusal := whenPowered s State.turn

/-- The step a served WAITING descriptor takes, the merchant at its cursor examined again (R162). -/
def State.serveStep (s : State) (i : Nat) : State :=
  let d := s.memory.descriptor i
  if d.walked then s.endRun i
  else if d.cuts (s.memory.merchant d.cursor) then s.cutMerchant i
  else s.setDescriptor i d.pass

/-- The head of the waiting list served when it is a descriptor and a slot is free (R162, R188). -/
def State.serveDescriptor (s : State) : State :=
  match s.waiting with
  | .descriptor i :: rest =>
    if s.slotFree then
      if (s.memory.descriptor i).state = .waiting then { s with waiting := rest }.serveStep i
      else { s with waiting := rest }
    else s
  | _ => s

/-- DESCRIPTOR_SERVICE (R162). -/
def execDescriptorService (s : State) : Host.Outcome State Fault Refusal := whenPowered s State.serveDescriptor

/-! ### The payout requests (R157, R166 to R168) -/

/-- START-PAYOUT's operands in range (R157). -/
def payoutInRange (descriptor ratio first last : Nat) : Bool :=
  inRange 0 3 descriptor && inRange 0 511 first && inRange first 511 last && inRange 1 64 ratio

/-- A run started (R157). -/
def startRun (mode : RunMode) (ratio first last label : Nat) : Descriptor where
  state := .running
  first := first
  last := last
  cursor := first
  label := label
  mode := mode
  ratio := ratio
  credit := 0
  cut := 0
  passed := 0
  payout := 0
  fees := 0
  billed := 0
  carried := 0

/-- START-PAYOUT (R157). -/
def startPayoutChange (descriptor mode ratio first last label : Nat) : Change := fun s =>
  if s.engine = .unformatted then refuse .wrongState s
  else
    match runModeOf mode with
    | none => refuse .badField s
    | some runMode =>
      if !payoutInRange descriptor ratio first last then refuse .badField s
      else
        match (s.memory.descriptor descriptor).state with
        | .running | .waiting | .stopped => refuse .runBusy s
        | .idle | .done =>
          (s.setDescriptor descriptor (startRun runMode ratio first last label),
            Reply.done (.payoutStarted descriptor))

def execStartPayout (tag descriptor mode ratio first last label : Nat) (s : State) :
    Host.Outcome State Fault Refusal :=
  answerRequest (.startPayout tag descriptor mode ratio first last label) 45 tag
    (startPayoutChange descriptor mode ratio first last label) s

/-- STOP-PAYOUT's form codes (R198, code 46): true is END. -/
def stopFormOf : Nat → Option Bool
  | 0 => some false
  | 1 => some true
  | _ => none

/-- A descriptor stopped by the PAUSE form or ended by the END form; it leaves the waiting list (R166, R188). -/
def State.stopRun (s : State) (i : Nat) (ends : Bool) : State × Reply :=
  let d := s.memory.descriptor i
  let t := s.unwait (.descriptor i)
  if ends then (t.setDescriptor i { d with state := .done }, Reply.done (.runEnded d.report))
  else (t.setDescriptor i { d with state := .stopped }, Reply.done .empty)

/-- STOP-PAYOUT (R166). -/
def stopPayoutChange (descriptor form : Nat) : Change := fun s =>
  if s.engine = .unformatted then refuse .wrongState s
  else
    match stopFormOf form with
    | none => refuse .badField s
    | some ends =>
      if 4 ≤ descriptor then refuse .badField s
      else
        match (s.memory.descriptor descriptor).state with
        | .idle | .done => refuse .wrongState s
        | .running | .waiting | .stopped => s.stopRun descriptor ends

def execStopPayout (tag descriptor form : Nat) (s : State) : Host.Outcome State Fault Refusal :=
  answerRequest (.stopPayout tag descriptor form) 46 tag (stopPayoutChange descriptor form) s

/-- RESUME-PAYOUT (R167). -/
def resumePayoutChange (descriptor : Nat) : Change := fun s =>
  if s.engine = .unformatted then refuse .wrongState s
  else if 4 ≤ descriptor then refuse .badField s
  else
    let d := s.memory.descriptor descriptor
    match d.state with
    | .stopped => (s.setDescriptor descriptor { d with state := .running }, Reply.done .empty)
    | .running | .waiting => (s, Reply.done .empty)
    | .idle | .done => refuse .wrongState s

def execResumePayout (tag descriptor : Nat) (s : State) : Host.Outcome State Fault Refusal :=
  answerRequest (.resumePayout tag descriptor) 47 tag (resumePayoutChange descriptor) s

/-- The step a WAITING descriptor waits for (R168). -/
def Descriptor.waitsFor (d : Descriptor) : Option WaitedStep :=
  if d.state = .waiting then some (if d.walked then .close else .cut) else none

/-- INQUIRE-PAYOUT (R168). -/
def inquirePayoutChange (descriptor : Nat) : Change := fun s =>
  if s.engine = .unformatted then refuse .wrongState s
  else if 4 ≤ descriptor then refuse .badField s
  else
    let d := s.memory.descriptor descriptor
    (s, Reply.done (.descriptor d d.waitsFor))

def execInquirePayout (tag descriptor : Nat) (s : State) : Host.Outcome State Fault Refusal :=
  answerRequest (.inquirePayout tag descriptor) 48 tag (inquirePayoutChange descriptor) s

end Sys2Proof.Machine
end

