-- ==== Sys2Proof/Machine/Port.lean ====
section
/-! DEFINITION. The Request Port's words (R184 to R186), the link reset (R196), and the answer to a message that
decodes to no request (R187). -/

namespace Sys2Proof.Machine

/-- A message posted (R184): at the end of the inbound queue, or discarded with the overrun flag set. -/
def State.post (s : State) : State :=
  if s.inbound.length < inboundCapacity then { s with inbound := s.inbound ++ [s.postArea] }
  else { s with overrun := true }

/-- POST_WORD (R184): any value posts. -/
def execPostWord (_value : Nat) (s : State) : Host.Outcome State Fault Refusal := whenPowered s State.post

/-- The overrun flag's word written: 1 clears it, 0 leaves it (R184). -/
def State.writeOverrun (s : State) (bit : Bool) : State := { s with overrun := s.overrun && !bit }

/-- OVERRUN_FLAG (R184). -/
def execOverrunFlag (bit : Bool) (s : State) : Host.Outcome State Fault Refusal :=
  whenPowered s fun s => s.writeOverrun bit

/-- The oldest answer removed (R185), and an interrupt message when the queue is still non-empty while the enable is set
(R186). -/
def State.releaseAnswer (s : State) : State :=
  match s.answers with
  | [] => s
  | _ :: rest =>
    { s with
      answers := rest
      interruptsSent :=
        if !rest.isEmpty && s.interruptEnable then s.interruptsSent + 1 else s.interruptsSent }

/-- RELEASE_WORD (R185): any value releases. -/
def execReleaseWord (_value : Nat) (s : State) : Host.Outcome State Fault Refusal :=
  whenPowered s State.releaseAnswer

/-- The interrupt enable written (R186): an interrupt message when it is set while the queue is non-empty. -/
def State.setEnable (s : State) (bit : Bool) : State :=
  { s with
    interruptEnable := bit
    interruptsSent :=
      if bit && !s.interruptEnable && !s.answers.isEmpty then s.interruptsSent + 1 else s.interruptsSent }

/-- INTERRUPT_ENABLE (R186). -/
def execInterruptEnable (bit : Bool) (s : State) : Host.Outcome State Fault Refusal :=
  whenPowered s fun s => s.setEnable bit

/-- The port's queues and post area emptied (R194, R196). -/
def State.emptyPort (s : State) : State :=
  { s with inbound := [], answers := [], postArea := List.replicate 128 0 }

/-- LINK_RESET (R196). -/
def execLinkReset (s : State) : Host.Outcome State Fault Refusal := whenPowered s State.emptyPort

/-- The kind of an answer to a message that does not decode (R187). -/
def badKind (code : Nat) : Nat := if code = 0 ∨ 65532 ≤ code then 65531 else code

/-- The refusal of a message that does not decode (R187, R198): codes 1 to 48 are known. -/
def badReason (code : Nat) : RefusalReason := if 1 ≤ code ∧ code ≤ 48 then .badLength else .badCode

/-- BAD_CODE (R187): the message is taken and refused; nothing else changes. -/
def execBadCode (code length tag : Nat) (s : State) : Host.Outcome State Fault Refusal :=
  answerRequest (.badCode code length tag) (badKind code) tag (refuse (badReason code)) s

end Sys2Proof.Machine
end

