-- ==== Sys2Proof/Machine/Cards.lean ====
section
/-! DEFINITION. The card requests: ISSUE, LOAD, GRANT-BONUS, INQUIRE, FREEZE, THAW, LOCK, UNLOCK and CLOSE-CARD
(R36 to R48, R66 to R68). -/

namespace Sys2Proof.Machine

/-- The checks of R31 on a request that names a present card: BAD-NUMBER, then UNKNOWN-CARD. -/
def withCard (number : Nat) (change : Slot → Card → Change) : Change := fun s =>
  if !wellFormedNumber number then refuse .badNumber s
  else
    match s.memory.findCard number with
    | none => refuse .unknownCard s
    | some (slot, c) => change slot c s

/-! ### ISSUE (R38, R39) -/

/-- The card ISSUE creates (R27, R39). -/
def newCard (m : RecordMemory) (number product paid : Nat) (p : Product) (lots : List Lot) : Card :=
  let brings := decide (0 < paid) || !lots.isEmpty
  let stamp := if brings then 1 else 0
  { number := number
    product := product
    base := .active
    frozen := false
    softLocked := false
    attemptPending := false
    referralOpen := false
    awaitingLoad := decide (paid = 0)
    blockedCount := 0
    lastBlocked := none
    paid := paid
    lots := lots
    holds := []
    expiry := (cappedDay m.today p.cardLife).1
    lastActivity := m.today
    sweptThrough := m.today
    counter := stamp
    last := if 0 < paid then some ⟨.load, stamp, m.today, paid, []⟩ else none }

/-- The issue bonus as the card's lot, with whether its day was capped (R38, R39). -/
def issueLot (m : RecordMemory) (p : Product) (bonus : Option (Fin 8 × Nat × Nat)) : List Lot × Bool :=
  match bonus with
  | none => ([], false)
  | some (s, life, amount) =>
    let e := cappedDay m.today (if life = 0 then p.bonusLife else life)
    ([⟨s, e.1, amount⟩], e.2)

/-- An ISSUE that passes R38 (R39). -/
def issueCard (m : RecordMemory) (slot : Slot) (number product paid : Nat) (bonus : Option (Fin 8 × Nat × Nat)) :
    RecordMemory × Reply :=
  let p := m.product product
  let lots := issueLot m p bonus
  let c := newCard m number product paid p lots.1
  let placed := (m.placeCard slot c).setProduct product { p with issued := p.issued + 1 }
  let funds := lots.1.foldl (fun f l => f.grant l.sponsor l.amount) (placed.funds.takeIn paid)
  let m' := { placed with funds := funds }
  (m', ⟨.done, { zeroOnly m' c with clamped := (cappedDay m.today p.cardLife).2 || lots.2 },
    .issued slot c.expiry c.paid lots.1.head? c.counter⟩)

/-- ISSUE's checks and its balance limit, in the order of R36 (R38). -/
def issueChange (card product sponsor life paid bonus : Nat) : Change := fun s =>
  if s.engine ≠ .trading then refuse .wrongState s
  else if !(inRange 0 63 product && inRange 0 maxAmount paid) then refuse .badField s
  else
    match issueBonusOf sponsor life bonus with
    | none => refuse .badField s
    | some b =>
      if !wellFormedNumber card then refuse .badNumber s
      else if (s.memory.product product).state ≠ .active then refuse .unknownProduct s
      else if b.any (fun x => decide (s.memory.sponsor x.1.val ≠ .active)) then refuse .unknownSponsor s
      else if (s.memory.findCard card).isSome then refuse .duplicate s
      else
        match s.memory.freePlace (bucketOf card) with
        | none => refuse .tableFull s
        | some slot =>
          if (s.memory.product product).maxBalance < paid + (b.map fun x => x.2.2).getD 0 then
            (s, ⟨.declined .overLimit, AnswerFlags.none, .empty⟩)
          else onMemory (fun m => issueCard m slot card product paid b) s

def execIssue (tag card product sponsor life paid bonus : Nat) (s : State) : Host.Outcome State Fault Refusal :=
  answerRequest (.issue tag card product sponsor life paid bonus) 7 tag
    (naming [card] (issueChange card product sponsor life paid bonus)) s

/-! ### LOAD and GRANT-BONUS (R40 to R42) -/

/-- A request declined on a touched card: the touch sweep stands (R37). -/
def declineTouched (m : RecordMemory) (slot : Slot) (c : Card) (wrote : Bool) (reason : DeclineReason) :
    RecordMemory × Reply :=
  let r := m.settle slot c wrote
  (r.1, ⟨.declined reason, zeroOnly r.1 c, .touched r.2⟩)

/-- A request on a touched card that moves no value answered DONE (R37). -/
def doneTouched (m : RecordMemory) (slot : Slot) (c : Card) (wrote : Bool) : RecordMemory × Reply :=
  let r := m.settle slot c wrote
  (r.1, ⟨.done, zeroOnly r.1 c, .touched r.2⟩)

/-- A LOAD judged on the swept card, and carried out (R40, R41). -/
def loadCard (m0 : RecordMemory) (slot : Slot) (c0 : Card) (amount : Nat) : RecordMemory × Reply :=
  let t := m0.touch c0
  let m := t.memory
  let c := t.card
  let p := m.product c.product
  if amount < p.minLoad ∨ p.maxLoad < amount then declineTouched m slot c t.wrote .loadRange
  else if !p.reload && !c.awaitingLoad then declineTouched m slot c t.wrote .loadRange
  else if p.maxBalance < m.total c + amount then declineTouched m slot c t.wrote .overLimit
  else
    let e := cappedDay m.today p.cardLife
    let loaded := { c with paid := c.paid + amount, awaitingLoad := false, expiry := e.1, base := .active }
    let done := { m with funds := m.funds.takeIn amount }.commit slot loaded (some (.load, amount, []))
    (done.1, ⟨.done, { zeroOnly done.1 done.2 with clamped := e.2 },
      .loaded done.2.paid done.2.expiry done.2.base done.2.counter⟩)

def loadChange (card amount : Nat) : Change := fun s =>
  if s.engine ≠ .trading then refuse .wrongState s
  else if !inRange 1 maxAmount amount then refuse .badField s
  else withCard card (fun slot c => onMemory fun m => loadCard m slot c amount) s

def execLoad (tag card amount : Nat) (s : State) : Host.Outcome State Fault Refusal :=
  answerRequest (.load tag card amount) 8 tag (naming [card] (loadChange card amount)) s

/-- Where a grant goes (R42): the lot of its sponsor and day, or a free place; none is LOTS-FULL. -/
def grantLot (lots : List Lot) (p : Lot) : Option (List Lot) :=
  if lots.any (sameLot p) then some (joinLot p lots)
  else if lots.length < lotPlaces then some (insertLot p lots)
  else none

/-- A grant judged on the swept card, and carried out (R42). The LOTS-FULL decline of a capped day carries no CLAMPED:
DEDUCED (log 18). -/
def grantCard (m0 : RecordMemory) (slot : Slot) (c0 : Card) (sponsor : Fin 8) (life amount : Nat) :
    RecordMemory × Reply :=
  let t := m0.touch c0
  let m := t.memory
  let c := t.card
  let p := m.product c.product
  if c.base = .expired then declineTouched m slot c t.wrote .cardExpired
  else if p.maxBalance < m.total c + amount then declineTouched m slot c t.wrote .overLimit
  else
    let e := cappedDay m.today (if life = 0 then p.bonusLife else life)
    let part : Lot := ⟨sponsor, e.1, amount⟩
    match grantLot c.lots part with
    | none => declineTouched m slot c t.wrote .lotsFull
    | some lots =>
      let done := { m with funds := m.funds.grant sponsor amount }.commit slot { c with lots := lots } none
      (done.1, ⟨.done, { zeroOnly done.1 done.2 with clamped := e.2 },
        .grantedBonus ((lots.find? (sameLot part)).getD part) done.2.counter⟩)

def grantBonusChange (card sponsor life amount : Nat) : Change := fun s =>
  if s.engine ≠ .trading then refuse .wrongState s
  else
    match sponsorOf sponsor with
    | none => refuse .badField s
    | some sp =>
      if !(inRange 1 maxAmount amount && inRange 0 730 life) then refuse .badField s
      else if !wellFormedNumber card then refuse .badNumber s
      else if s.memory.sponsor sponsor ≠ .active then refuse .unknownSponsor s
      else withCard card (fun slot c => onMemory fun m => grantCard m slot c sp life amount) s

def execGrantBonus (tag card sponsor life amount : Nat) (s : State) : Host.Outcome State Fault Refusal :=
  answerRequest (.grantBonus tag card sponsor life amount) 9 tag
    (naming [card] (grantBonusChange card sponsor life amount)) s

/-! ### INQUIRE, FREEZE and THAW (R43 to R45) -/

/-- The record INQUIRE gives, with the two values computed for today (R43). -/
def reportCard (m : RecordMemory) (c : Card) : CardReport where
  product := c.product
  base := c.base
  frozen := c.frozen
  softLocked := c.softLocked
  attemptPending := c.attemptPending
  referralOpen := c.referralOpen
  awaitingLoad := c.awaitingLoad
  blockedCount := c.blockedCount
  lastBlocked := if 0 < c.blockedCount then c.lastBlocked else none
  paid := c.paid
  lots := c.lots
  holds := c.holds
  held := m.held c
  expiry := c.expiry
  lastActivity := c.lastActivity
  sweptThrough := c.sweptThrough
  counter := c.counter
  usable := c.paid + sumLots (c.lots.filter fun l => decide (m.today ≤ l.expiry))
  expiryPassed := decide (c.expiry < m.today)

def inquireChange (card : Nat) : Change := fun s =>
  if s.engine = .unformatted then refuse .wrongState s
  else withCard card (fun _ c s => (s, ⟨.done, zeroOnly s.memory c, .card (reportCard s.memory c)⟩)) s

def execInquire (tag card : Nat) (s : State) : Host.Outcome State Fault Refusal :=
  answerRequest (.inquire tag card) 10 tag (naming [card] (inquireChange card)) s

/-- A request that touches a card and sets or clears its flags (R44, R45, R66): no value change of its own. -/
def flagCard (m : RecordMemory) (slot : Slot) (c : Card) (f : Card → Card) : RecordMemory × Reply :=
  let t := m.touch c
  doneTouched t.memory slot (f t.card) t.wrote

/-- A flag request taken in SETUP and TRADING (R36, R66). -/
def flagChange (card : Nat) (f : Card → Card) : Change := fun s =>
  if s.engine = .unformatted then refuse .wrongState s
  else withCard card (fun slot c => onMemory fun m => flagCard m slot c f) s

/-- FREEZE (R44). -/
def execFreeze (tag card : Nat) (s : State) : Host.Outcome State Fault Refusal :=
  answerRequest (.freeze tag card) 11 tag
    (naming [card] (flagChange card fun c => { c with frozen := true })) s

/-- THAW (R45). -/
def execThaw (tag card : Nat) (s : State) : Host.Outcome State Fault Refusal :=
  answerRequest (.thaw tag card) 12 tag
    (naming [card] (flagChange card fun c => { c with frozen := false })) s

/-! ### LOCK and UNLOCK (R66 to R68) -/

/-- LOCK (R66). -/
def execLock (tag card : Nat) (s : State) : Host.Outcome State Fault Refusal :=
  answerRequest (.lock tag card) 13 tag
    (naming [card] (flagChange card fun c => { c with softLocked := true })) s

/-- An UNLOCK judged on the touched card (R67, R68). -/
def unlockCard (s0 : State) (tag : Nat) (slot : Slot) (c0 : Card) : State × Reply :=
  let t := s0.memory.touch c0
  let s := { s0 with memory := t.memory }
  let c := t.card
  if c.referralOpen then onMemory (fun m => declineTouched m slot c t.wrote .cardBusy) s
  else if !c.softLocked then onMemory (fun m => doneTouched m slot c t.wrote) s
  else if !c.attemptPending then
    onMemory (fun m => doneTouched m slot { c with softLocked := false } t.wrote) s
  else
    match s.makeReferral c.number tag .unlock with
    | none => onMemory (fun m => declineTouched m slot c t.wrote .referFull) s
    | some (s', e) =>
      let r := s'.memory.settle slot { c with referralOpen := true } t.wrote
      ({ s' with memory := r.1 },
        ⟨.referred, zeroOnly r.1 c,
          .attempt (.unlockReferred e.number e.deadline c.blockedCount c.lastBlocked r.2)⟩)

/-- UNLOCK; in SETUP a card with attempt-pending set is refused before it is touched (R67), but for one whose LAPSE-NOTICE
still waits: that one is declined CARD-BUSY (R126, log 21). -/
def unlockChange (tag card : Nat) : Change := fun s =>
  if s.engine = .unformatted then refuse .wrongState s
  else
    withCard card (fun slot c s =>
      if s.engine = .setup ∧ c.attemptPending ∧ !c.referralOpen then refuse .wrongState s
      else unlockCard s tag slot c) s

def execUnlock (tag card : Nat) (s : State) : Host.Outcome State Fault Refusal :=
  answerRequest (.unlock tag card) 14 tag (naming [card] (unlockChange tag card)) s

/-! ### CLOSE-CARD (R46, R47) -/

/-- A closure that passes R46: cash-out, write-offs, issued count, watch lists and slot (R47). The answer lists every lot
the change wrote off: the touch sweep's, then the remaining ones (log 36). -/
def closeTouched (s : State) (slot : Slot) (c : Card) (swept : List Lot) : State × Reply :=
  let m := s.memory
  let p := m.product c.product
  let funds := c.lots.foldl Funds.writeOffLot (m.funds.cashOutPaid c.paid)
  let m' := ({ m with funds := funds }.setProduct c.product { p with issued := p.issued - 1 }).removeCard slot c
  ({ s with memory := m' }.disarmAll c.number, Reply.done (.cardClosed c.paid (swept ++ c.lots)))

def closeCardChange (card : Nat) : Change := fun s =>
  if s.engine ≠ .trading then refuse .wrongState s
  else
    withCard card (fun slot c s =>
      if !c.holds.isEmpty then refuse .holdsOpen s
      else
        let t := s.memory.touch c
        if t.card.referralOpen then onMemory (fun _ => declineTouched t.memory slot t.card t.wrote .cardBusy) s
        else closeTouched { s with memory := t.memory } slot t.card (sweepCard s.memory.today c).written) s

def execCloseCard (tag card : Nat) (s : State) : Host.Outcome State Fault Refusal :=
  answerRequest (.closeCard tag card) 15 tag (naming [card] (closeCardChange card)) s

end Sys2Proof.Machine
end

