-- ==== Sys2Proof/Machine/Refunds.lean ====
section
/-! DEFINITION. REFUND and VOID-LAST (R96 to R109). -/

namespace Sys2Proof.Machine

/-- One bonus part of a refund after the cap (R98): what is restored as bonus and what is converted to paid value. -/
structure CappedPart where
  sponsor : Fin 8
  restored : Nat
  converted : Nat
  deriving DecidableEq, Repr

/-- A refund part capped by the merchant's bonus drawn less its bonus returned (R98). -/
def capPart (p : Position) (part : Fin 8 × Nat) : CappedPart :=
  let allowed := (max 0 (p.drawn[part.1.val] - p.returned[part.1.val])).toNat
  let restored := min part.2 allowed
  ⟨part.1, restored, part.2 - restored⟩

/-- The restored parts with their fresh expiry day; a part restored 0 is not applied (R100). -/
def restoredParts (expiry : Nat) (parts : List CappedPart) : List Lot :=
  (parts.filter fun p => decide (0 < p.restored)).map fun p => ⟨p.sponsor, expiry, p.restored⟩

/-- The parts placed one at a time in the rule's refund form: the lots and each part's step, or none when a part
reaches step 4 (R4, R5, R100). -/
def restoreLots (lots : List Lot) : List Lot → Option (List Lot × List Nat)
  | [] => some (lots, [])
  | p :: rest =>
    match mergeLot lots p with
    | none => none
    | some (lots', step) => (restoreLots lots' rest).map fun r => (r.1, step :: r.2)

/-- The bonus returned of each sponsor grown by its restored part (R101). -/
def returnSponsors (v : Vector Int 8) (parts : List CappedPart) : Vector Int 8 :=
  parts.foldl (fun v p => addSponsor v p.sponsor p.restored) v

/-- A REFUND on its card and merchant (R97 to R101). A decline after the conversion carries no CLAMPED: DEDUCED
(log 18). -/
def refundCard (m0 : RecordMemory) (slot : Slot) (c0 : Card) (index : Nat) (r : Merchant) (paid : Nat)
    (parts : List (Fin 8 × Nat)) (total : Nat) : RecordMemory × Reply :=
  let t := m0.touch c0
  let m := t.memory
  let c := t.card
  let p := m.product c.product
  let capped := parts.map (capPart r.position)
  let credit := paid + (capped.map CappedPart.converted).sum
  let e := cappedDay m.today p.refundLife
  let restored := restoredParts e.1 capped
  let due := r.position.due - total
  if r.state = .suspended then declineTouched m slot c t.wrote .merchantSuspended
  else if r.position.refunded + total > positionLimit then declineTouched m slot c t.wrote .positionLimit
  else if due < -(r.allowance : Int) then declineTouched m slot c t.wrote .allowance
  else if p.maxBalance < m.total c + total then declineTouched m slot c t.wrote .overLimit
  else
    match restoreLots c.lots restored with
    | none => declineTouched m slot c t.wrote .lotsFull
    | some (lots, steps) =>
      let funds := (restored.map fun l => (l, PartFate.joined 0)).foldl Funds.unspendPart (m.funds.unspendPaid credit)
      let r' := { r with position := { r.position with
        refunded := r.position.refunded + total
        returned := returnSponsors r.position.returned capped } }
      let done := ({ m with funds := funds }.setMerchant index r').commit slot
        { c with paid := c.paid + credit, lots := lots } none
      (done.1,
        ⟨.done,
          { zero := zeroFlag done.1 done.2
            short := false
            clamped := decide (0 < (capped.map CappedPart.converted).sum) || e.2
            bonus := !restored.isEmpty
            watch := false },
          .refunded credit (capped.map fun x => (x.converted, x.restored)) e.1 steps done.2.free done.2.counter due
            r.period⟩)

/-- REFUND (R96). -/
def refundChange (card merchant paid count : Nat) (parts : List PartOperands) : Change := fun s =>
  if s.engine ≠ .trading then refuse .wrongState s
  else
    match refundOf paid count parts with
    | none => refuse .badField s
    | some (ps, total) =>
      if !wellFormedNumber card then refuse .badNumber s
      else
        match s.memory.findMerchant merchant with
        | none => refuse .unknownMerchant s
        | some (index, r) =>
          withCard card (fun slot c => onMemory fun m => refundCard m slot c index r paid ps total) s

def execRefund (tag card merchant paid count : Nat) (parts : List PartOperands) (s : State) :
    Host.Outcome State Fault Refusal :=
  answerRequest (.refund tag card merchant paid count parts) 22 tag
    (naming [card] (refundChange card merchant paid count parts)) s

/-! ### VOID-LAST (R103 to R109) -/

/-- The sum of one sponsor's parts. -/
def sponsorSum (parts : List Lot) (s : Fin 8) : Nat := sumLots (parts.filter fun p => p.sponsor == s)

/-- The position contains a movement (R105). -/
def Position.contains (p : Position) (amount : Nat) (parts : List Lot) : Bool :=
  decide ((amount : Int) ≤ p.gross) && decide (1 ≤ p.items) &&
    (List.finRange 8).all fun s => decide ((sponsorSum parts s : Int) ≤ p.drawn[s.val])

/-- The merchant still holds a movement (R105): its record, when it is used, in the movement's period, and contains it.
R105 and R146 say that the record of a merchant closed and defined again never contains an older movement; by R105's own
numbers it may, in the same period with enough fresh accruals. The model follows the numbers: DESIGN CHOICE (log 40). -/
def RecordMemory.holdsMovement (m : RecordMemory) (merchant period : Nat) (v : Movement) : Option (Nat × Merchant) :=
  match m.findMerchant merchant with
  | some (index, r) =>
    if r.period = period ∧ r.position.contains v.amount v.parts then some (index, r) else none
  | none => none

/-- A void of a LOAD (R108). -/
def voidLoadMovement (m : RecordMemory) (slot : Slot) (c : Card) (v : Movement) : RecordMemory × Reply :=
  let done := { m with funds := m.funds.voidLoad v.paid }.commit slot { c with paid := c.paid - v.paid } none
  (done.1, ⟨.done, zeroOnly done.1 done.2,
    .voided v.kind v.paid v.paid [] done.2.free done.2.counter none none⟩)

/-- A void of a REDEEM or CAPTURE at the merchant that holds it (R106, R107). -/
def voidSpentMovement (m : RecordMemory) (slot : Slot) (c : Card) (v : Movement) (index : Nat) (r : Merchant) :
    RecordMemory × Reply :=
  let placed := placeParts m.today c.lots v.parts
  let funds := placed.2.foldl Funds.unspendPart (m.funds.unspendPaid v.paid)
  let position := r.position.unaccrue v.amount v.parts
  let done := ({ m with funds := funds }.setMerchant index { r with position := position }).commit slot
    { c with paid := c.paid + v.paid, lots := placed.1 } none
  (done.1, ⟨.done, { zeroOnly done.1 done.2 with bonus := anyJoined placed.2 },
    .voided v.kind v.amount v.paid placed.2 done.2.free done.2.counter (some position.due)
      (some r.period)⟩)

/-- Tests 4 to 6 of a REDEEM or CAPTURE movement (R104), and its void. -/
def voidSpent (m : RecordMemory) (slot : Slot) (c : Card) (wrote : Bool) (v : Movement)
    (merchant atMerchant period : Nat) : RecordMemory × Reply :=
  if merchant ≠ atMerchant then declineTouched m slot c wrote .stale
  else
    match m.holdsMovement atMerchant period v with
    | none => declineTouched m slot c wrote .cut
    | some (index, r) =>
      if r.position.due - v.amount < -(r.allowance : Int) then declineTouched m slot c wrote .allowance
      else voidSpentMovement m slot c v index r

/-- The last movement as the touch sweep leaves it: absent when the sweep wrote off a lot (R30, R103). -/
def lastAfterTouch (c : Card) (wrote : Bool) : Option Movement := if wrote then none else c.last

/-- A VOID-LAST judged on the swept card (R104). -/
def voidCard (m0 : RecordMemory) (slot : Slot) (c0 : Card) (merchant stamp : Nat) : RecordMemory × Reply :=
  let t := m0.touch c0
  match lastAfterTouch t.card t.wrote with
  | none => declineTouched t.memory slot t.card t.wrote .stale
  | some v =>
    if v.stamp ≠ stamp ∨ v.day ≠ m0.today then declineTouched t.memory slot t.card t.wrote .stale
    else
      match v.kind with
      | .load => voidLoadMovement t.memory slot t.card v
      | .redeem atMerchant period => voidSpent t.memory slot t.card t.wrote v merchant atMerchant period
      | .capture atMerchant period => voidSpent t.memory slot t.card t.wrote v merchant atMerchant period

/-- VOID-LAST (R103). -/
def voidLastChange (card merchant stamp : Nat) : Change := fun s =>
  if s.engine ≠ .trading then refuse .wrongState s
  else if 65535 < stamp then refuse .badField s
  else withCard card (fun slot c => onMemory fun m => voidCard m slot c merchant stamp) s

def execVoidLast (tag card merchant stamp : Nat) (s : State) : Host.Outcome State Fault Refusal :=
  answerRequest (.voidLast tag card merchant stamp) 23 tag
    (naming [card] (voidLastChange card merchant stamp)) s

end Sys2Proof.Machine
end

