-- ==== Sys2Proof/Machine/Tender.lean ====
section
/-! DEFINITION. Split tender (R90 to R94). -/

namespace Sys2Proof.Machine

/-- A member's result while the tender runs: declined, skipped, or a member hold placed in a slot. -/
inductive MemberResult where
  | skipped
  | declined (reason : DeclineReason)
  | placed (slot : Nat) (record : HoldRecord)
  deriving DecidableEq, Repr

/-- One evaluated member. -/
structure MemberRun where
  card : Nat
  result : MemberResult
  method : Option Method
  freezer : Option Nat
  deriving DecidableEq, Repr

/-- A tender between two members (R91): the state, the remainder, the members so far, the cards the tender is a value
change on, and the flags gathered. -/
structure TenderRun where
  state : State
  remainder : Nat
  members : List MemberRun
  changed : List Nat
  mark : Option Nat
  clamped : Bool
  deriving DecidableEq, Repr

/-- The lower of two entry numbers, where there are any. -/
def lowerEntry (a b : Option Nat) : Option Nat :=
  match a, b with
  | some x, some y => some (min x y)
  | some x, none => some x
  | none, y => y

/-- A card number added to a list that holds each once. -/
def noteCard (number : Nat) (note : Bool) (cards : List Nat) : List Nat :=
  if note && !cards.contains number then cards ++ [number] else cards

/-- A member's record added to the run, its card written back without the value change's bookkeeping, which the
settlement makes once for each card (R93). -/
def TenderRun.record (run : TenderRun) (state : State) (slot : Slot) (card : Card) (wrote : Bool)
    (result : MemberResult) (j : Judged) (drawn : Nat) : TenderRun where
  state := state.withMemory (state.memory.putCard slot card)
  remainder := run.remainder - drawn
  members := run.members ++ [⟨card.number, result, j.method, j.freezer⟩]
  changed := noteCard card.number (wrote || decide (0 < drawn)) run.changed
  mark := lowerEntry run.mark j.mark
  clamped := run.clamped || j.clamped

/-- Step 8 of a member (R91): HOLDS-FULL, POOL-FULL, SHORT at remainder 0, then the drawdown. -/
def placeMember (s : State) (c : Card) (index : Nat) (r : Merchant) (remainder : Nat) (purse : Purse) :
    Except DeclineReason Placed :=
  if remainder = 0 then
    if (s.memory.product c.product).holdsPerCard ≤ c.holds.length then .error .holdsFull
    else if s.memory.freeHoldSlot.isNone then .error .poolFull
    else .error .short
  else s.memory.place c index r remainder purse true .tender s.memory.clock

/-- One member evaluated (R91): skipped, declined, or holding. The merchant is read anew, as the members before it left
it. -/
def TenderRun.member (merchant : Nat) (run : TenderRun) (p : Member) : TenderRun :=
  if p.condition = .whileDue ∧ run.remainder = 0 then
    { run with members := run.members ++ [⟨p.card, .skipped, none, none⟩] }
  else
    match run.state.memory.findCard p.card, run.state.memory.findMerchant merchant with
    | some (slot, c), some (index, r) =>
      let t := run.state.memory.touch c
      let j := judge (run.state.withMemory t.memory) t.card r run.remainder
      match j.verdict with
      | .declined reason => run.record j.state slot j.card t.wrote (.declined reason) j 0
      | .refer _ => run.record j.state slot j.card t.wrote (.declined .needsReferral) j 0
      | .proceed =>
        match placeMember j.state j.card index r run.remainder p.purse with
        | .error reason => run.record j.state slot j.card t.wrote (.declined reason) j 0
        | .ok d =>
          run.record (j.state.withMemory d.memory) slot d.card t.wrote (.placed d.handle.slot d.record) j
            d.record.total
    | _, _ => { run with members := run.members ++ [⟨p.card, .declined .short, none, none⟩] }

/-- A member hold captured in full (R93): every part goes to the merchant, the hold is freed. -/
def captureMember (merchant : Nat) (m : RecordMemory) (n : Nat) (h : HoldRecord) : RecordMemory :=
  match m.findMerchant merchant, m.findCard h.card with
  | some (index, r), some (slot, c) =>
    let handle : Handle := ⟨n, (m.holdSlot n).generation⟩
    ((m.payMerchant index r h.paid h.parts).freeHold n h .settled).putCard slot (c.dropHold handle)
  | _, _ => m

/-- A member hold released (R93): returned to its card by R15, and freed. Gives also whether a part joined a lot. -/
def releaseMember (m : RecordMemory) (n : Nat) (h : HoldRecord) : RecordMemory × Bool :=
  match m.findCard h.card with
  | some (slot, c) =>
    let handle : Handle := ⟨n, (m.holdSlot n).generation⟩
    let back := m.returnValue c h.paid h.parts
    ((back.1.freeHold n h .settled).putCard slot (back.2.1.dropHold handle), anyJoined back.2.2)
  | none => (m, false)

/-- The member holds a run placed, in member order. -/
def TenderRun.holds (run : TenderRun) : List (Nat × HoldRecord) :=
  run.members.filterMap fun p =>
    match p.result with
    | .placed n h => some (n, h)
    | _ => none

/-- How a tender settles (R93): its member holds captured, or released, with the outcome. -/
inductive Settlement where
  | capture (outcome : AnswerOutcome)
  | release (outcome : AnswerOutcome)
  deriving DecidableEq, Repr

/-- The settlement R93 gives. -/
def settlement (placedAny acceptPartial : Bool) (remainder : Nat) (exceeds : Bool) : Settlement :=
  if !placedAny then .release (.declined .short)
  else if remainder = 0 then
    if exceeds then .release (.declined .positionLimit) else .capture .done
  else if acceptPartial then
    if exceeds then .release (.declined .positionLimit) else .capture .inPart
  else .release (.declined .short)

/-- The bookkeeping of the value change on one card (R29, R30, R93). -/
def noteChange (m : RecordMemory) (number : Nat) : RecordMemory :=
  m.mapCard number fun c => c.changed m.today none

/-- What the answer carries for one member after the settlement (R94). -/
def MemberRun.answer (m : RecordMemory) (changed : List Nat) (captured : Bool) (p : MemberRun) : MemberAnswer :=
  let counter :=
    if changed.contains p.card then (m.findCard p.card).map fun e => e.2.counter else none
  match p.result with
  | .skipped => ⟨.skipped, 0, p.method, p.freezer, counter⟩
  | .declined reason => ⟨.declined reason, 0, p.method, p.freezer, counter⟩
  | .placed _ h => ⟨if captured then .taken else .returned, h.total, p.method, p.freezer, counter⟩

/-- Every card of a list has a total value of 0 (R94). -/
def allZero (m : RecordMemory) (cards : List Nat) : Bool :=
  cards.all fun n =>
    match m.findCard n with
    | some (_, c) => zeroFlag m c
    | none => true

/-- The settlement of a run, and the TENDER answer (R93, R94). -/
def TenderRun.settle (run : TenderRun) (merchant amount : Nat) (acceptPartial : Bool) : State × Reply :=
  let placed := amount - run.remainder
  let exceeds :=
    match run.state.memory.findMerchant merchant with
    | some (_, r) => r.position.wouldExceed placed
    | none => false
  let period := (run.state.memory.findMerchant merchant).map fun e => e.2.period
  let cards := run.members.map MemberRun.card
  match settlement (!run.holds.isEmpty) acceptPartial run.remainder exceeds with
  | .capture outcome =>
    let m := run.holds.foldl (fun m d => captureMember merchant m d.1 d.2) run.state.memory
    let m' := run.changed.foldl noteChange m
    (run.state.withMemory m',
      ⟨outcome,
        { zero := allZero m' cards
          short := decide (0 < run.remainder)
          clamped := run.clamped
          bonus := run.holds.any fun d => decide (1 ≤ sumLots d.2.parts)
          watch := run.mark.isSome },
        .tendered (run.members.map (MemberRun.answer m' run.changed true)) placed placed run.remainder run.mark
          period⟩)
  | .release outcome =>
    let r := run.holds.foldl
      (fun acc d => let b := releaseMember acc.1 d.1 d.2; (b.1, acc.2 || b.2)) (run.state.memory, false)
    let m' := run.changed.foldl noteChange r.1
    (run.state.withMemory m',
      ⟨outcome,
        { zero := allZero m' cards
          short := false
          clamped := run.clamped
          bonus := r.2
          watch := run.mark.isSome },
        .tendered (run.members.map (MemberRun.answer m' run.changed false)) placed 0 run.remainder run.mark
          none⟩)

/-- TENDER: the checks of R90 on every member, then the members in order, then the settlement. -/
def tenderChange (merchant amount settle count : Nat) (members : List MemberOperands) : Change := fun s =>
  if s.engine ≠ .trading then refuse .wrongState s
  else if !(inRange 1 maxAmount amount && inRange 1 6 count) then refuse .badField s
  else
    match flagOf settle, convertAll memberOf members with
    | some acceptPartial, some ps =>
      if !ps.all (fun p => wellFormedNumber p.card) then refuse .badNumber s
      else if (s.memory.findMerchant merchant).isNone then refuse .unknownMerchant s
      else if !ps.all (fun p => (s.memory.findCard p.card).isSome) then refuse .unknownCard s
      else
        (ps.foldl (TenderRun.member merchant) ⟨s, amount, [], [], none, false⟩).settle merchant amount acceptPartial
    | _, _ => refuse .badField s

def execTender (tag merchant amount settle count : Nat) (members : List MemberOperands) (s : State) :
    Host.Outcome State Fault Refusal :=
  answerRequest (.tender tag merchant amount settle count members) 21 tag
    (naming (members.map MemberOperands.card) (tenderChange merchant amount settle count members)) s

end Sys2Proof.Machine
end

