-- ==== Sys2Proof/Machine/UpdateSlots.lean ====
section
/-! DEFINITION. The update slots (R193): what a change writes, a change stopped at a stage, and rolling forward. -/

namespace Sys2Proof.Machine

/-! ### Records written -/

/-- Two writes name one record (R193). -/
def RecordWrite.sameRecord : RecordWrite → RecordWrite → Bool
  | .mainCard i _, .mainCard j _ => i == j
  | .poolCard i _, .poolCard j _ => i == j
  | .chain i _, .chain j _ => i == j
  | .product i _, .product j _ => i == j
  | .merchant i _, .merchant j _ => i == j
  | .tier i _, .tier j _ => i == j
  | .sponsor i _, .sponsor j _ => i == j
  | .hold i _, .hold j _ => i == j
  | .watch i _, .watch j _ => i == j
  | .descriptor i _, .descriptor j _ => i == j
  | .sweep _, .sweep _ => true
  | .referralTime _, .referralTime _ => true
  | .nextReferral _, .nextReferral _ => true
  | .clock _, .clock _ => true
  | .today _, .today _ => true
  | _, _ => false

/-- A record given its new contents. -/
def RecordMemory.applyWrite (m : RecordMemory) : RecordWrite → RecordMemory
  | .mainCard i v => { m with mainCards := m.mainCards.write i v }
  | .poolCard i v => { m with poolCards := m.poolCards.write i v }
  | .chain i v => { m with chains := m.chains.write i v }
  | .product i v => { m with products := m.products.write i v }
  | .merchant i v => { m with merchants := m.merchants.write i v }
  | .tier i v => { m with tiers := m.tiers.write i v }
  | .sponsor i v => { m with sponsors := m.sponsors.write i v }
  | .hold i v => { m with holds := m.holds.write i v }
  | .watch i v => { m with watches := m.watches.write i v }
  | .descriptor i v => { m with descriptors := m.descriptors.write i v }
  | .sweep v => { m with sweep := v }
  | .referralTime v => { m with referralTime := v }
  | .nextReferral v => { m with nextReferral := v }
  | .clock v => { m with clock := v }
  | .today v => { m with today := v }

/-- Records given their new contents, in order. -/
def RecordMemory.applyAll (m : RecordMemory) (writes : List RecordWrite) : RecordMemory :=
  writes.foldl RecordMemory.applyWrite m

/-- The writes that make one table another. -/
def tableWrites {α : Type} [DecidableEq α] (a b : Table α) (f : Nat → Option α → RecordWrite) : List RecordWrite :=
  (a.diff b).map fun e => f e.1 e.2

/-- A write made only where a value changed. -/
def valueWrite {α : Type} [DecidableEq α] (a b : α) (w : RecordWrite) : List RecordWrite := if a = b then [] else [w]

/-- Every retained record that differs between two memories, with its new contents (R193). -/
def RecordMemory.writesTo (a b : RecordMemory) : List RecordWrite :=
  tableWrites a.mainCards b.mainCards .mainCard ++ tableWrites a.poolCards b.poolCards .poolCard ++
    tableWrites a.chains b.chains .chain ++ tableWrites a.products b.products .product ++
    tableWrites a.merchants b.merchants .merchant ++ tableWrites a.tiers b.tiers .tier ++
    tableWrites a.sponsors b.sponsors .sponsor ++ tableWrites a.holds b.holds .hold ++
    tableWrites a.watches b.watches .watch ++ tableWrites a.descriptors b.descriptors .descriptor ++
    valueWrite a.sweep b.sweep (.sweep b.sweep) ++
    valueWrite a.referralTime b.referralTime (.referralTime b.referralTime) ++
    valueWrite a.nextReferral b.nextReferral (.nextReferral b.nextReferral) ++
    valueWrite a.clock b.clock (.clock b.clock) ++ valueWrite a.today b.today (.today b.today)

/-- A descriptor with no step credit, as every recovery leaves it (R172). -/
def Descriptor.uncredited (d : Descriptor) : Descriptor := { d with credit := 0 }

/-- The step credits left out: a request's take counts in them beside every other writer's change, and recovery zeroes
them (R159, R172, log 8). -/
def RecordMemory.uncredited (m : RecordMemory) : RecordMemory :=
  { m with descriptors := m.descriptors.update Descriptor.idle Descriptor.uncredited }

/-! ### A change stopped at a stage (R193, R195) -/

/-- The request a message spells, run as its own command. Commands that are no request leave the state as it is. -/
def runRequest (i : Instr) (s : State) : Host.Outcome State Fault Refusal :=
  match i with
  | .badCode code length tag => execBadCode code length tag s
  | .format tag day reading => execFormat tag day reading s
  | .setClock tag reading => execSetClock tag reading s
  | .openTrading tag => execOpenTrading tag s
  | .closeTrading tag => execCloseTrading tag s
  | .closeDay tag => execCloseDay tag s
  | .inquireClock tag => execInquireClock tag s
  | .issue tag card product sponsor life paid bonus => execIssue tag card product sponsor life paid bonus s
  | .load tag card amount => execLoad tag card amount s
  | .grantBonus tag card sponsor life amount => execGrantBonus tag card sponsor life amount s
  | .inquire tag card => execInquire tag card s
  | .freeze tag card => execFreeze tag card s
  | .thaw tag card => execThaw tag card s
  | .lock tag card => execLock tag card s
  | .unlock tag card => execUnlock tag card s
  | .closeCard tag card => execCloseCard tag card s
  | .redeem tag card merchant amount selector sponsor allowPartial =>
      execRedeem tag card merchant amount selector sponsor allowPartial s
  | .hold tag card merchant amount selector sponsor allowPartial life =>
      execHold tag card merchant amount selector sponsor allowPartial life s
  | .capture tag slot generation merchant amount => execCapture tag slot generation merchant amount s
  | .release tag slot generation merchant => execRelease tag slot generation merchant s
  | .inquireHold tag slot generation => execInquireHold tag slot generation s
  | .tender tag merchant amount settle count members => execTender tag merchant amount settle count members s
  | .refund tag card merchant paid count parts => execRefund tag card merchant paid count parts s
  | .voidLast tag card merchant stamp => execVoidLast tag card merchant stamp s
  | .decide tag number decision => execDecide tag number decision s
  | .setReferralTime tag seconds => execSetReferralTime tag seconds s
  | .inquireReferral tag number => execInquireReferral tag number s
  | .defineProduct tag product fields => execDefineProduct tag product fields s
  | .withdrawProduct tag product => execWithdrawProduct tag product s
  | .reinstateProduct tag product => execReinstateProduct tag product s
  | .inquireProduct tag product => execInquireProduct tag product s
  | .defineSponsor tag sponsor => execDefineSponsor tag sponsor s
  | .retireSponsor tag sponsor => execRetireSponsor tag sponsor s
  | .inquireSponsor tag sponsor => execInquireSponsor tag sponsor s
  | .inquireFunds tag => execInquireFunds tag s
  | .defineMerchant tag merchant category trust tier floor allowance period =>
      execDefineMerchant tag merchant category trust tier floor allowance period s
  | .suspendMerchant tag merchant => execSuspendMerchant tag merchant s
  | .reinstateMerchant tag merchant => execReinstateMerchant tag merchant s
  | .closeMerchant tag merchant => execCloseMerchant tag merchant s
  | .inquireMerchant tag form page index merchant => execInquireMerchant tag form page index merchant s
  | .defineTier tag tier rate itemFee minFee maxFee => execDefineTier tag tier rate itemFee minFee maxFee s
  | .inquireTier tag tier => execInquireTier tag tier s
  | .defineWatch tag entry fields => execDefineWatch tag entry fields s
  | .rearmWatch tag entry => execRearmWatch tag entry s
  | .inquireWatch tag entry => execInquireWatch tag entry s
  | .startPayout tag descriptor mode ratio first last label =>
      execStartPayout tag descriptor mode ratio first last label s
  | .stopPayout tag descriptor form => execStopPayout tag descriptor form s
  | .resumePayout tag descriptor => execResumePayout tag descriptor s
  | .inquirePayout tag descriptor => execInquirePayout tag descriptor s
  | _ => .next s

/-- The state after an outcome; a stop leaves it as it was. -/
def outcomeState (s : State) (o : Host.Outcome State Fault Refusal) : State :=
  match o with
  | .next t => t
  | _ => s

/-- What the port's next request would make of the state (R187). -/
def State.nextRequest (s : State) : State :=
  match s.inbound with
  | [] => s
  | m :: _ => outcomeState s (runRequest (readMessage m) s)

/-- The port's next request is a FORMAT that is taken (R190), with its clock operand: a change that uses no slot. -/
def State.formatting (s : State) : Option Nat :=
  match s.inbound with
  | [] => none
  | m :: _ =>
    match readMessage m with
    | .format tag day reading =>
      if (s.take (.format tag day reading)).isSome ∧ s.engine ≠ .trading then some reading else none
    | _ => none

/-- What a FORMAT stopped within its change leaves (R190): the indicator LOST since its step 1, and from its step 5 on,
which the stage SEALED stands for, the reading of its operand (R195, log 29). -/
def State.formatCut (s : State) (reading : Nat) (stage : Stage) : State :=
  { s with
    retention := .lost
    memory := if stage = .filling then s.memory else { s.memory with clock := reading } }

/-- The change of the Payout Engine's slot that was in flight (R193). -/
def State.payoutChange (s : State) : PayoutWriter → State
  | .turn => s.turn
  | .service => s.serveDescriptor

/-- The change of the day sweep's slot that was in flight: the next step, or in ENDING the notice (R193). -/
def State.sweepChange (s : State) : State :=
  if s.memory.sweep.state = .ending then s.serveSweep else s.sweepOnce

/-- The change of the clock expiries' slot that was in flight (R193). -/
def State.expiryChange (s : State) : ExpiryWriter → State
  | .hold slot => outcomeState s (execHoldExpiry slot s)
  | .lapse number => outcomeState s (execLapse number s)
  | .notice => s.serveLapse

/-- A memory with the slots filled so far and the records they name, and the answer queue with the messages of the changes
in flight so far, while a stop is worked out. -/
structure Stopped where
  memory : RecordMemory
  named : List RecordWrite
  answers : List Answer
  deriving DecidableEq, Repr

/-- One writer stopped at a stage (R193): its slot, and the memory with what stage 3 had already applied. A slot whose
check fails had applied nothing. A change that alters no state, or names a record that another SEALED slot names, was
not in flight; one that is in flight has the answer slots it uses (R169, log 8). -/
def Stopped.writer (acc : Stopped) (before after : State) (stage : Stage) : Stopped × UpdateSlot :=
  if before = after then (acc, .empty)
  else
    match stage with
    | .filling => ({ acc with answers := after.answers }, .filling)
    | .sealed checkPasses written applied =>
      let writes := before.memory.uncredited.writesTo after.memory.uncredited
      let amounts := after.memory.funds.sub before.memory.funds
      if writes.any (fun w => acc.named.any (RecordWrite.sameRecord w)) then (acc, .empty)
      else if !checkPasses then
        (⟨acc.memory, acc.named ++ writes, after.answers⟩, .sealed writes amounts false false)
      else
        let m := acc.memory.applyAll (writes.take written)
        (⟨if applied then { m with funds := m.funds.add amounts } else m, acc.named ++ writes,
          after.answers⟩, .sealed writes amounts applied true)

/-- A writer that an interruption may find between its changes. Its change is computed with the answer slots that the
changes in flight before it have left (R169). -/
def Stopped.maybe (acc : Stopped) (s : State) (work : Option ((State → State) × Stage)) : Stopped × UpdateSlot :=
  match work with
  | none => (acc, .empty)
  | some (change, stage) =>
    let before := { s with answers := acc.answers }
    acc.writer before (change before) stage

/-- The four writers stopped, the request path's with the given change (R193). -/
def State.writersCut (s : State) (request : Option ((State → State) × Stage)) (cut : Interruption) : State :=
  let a := Stopped.maybe ⟨s.memory, [], s.answers⟩ s request
  let b := a.1.maybe s (cut.payout.map fun w => (fun t => t.payoutChange w.1, w.2))
  let c := b.1.maybe s (cut.sweep.map fun stage => (State.sweepChange, stage))
  let d := c.1.maybe s (cut.expiry.map fun w => (fun t => t.expiryChange w.1, w.2))
  { s with
    memory := d.1.memory
    slots := ⟨a.2, b.2, c.2, d.2⟩ }

/-- Every writer stopped between or within its changes (R195). A FORMAT in flight uses no slot (R190). -/
def State.interrupted (s : State) (cut : Interruption) : State :=
  match cut.request, s.formatting with
  | some stage, some reading => (s.writersCut none cut).formatCut reading stage
  | request, _ => s.writersCut (request.map fun stage => (State.nextRequest, stage)) cut

/-! ### Rolling forward (R193) -/

/-- One slot rolled forward or discarded (R193). -/
def RecordMemory.rollSlot (m : RecordMemory) : UpdateSlot → RecordMemory
  | .sealed records amounts applied true =>
    let m' := m.applyAll records
    if applied then m' else { m' with funds := m'.funds.add amounts }
  | _ => m

/-- Every slot rolled forward or discarded, in slot order (R193). -/
def RecordMemory.rollForward (m : RecordMemory) (slots : UpdateSlots) : RecordMemory :=
  (((m.rollSlot slots.request).rollSlot slots.payout).rollSlot slots.sweep).rollSlot slots.expiry

end Sys2Proof.Machine
end

