-- ==== Sys2Proof/Machine/Power.lean ====
section
/-! DEFINITION. Power-on, power loss and the engine reset (R192 to R195), with each block's recovery (R51, R95, R128,
R140, R172, R183). -/

namespace Sys2Proof.Machine

/-- Every listed card changed by a function; no card appears or leaves. -/
def RecordMemory.mapCards (m : RecordMemory) (f : Card → Card) : RecordMemory :=
  { m with
    mainCards := List.map (fun e => (e.1, f e.2)) m.mainCards
    poolCards := List.map (fun e => (e.1, f e.2)) m.poolCards }

/-- A watch entry as a recovery leaves it (R140). -/
def WatchEntry.recovered (w : WatchEntry) : WatchEntry :=
  if w.state = .waitSecond then { w with state := .waitFirst } else w

/-- A descriptor as a recovery leaves it (R172). -/
def Descriptor.recovered (d : Descriptor) : Descriptor :=
  { d with
    state := if d.state = .running ∨ d.state = .waiting then .stopped else d.state
    credit := 0 }

/-- The hold a recovery expires next: of those due earliest, the first that `ties` names, else the lowest slot (R86,
R95, log 10). -/
def RecordMemory.recoverNext (m : RecordMemory) (ties : List Nat) : Option (Nat × Nat × HoldRecord) :=
  match ties.findSome? (fun n => m.nextHolds.find? fun d => d.2.1 == n) with
  | some d => some d
  | none => m.nextHolds.head?

/-- The holds whose expiry times have been reached expired, at most `fuel` of them (R95). -/
def RecordMemory.expireDue (m : RecordMemory) (ties : List Nat) : Nat → RecordMemory
  | 0 => m
  | fuel + 1 =>
    match m.recoverNext ties with
    | some d => (m.expireHold d.2.1 d.2.2).expireDue ties fuel
    | none => m

/-- The retained state brought to its recovered values after the slots are rolled forward (R194, steps 4 and 5). -/
def RecordMemory.recovered (m : RecordMemory) (ties : List Nat) : RecordMemory :=
  let c := m.mapCards clearReferralOpen
  let w := { c with
    watches := c.watches.update WatchEntry.formatted WatchEntry.recovered
    descriptors := c.descriptors.update Descriptor.idle Descriptor.recovered }
  w.expireDue ties w.holds.length

/-- The working state every start leaves, the answer number count among it (R185, R194). -/
def State.restarted (s : State) : State :=
  { s.emptyPort with
    powered := true
    slots := UpdateSlots.empty
    overrun := false
    lastNumber := 0
    interruptEnable := false
    waiting := []
    referrals := []
    lapseRecord := []
    armed := []
    lastServed := 3 }

/-- A start with retention intact (R194). -/
def State.recover (s : State) (ties : List Nat) : State :=
  let m := (s.memory.rollForward s.slots).recovered ties
  { s.restarted with
    memory := m
    engine := .setup
    startCause := .resumed
    waiting := if m.sweep.state = .ending then [.sweep] else [] }

/-- A start with retention lost, the reading as given (R194, R195). -/
def State.startCold (s : State) (reading : Nat) : State :=
  { s.restarted with
    memory := RecordMemory.blank 0 0 reading 0
    retention := .lost
    engine := .unformatted
    startCause := .cold }

/-- The retained contents are taken as intact (R192). -/
def State.intact (s : State) : Bool := decide (s.retention = .valid) && s.indicatorCheck

/-- POWER_ON (R194). -/
def execPowerOn (ties : List Nat) (s : State) : Host.Outcome State Fault Refusal :=
  .next (if s.intact then s.recover ties else s.startCold 0)

/-- An engine reset (R195): every writer stopped, then the start R194 gives; with retention lost the reading is kept as the
stopped changes leave it, a SET-CLOCK's slot rolled forward (R193, log 29). -/
def State.resetEngine (s : State) (cut : Interruption) (ties : List Nat) : State :=
  let t := s.interrupted cut
  if t.intact then t.recover ties else t.startCold (t.memory.rollForward t.slots).clock

/-- ENGINE_RESET (R195): a write of 0 has no effect. -/
def execEngineReset (bit : Bool) (cut : Interruption) (ties : List Nat) (s : State) :
    Host.Outcome State Fault Refusal :=
  whenPowered s fun s => if bit then s.resetEngine cut ties else s

/-- POWER_LOSS (R192, R193): every writer stopped, the working state no longer served; a battery failure is recorded in
the indicator. -/
def execPowerLoss (batteryKept checkPasses : Bool) (cut : Interruption) (s : State) :
    Host.Outcome State Fault Refusal :=
  whenPowered s fun s =>
    let t := s.interrupted cut
    { t with
      powered := false
      retention := if batteryKept then t.retention else .lost
      indicatorCheck := t.indicatorCheck && checkPasses }

end Sys2Proof.Machine
end

