-- ==== Sys2Proof/Machine/Window.lean ====
section
/-! DEFINITION. The memory window (R197): what each byte reads, the bytes of answers and notices (R197, R200, R201), and
WINDOW_WRITE. -/

namespace Sys2Proof.Machine

/-! ### Answers as bytes -/

/-- A refusal reason's place in its table (R197). -/
def RefusalReason.place : RefusalReason → Nat
  | .badCode => 1 | .badLength => 2 | .badField => 3 | .badNumber => 4 | .badTime => 5 | .wrongState => 6
  | .tableFull => 7 | .unknownCard => 8 | .unknownProduct => 9 | .unknownMerchant => 10 | .unknownSponsor => 11
  | .unknownHold => 12 | .unknownReferral => 13 | .duplicate => 14 | .inUse => 15 | .holdsOpen => 16 | .dueOpen => 17
  | .sweepBusy => 18 | .runBusy => 19

/-- A decline reason's place in its table (R197). -/
def DeclineReason.place : DeclineReason → Nat
  | .short => 1 | .cardFrozen => 2 | .cardLocked => 3 | .cardExpired => 4 | .cardBusy => 5 | .merchantSuspended => 6
  | .category => 7 | .overLimit => 8 | .loadRange => 9 | .lotsFull => 10 | .holdsFull => 11 | .poolFull => 12
  | .allowance => 13 | .cut => 14 | .stale => 15 | .tooLate => 16 | .referFull => 17 | .needsReferral => 18
  | .watchFrozen => 19 | .denied => 20 | .positionLimit => 21

/-- An outcome's code (R197). -/
def AnswerOutcome.code : AnswerOutcome → Nat
  | .done => 1 | .inPart => 2 | .declined _ => 3 | .referred => 4 | .refused _ => 5 | .notice => 6

/-- An outcome's reason field (R197). -/
def AnswerOutcome.reason : AnswerOutcome → Nat
  | .declined r => r.place
  | .refused r => r.place
  | _ => 0

/-- One bit of the flags byte. -/
def bitValue (b : Bool) (n : Nat) : Nat := if b then 2 ^ n else 0

/-- The flags byte (R197). -/
def AnswerFlags.code (f : AnswerFlags) : Nat :=
  bitValue f.zero 0 + bitValue f.short 1 + bitValue f.clamped 2 + bitValue f.bonus 3 + bitValue f.watch 4

/-- A signed 64-bit field's bits (11.8). -/
def signed (n : Int) : Nat := (BitVec.ofInt 64 n).toNat

/-- A LAPSE-NOTICE's kind and watched request codes (R201). -/
def NoticeKind.codes : NoticeKind → Nat × Nat
  | .debit => (0, 0)
  | .hold => (1, 0)
  | .unlock => (2, 0)
  | .watchRedeem => (3, 16)
  | .watchHold => (3, 17)

/-- The fields of the bodies that the manual lays out, from byte 16 (R200, R201); an empty body has none. The bytes between
the fields of the three bodies of R201, which the rule does not name, hold 0: DESIGN CHOICE (log 38). -/
def AnswerBody.fields : AnswerBody → Option (List (Nat × Nat))
  | .empty => some []
  | .payoutAdvice i index merchant label c =>
      some ([(1, i), (1, 0), (2, index), (4, merchant), (4, label), (4, 0), (8, signed c.net), (8, signed c.fee),
        (8, signed c.payout), (8, signed c.carry)] ++ c.billings.toList.map fun b => (8, signed b))
  | .payoutEnd i r =>
      some [(1, i), (1, 0), (2, r.first), (2, r.last), (2, 0), (4, r.label), (2, r.cut), (2, r.passed),
        (8, signed r.payout), (8, signed r.fees), (8, signed r.billed), (8, signed r.carried)]
  | .lapseNotice n kind tag cardNumber merchant amount =>
      some [(2, n), (1, kind.codes.1), (1, kind.codes.2), (4, tag), (8, cardNumber), (4, merchant), (4, amount), (1, 3),
        (1, 0), (2, DeclineReason.denied.place)]
  | .sweepEnd day swept passed expired lots bonus =>
      some [(2, day), (2, 0), (4, swept), (4, passed), (4, expired), (4, lots), (4, 0), (8, bonus)]
  | _ => none

/-- An answer's length (R197): that of its laid-out body, else 16 to 128 by a free value (log 15). -/
def AnswerBody.length (b : AnswerBody) : Nat :=
  match b.fields with
  | some fs => 16 + (pack fs).length
  | none => 16 + Config.bodyLength b % 113

/-- An answer's header (R197). -/
def Answer.header (a : Answer) : List Byte :=
  pack [(2, a.kind), (1, a.outcome.code), (1, a.flags.code), (4, a.tag), (2, a.outcome.reason), (2, a.body.length),
    (4, a.number)]

/-- One byte of an answer's body, by its offset in the message (R200, R201, log 15); 0 beyond the length (11.8). -/
def Answer.bodyAt (a : Answer) (offset : Nat) : Byte :=
  match a.body.fields with
  | some fs => (pack fs).getD (offset - 16) 0
  | none => if offset < a.body.length then Config.bodyByte a.body offset else 0

/-- One byte of an answer. -/
def Answer.byteAt (a : Answer) (offset : Nat) : Byte :=
  if offset < 16 then a.header.getD offset 0 else a.bodyAt offset

/-! ### Reading the window (R185, R197): no read has a side effect -/

/-- The engine state's code (R197). -/
def EngineState.code : EngineState → Nat
  | .unformatted => 0 | .setup => 1 | .trading => 2

/-- The start cause's code (R197). -/
def StartCause.code : StartCause → Nat
  | .none => 0 | .resumed => 1 | .cold => 2

/-- The retention indicator's code (R197). -/
def Retention.code : Retention → Nat
  | .lost => 0 | .valid => 1

/-- The status words' bytes, from offset 0x100 (R197); the write-only words read 0. Byte 3 of the queue levels and the bits
that R197 gives no content in the words at 0x108 and 0x10C read 0: DESIGN CHOICE (log 37). -/
def State.statusBytes (s : State) : List Byte :=
  pack [(1, s.engine.code), (1, s.startCause.code), (1, s.retention.code), (1, s.waiting.length),
    (1, s.inbound.length), (1, s.answers.length), (1, bitValue s.burstHeld 0), (1, 0),
    (4, bitValue s.overrun 0), (4, bitValue s.interruptEnable 0), (4, 0), (4, 0), (4, s.lastNumber)]

/-- The byte that a window offset reads; none outside the layout. -/
def State.readByte (s : State) (offset : Nat) : Option Byte :=
  if offset < 0x80 then some (s.postArea.getD offset 0)
  else if offset < 0x100 then
    match s.answers with
    | [] => some 0
    | a :: _ => some (a.byteAt (offset - 0x80))
  else if offset < 0x11C then some (s.statusBytes.getD (offset - 0x100) 0)
  else none

/-! ### WINDOW_WRITE (R197) -/

/-- The bytes of a write that fall in the post area stored there; the answer area and the read-only words take
none. -/
def State.storePost (s : State) (offset : Nat) : List Byte → State
  | [] => s
  | b :: bs => { s with postArea := s.postArea.set offset b }.storePost (offset + 1) bs

/-- No writer in the middle of a change. -/
def Interruption.between : Interruption := ⟨none, none, none, none⟩

/-- The control word written (R186, R195, R197): the enable from bit 0, then a reset when bit 1 is set (log 16). -/
def State.writeControl (s : State) (value : Nat) : State :=
  let t := s.setEnable (value.testBit 0)
  if value.testBit 1 then t.resetEngine Interruption.between [] else t

/-- A 32-bit write inside the window (R197, log 16). -/
def State.writeWindow (s : State) (offset value : Nat) : State :=
  if offset = 0x108 then s.writeOverrun (value.testBit 0)
  else if offset = 0x10C then s.writeControl value
  else if offset = 0x110 then s.post
  else if offset = 0x114 then s.releaseAnswer
  else s.storePost offset (writeLE 4 value)

/-- WINDOW_WRITE (R197): an offset outside the layout stops the model (log 16). -/
def execWindowWrite (offset value : Nat) (s : State) : Host.Outcome State Fault Refusal :=
  if 0x11C < offset + 4 then .fault (.outsideWindow offset)
  else whenPowered s fun s => s.writeWindow offset value

end Sys2Proof.Machine
end

