-- ==== Sys2Proof/Machine/Dispatch.lean ====
section
/-! DEFINITION. The meaning of every command. -/

namespace Sys2Proof.Machine

def exec (i : Instr) (s : State) : Host.Outcome State Fault Refusal :=
  match i with
  | .postWord value => Sys2Proof.Machine.execPostWord value s
  | .overrunFlag bit => Sys2Proof.Machine.execOverrunFlag bit s
  | .releaseWord value => Sys2Proof.Machine.execReleaseWord value s
  | .interruptEnable bit => Sys2Proof.Machine.execInterruptEnable bit s
  | .engineReset bit cut ties => Sys2Proof.Machine.execEngineReset bit cut ties s
  | .windowWrite offset value => Sys2Proof.Machine.execWindowWrite offset value s
  | .powerOn ties => Sys2Proof.Machine.execPowerOn ties s
  | .linkReset => Sys2Proof.Machine.execLinkReset s
  | .clockTick => Sys2Proof.Machine.execClockTick s
  | .badCode code length tag => Sys2Proof.Machine.execBadCode code length tag s
  | .format tag day reading => Sys2Proof.Machine.execFormat tag day reading s
  | .setClock tag reading => Sys2Proof.Machine.execSetClock tag reading s
  | .openTrading tag => Sys2Proof.Machine.execOpenTrading tag s
  | .closeTrading tag => Sys2Proof.Machine.execCloseTrading tag s
  | .closeDay tag => Sys2Proof.Machine.execCloseDay tag s
  | .inquireClock tag => Sys2Proof.Machine.execInquireClock tag s
  | .issue tag card product sponsor life paid bonus => Sys2Proof.Machine.execIssue tag card product sponsor life paid bonus s
  | .load tag card amount => Sys2Proof.Machine.execLoad tag card amount s
  | .grantBonus tag card sponsor life amount => Sys2Proof.Machine.execGrantBonus tag card sponsor life amount s
  | .inquire tag card => Sys2Proof.Machine.execInquire tag card s
  | .freeze tag card => Sys2Proof.Machine.execFreeze tag card s
  | .thaw tag card => Sys2Proof.Machine.execThaw tag card s
  | .lock tag card => Sys2Proof.Machine.execLock tag card s
  | .unlock tag card => Sys2Proof.Machine.execUnlock tag card s
  | .closeCard tag card => Sys2Proof.Machine.execCloseCard tag card s
  | .redeem tag card merchant amount selector sponsor allowPartial => Sys2Proof.Machine.execRedeem tag card merchant amount selector sponsor allowPartial s
  | .hold tag card merchant amount selector sponsor allowPartial life => Sys2Proof.Machine.execHold tag card merchant amount selector sponsor allowPartial life s
  | .capture tag slot generation merchant amount => Sys2Proof.Machine.execCapture tag slot generation merchant amount s
  | .release tag slot generation merchant => Sys2Proof.Machine.execRelease tag slot generation merchant s
  | .inquireHold tag slot generation => Sys2Proof.Machine.execInquireHold tag slot generation s
  | .tender tag merchant amount settle count members => Sys2Proof.Machine.execTender tag merchant amount settle count members s
  | .refund tag card merchant paid count parts => Sys2Proof.Machine.execRefund tag card merchant paid count parts s
  | .voidLast tag card merchant stamp => Sys2Proof.Machine.execVoidLast tag card merchant stamp s
  | .decide tag number decision => Sys2Proof.Machine.execDecide tag number decision s
  | .setReferralTime tag seconds => Sys2Proof.Machine.execSetReferralTime tag seconds s
  | .inquireReferral tag number => Sys2Proof.Machine.execInquireReferral tag number s
  | .defineProduct tag product fields => Sys2Proof.Machine.execDefineProduct tag product fields s
  | .withdrawProduct tag product => Sys2Proof.Machine.execWithdrawProduct tag product s
  | .reinstateProduct tag product => Sys2Proof.Machine.execReinstateProduct tag product s
  | .inquireProduct tag product => Sys2Proof.Machine.execInquireProduct tag product s
  | .defineSponsor tag sponsor => Sys2Proof.Machine.execDefineSponsor tag sponsor s
  | .retireSponsor tag sponsor => Sys2Proof.Machine.execRetireSponsor tag sponsor s
  | .inquireSponsor tag sponsor => Sys2Proof.Machine.execInquireSponsor tag sponsor s
  | .inquireFunds tag => Sys2Proof.Machine.execInquireFunds tag s
  | .defineMerchant tag merchant category trust tier floor allowance period => Sys2Proof.Machine.execDefineMerchant tag merchant category trust tier floor allowance period s
  | .suspendMerchant tag merchant => Sys2Proof.Machine.execSuspendMerchant tag merchant s
  | .reinstateMerchant tag merchant => Sys2Proof.Machine.execReinstateMerchant tag merchant s
  | .closeMerchant tag merchant => Sys2Proof.Machine.execCloseMerchant tag merchant s
  | .inquireMerchant tag form page index merchant => Sys2Proof.Machine.execInquireMerchant tag form page index merchant s
  | .defineTier tag tier rate itemFee minFee maxFee => Sys2Proof.Machine.execDefineTier tag tier rate itemFee minFee maxFee s
  | .inquireTier tag tier => Sys2Proof.Machine.execInquireTier tag tier s
  | .defineWatch tag entry fields => Sys2Proof.Machine.execDefineWatch tag entry fields s
  | .rearmWatch tag entry => Sys2Proof.Machine.execRearmWatch tag entry s
  | .inquireWatch tag entry => Sys2Proof.Machine.execInquireWatch tag entry s
  | .startPayout tag descriptor mode ratio first last label => Sys2Proof.Machine.execStartPayout tag descriptor mode ratio first last label s
  | .stopPayout tag descriptor form => Sys2Proof.Machine.execStopPayout tag descriptor form s
  | .resumePayout tag descriptor => Sys2Proof.Machine.execResumePayout tag descriptor s
  | .inquirePayout tag descriptor => Sys2Proof.Machine.execInquirePayout tag descriptor s
  | .holdExpiry slot => Sys2Proof.Machine.execHoldExpiry slot s
  | .lapse number => Sys2Proof.Machine.execLapse number s
  | .windowExpiry entry card => Sys2Proof.Machine.execWindowExpiry entry card s
  | .turn => Sys2Proof.Machine.execTurn s
  | .descriptorService => Sys2Proof.Machine.execDescriptorService s
  | .lapseNotice => Sys2Proof.Machine.execLapseNotice s
  | .sweepStep => Sys2Proof.Machine.execSweepStep s
  | .sweepEnd => Sys2Proof.Machine.execSweepEnd s
  | .powerLoss batteryKept checkPasses cut => Sys2Proof.Machine.execPowerLoss batteryKept checkPasses cut s

end Sys2Proof.Machine
end

