-- ==== Sys2Proof/Safety.lean ====
section
/-! DEFINITION. What a sound state is: the invariants that claims use. -/

namespace Sys2Proof.Machine

/-- Every sparse table of Record Memory is in its canonical form. -/
def RecordMemory.tablesWf (m : RecordMemory) : Bool :=
  m.mainCards.rising && m.poolCards.rising && m.chains.wf [] && m.products.wf Product.unused &&
    m.merchants.wf Merchant.unused && m.tiers.wf Tier.zero && m.sponsors.wf SponsorState.unused &&
    m.holds.wf HoldSlot.free && m.watches.wf WatchEntry.formatted && m.descriptors.wf Descriptor.idle

/-- A record's new contents are not its unlisted value spelt out. -/
def RecordWrite.wf : RecordWrite → Bool
  | .chain _ (some v) => decide (v ≠ [])
  | .product _ (some v) => decide (v ≠ Product.unused)
  | .merchant _ (some v) => decide (v ≠ Merchant.unused)
  | .tier _ (some v) => decide (v ≠ Tier.zero)
  | .sponsor _ (some v) => decide (v ≠ SponsorState.unused)
  | .hold _ (some v) => decide (v ≠ HoldSlot.free)
  | .watch _ (some v) => decide (v ≠ WatchEntry.formatted)
  | .descriptor _ (some v) => decide (v ≠ Descriptor.idle)
  | _ => true

/-- A slot's contents keep the tables canonical when they are rolled forward. -/
def UpdateSlot.wf : UpdateSlot → Bool
  | .sealed records _ _ _ => records.all RecordWrite.wf
  | _ => true

/-- The machine's tables, and what its update slots would write, are in canonical form. -/
def State.tablesWf (s : State) : Bool :=
  s.memory.tablesWf && s.armed.wf [] && s.slots.request.wf && s.slots.payout.wf && s.slots.sweep.wf && s.slots.expiry.wf

/-- The left side of the conservation law less its right side (R19). -/
def Funds.imbalance (f : Funds) : Total :=
  f.cashIn + sumSponsors f.granted + f.writeOff -
    (f.paidLiability + sumSponsors f.liability + f.due + f.paidOut + f.fees + sumSponsors f.expired + f.cashOut)

/-- The conservation law of the fund totals (R19). -/
def Funds.balanced (f : Funds) : Prop := f.imbalance = 0

/-- The amounts a slot still has to add balance too; amounts already applied stand in the totals (R19, R193). -/
def UpdateSlot.balanced : UpdateSlot → Prop
  | .sealed _ amounts _ _ => amounts.balanced
  | _ => True

/-- The law holds of the totals and of every slot's amounts, so that every recovery keeps it. -/
def State.conserves (s : State) : Prop :=
  s.memory.funds.balanced ∧ s.slots.request.balanced ∧ s.slots.payout.balanced ∧ s.slots.sweep.balanced ∧
    s.slots.expiry.balanced

/-- The queues hold no more than their capacities (R113, R131, R184, R185). -/
def State.queuesFit (s : State) : Prop :=
  s.inbound.length ≤ inboundCapacity ∧ s.answers.length ≤ answerCapacity ∧
    s.referrals.length ≤ referralPlaces ∧ s.lapseRecord.length ≤ lapsePlaces ∧
    ∀ e ∈ s.armed, e.2.length ≤ armedPlaces

/-! ### The tables agree with one another -/

/-- The cards present in the Card Table (R32). -/
def RecordMemory.cards (m : RecordMemory) : List Card := m.mainCards.map Prod.snd ++ m.poolCards.map Prod.snd

/-- The records of the OPEN holds (R77). -/
def RecordMemory.openHolds (m : RecordMemory) : List HoldRecord := m.holds.filterMap fun e => e.2.record

/-- One sponsor's amounts in a list of lots or parts, as a fund total counts them. -/
def sponsorMoney (s : Fin 8) (lots : List Lot) : Total :=
  ((lots.filter fun l => l.sponsor = s).map fun l => money l.amount).sum

/-- The liability totals and due agree with the cards, the OPEN holds and the used merchants (R20). -/
structure RecordMemory.LiabilitiesAgree (m : RecordMemory) : Prop where
  paid : m.funds.paidLiability =
    (m.cards.map fun c => money c.paid).sum + (m.openHolds.map fun h => money h.paid).sum
  bonus : ∀ s : Fin 8, m.funds.liability[s] =
    (m.cards.map fun c => sponsorMoney s c.lots).sum + (m.openHolds.map fun h => sponsorMoney s h.parts).sum
  due : m.funds.due = ((m.merchants.filter fun e => e.2.used).map fun e => moneyInt e.2.position.due).sum

/-- A lookup finds every present card in its own slot (R33), each product counts its cards (R53), lots stand in lot order
(R2), and a card still has the paid value of a LOAD that is its last movement (R30). -/
structure RecordMemory.CardsAgree (m : RecordMemory) : Prop where
  found : ∀ slot c, m.cardAt slot = some c → m.findCard c.number = some (slot, c)
  issued : ∀ i, (m.product i).issued = m.cards.countP fun c => c.product = i
  unused : ∀ i, (m.product i).state = .unused → (m.product i).issued = 0
  lots : ∀ c ∈ m.cards, c.lots.Pairwise fun a b => lotBefore a b = true
  load : ∀ c ∈ m.cards, ∀ v, c.last = some v → v.kind = .load → v.paid ≤ c.paid

/-- The OPEN holds and the hold lists name one another (R28), and the merchants count them (R77). -/
structure RecordMemory.HoldsAgree (m : RecordMemory) : Prop where
  listed : ∀ n h, (m.holdSlot n).record = some h →
    ∃ slot c, m.findCard h.card = some (slot, c) ∧ ⟨n, (m.holdSlot n).generation⟩ ∈ c.holds
  named : ∀ c ∈ m.cards, c.holds.Nodup ∧ ∀ k ∈ c.holds, (m.holdSlot k.slot).generation = k.generation ∧
    ∃ h, (m.holdSlot k.slot).record = some h ∧ h.card = c.number
  parts : ∀ h ∈ m.openHolds, h.parts.Pairwise fun a b => lotBefore a b = true
  merchant : ∀ h ∈ m.openHolds, ∃ e, m.findMerchant h.merchant = some e
  merchants : ∀ e ∈ m.merchants, e.2.used = true → m.findMerchant e.2.id = some e
  counted : ∀ e ∈ m.merchants, e.2.used = true →
    e.2.openHolds = m.openHolds.countP fun h => h.merchant = e.2.id

/-- The retained tables agree with one another (R20, R28, R33, R53, R77). -/
structure RecordMemory.Agrees (m : RecordMemory) : Prop where
  liabilities : m.LiabilitiesAgree
  cards : m.CardsAgree
  holds : m.HoldsAgree

/-- The Referral Queue's entries have numbers and cards of their own, and a card's referral-open flag is set exactly while
an entry of the queue is the card's (R113). -/
structure State.ReferralsAgree (s : State) : Prop where
  numbers : (s.referrals.map Referral.number).Nodup
  cards : (s.referrals.map Referral.card).Nodup
  entries : ∀ e ∈ s.referrals, ∃ slot c, s.memory.findCard e.card = some (slot, c) ∧ c.referralOpen = true
  flags : ∀ c ∈ s.memory.cards, c.referralOpen = true → ∃ e ∈ s.referrals, e.card = c.number

/-- The records agree as the port can observe them: on a powered board as they stand, its slots EMPTY between changes, and
on a board without power as the next start rolls them forward (R20, R193). -/
structure State.Agrees (s : State) : Prop where
  between : s.powered = true → s.slots = UpdateSlots.empty
  records : (s.memory.rollForward s.slots).Agrees
  referrals : s.powered = true → s.ReferralsAgree

/-- On a powered board a watch entry is in WAIT-SECOND exactly while its armed-card list is not empty (R129). -/
def State.watchesAgree (s : State) : Prop :=
  s.powered = true → ∀ i, i < 16 → ((s.memory.watchEntry i).state = .waitSecond ↔ s.armedList i ≠ [])

/-- A step that stops on no fault and no refusal. -/
def runs (o : Host.Outcome State Fault Refusal) : Bool :=
  match o with
  | .next _ => true
  | _ => false

end Sys2Proof.Machine
end

