-- ==== Sys2Proof/WellFormed.lean ====
section
/-! DEFINITION. Well-formed commands: every operand fits the field that carries it (R197 to R199), a list agrees
with its count, a BAD_CODE's length does not fit its code, and a command that names a record names one that can
exist. -/

namespace Sys2Proof

/-- A number fits a field of so many bytes. -/
def fits (size n : Nat) : Bool := n < 256 ^ size

/-- Every field of a message fits its size. -/
def fieldsFit (fields : List (Nat × Nat)) : Bool := fields.all fun f => fits f.1 f.2

/-- A TENDER's or REFUND's list agrees with its count: inside the range it has that many entries, outside it none
is read (R187). -/
def countAgrees (least most count entries : Nat) : Bool :=
  if least ≤ count ∧ count ≤ most then entries = count else entries = 0

/-- The well-formed commands. -/
def Instr.wellFormed (i : Instr) : Bool :=
  match i with
  | .windowWrite offset value => offset + 4 ≤ 0x11C && fits 4 value
  | .postWord value | .releaseWord value => fits 4 value
  | .holdExpiry slot => slot < 16384
  | .lapse number => 1 ≤ number && number ≤ 65535
  | .windowExpiry entry card => entry < 16 && fits 8 card
  | .badCode code length tag => fits 2 code && fits 2 length && fits 4 tag && fixedLength code ≠ some length
  | .tender _ _ _ _ count members =>
      countAgrees 1 6 count members.length && (i.fields.map fieldsFit).getD true
  | .refund _ _ _ _ count parts =>
      countAgrees 0 4 count parts.length && (i.fields.map fieldsFit).getD true
  | _ => (i.fields.map fieldsFit).getD true

end Sys2Proof
end

