-- ==== Sys2Proof/Certificates/Slice0/Obligations.lean ====
section
/-! DEFINITION. The statements for the provers. -/

open Sys2Proof Sys2Proof.Machine

/-! ### The queue of commands, and the Request Port -/

/-- A step runs the command at the front of the queue on the state with the queue's rest; on an empty queue the block
idles. The queue is the model's own (log 1). -/
def Obligations.StepRunsTheFrontCommand : Prop :=
  ∀ (s : State) (i : Instr) (rest : List Instr),
    step { s with pending := i :: rest } = exec i { s with pending := rest } ∧
      step { s with pending := [] } = .next { s with pending := [] }

/-- R187, R159, R165: when the port takes a message, and what the take does before the request's own change. That an
unpowered board takes none is log 13; that the command named is the one the oldest message reads as is log 2. -/
def Obligations.TakeNeedsMessageSlotAndNoBurst : Prop :=
  ∀ (s t : State) (i : Instr),
    (s.take i = some t ↔
      s.powered = true ∧ s.answers.length < 64 ∧
        (∀ d, d < 4 → (s.memory.descriptor d).mode = .burst →
          (s.memory.descriptor d).state ≠ .running ∧ (s.memory.descriptor d).state ≠ .waiting) ∧
        ∃ m rest, s.inbound = m :: rest ∧ readMessage m = i ∧
          t = { s with
            inbound := rest
            memory := { s.memory with
              descriptors := s.memory.descriptors.update Descriptor.idle Descriptor.credited } }) ∧
    (s.memory.descriptors.rising = true → s.take i = some t → ∀ d,
      t.memory.descriptor d =
        if (s.memory.descriptor d).mode = .step ∧
            ((s.memory.descriptor d).state = .running ∨ (s.memory.descriptor d).state = .waiting) then
          { s.memory.descriptor d with credit := min 64 ((s.memory.descriptor d).credit + 1) }
        else s.memory.descriptor d)

/-- R187: a taken request has exactly one answer, with its own tag and the next answer number; only CLOSE-TRADING's is
followed by notices of its own change. A request that cannot be taken leaves the state as it is (log 2). -/
def Obligations.EveryRequestTakenIsAnsweredOnce : Prop :=
  ∀ (s : State) (i : Instr), i.fields ≠ none →
    (s.take i = none → exec i s = .next s) ∧
    ∀ (t : State) (m : Message) (rest : List Message), s.inbound = m :: rest → s.take i = some t →
      ∃ (u : State) (a : Answer) (notices : List Answer),
        exec i s = .next u ∧ u.answers = s.answers ++ a :: notices ∧ u.inbound = rest ∧
          a.tag = field m 4 4 ∧ a.number = (s.lastNumber + 1) % 4294967296 ∧ a.outcome ≠ .notice ∧
          (∀ n ∈ notices, n.outcome = .notice) ∧ (notices ≠ [] → ∃ tag, i = .closeTrading tag)

/-- R184, R196: the post word copies the post area to the end of the queue, or sets the overrun flag at 32 messages; the
flag is cleared by a 1 and kept by a 0; a link reset empties the two queues and the post area, and nothing else. An empty
post area holds zeros (log 5). -/
def Obligations.PostingAndLinkReset : Prop :=
  ∀ (s : State) (value : Nat), s.powered = true →
    (s.inbound.length < 32 → exec (.postWord value) s = .next { s with inbound := s.inbound ++ [s.postArea] }) ∧
    (32 ≤ s.inbound.length → exec (.postWord value) s = .next { s with overrun := true }) ∧
    exec (.overrunFlag true) s = .next { s with overrun := false } ∧
    exec (.overrunFlag false) s = .next s ∧
    exec .linkReset s = .next { s with inbound := [], answers := [], postArea := List.replicate 128 0 }

/-- R185, R186: the release word and the interrupt enable, with the interrupt messages they send; a message that enters
an empty queue sends one while the enable is set. The count of messages sent is the model's own (log 14). -/
def Obligations.ReleaseAndEnableSendInterrupts : Prop :=
  ∀ (s : State) (value : Nat) (bit : Bool), s.powered = true →
    (s.answers = [] → exec (.releaseWord value) s = .next s) ∧
    (∀ a rest, s.answers = a :: rest →
      exec (.releaseWord value) s = .next { s with
        answers := rest
        interruptsSent := s.interruptsSent + if rest ≠ [] ∧ s.interruptEnable = true then 1 else 0 }) ∧
    exec (.interruptEnable bit) s = .next { s with
      interruptEnable := bit
      interruptsSent := s.interruptsSent +
        if bit = true ∧ s.interruptEnable = false ∧ s.answers ≠ [] then 1 else 0 } ∧
    ∀ kind o f tag b, (s.enter kind o f tag b).interruptsSent =
      s.interruptsSent + if s.answers = [] ∧ s.interruptEnable = true then 1 else 0

/-- R197: a window write stores its bytes in the post area, or acts as the word it names; a read-only word takes none.
The width of a write, the order within the control word and the stop outside the layout are the model's (log 16). -/
def Obligations.WindowWriteReachesItsWord : Prop :=
  ∀ (s : State) (offset value : Nat), s.powered = true →
    (offset + 4 ≤ 0x80 → ∃ u, exec (.windowWrite offset value) s = .next u ∧
      u = { s with postArea := u.postArea } ∧ u.postArea.length = s.postArea.length ∧
      ∀ k, k < s.postArea.length → u.postArea.getD k 0 =
        if offset ≤ k ∧ k < offset + 4 then BitVec.ofNat 8 (value / 256 ^ (k - offset)) else s.postArea.getD k 0) ∧
    exec (.windowWrite 0x108 value) s = exec (.overrunFlag (value.testBit 0)) s ∧
    (value.testBit 1 = false → exec (.windowWrite 0x10C value) s = exec (.interruptEnable (value.testBit 0)) s) ∧
    (value.testBit 1 = true → exec (.windowWrite 0x10C value) s =
      exec (.engineReset true ⟨none, none, none, none⟩ []) (s.setEnable (value.testBit 0))) ∧
    exec (.windowWrite 0x110 value) s = exec (.postWord value) s ∧
    exec (.windowWrite 0x114 value) s = exec (.releaseWord value) s ∧
    (s.postArea.length = 128 → 0x80 ≤ offset → offset + 4 ≤ 0x108 → exec (.windowWrite offset value) s = .next s) ∧
    (s.postArea.length = 128 → exec (.windowWrite 0x118 value) s = .next s) ∧
    (0x11C < offset + 4 → exec (.windowWrite offset value) s = .fault (.outsideWindow offset))

/-- R185, R197, R200, R201: what the window's named bytes and bits read: the post area, an EMPTY slot, the oldest answer's
header and the bodies of the four notices, the status words, and the words that are written only. That reading is a function
of the state is log 31; the bytes and bits that the layouts do not name are not stated (logs 37 and 38). -/
def Obligations.WindowShowsTheOldestAnswer : Prop :=
  ∀ s : State,
    let shows := fun offset size value : Nat =>
      ∀ j, j < size → s.readByte (offset + j) = some (BitVec.ofNat 8 (value / 256 ^ j))
    let held := fun d => (s.memory.descriptor d).mode = .burst ∧
      ((s.memory.descriptor d).state = .running ∨ (s.memory.descriptor d).state = .waiting)
    let money := fun n : Int => (BitVec.ofInt 64 n).toNat
    (∀ k, k < 0x80 → s.readByte k = some (s.postArea.getD k 0)) ∧
    (s.answers = [] → ∀ k, k < 0x80 → s.readByte (0x80 + k) = some 0) ∧
    (shows 0x100 1 (match s.engine with | .unformatted => 0 | .setup => 1 | .trading => 2) ∧
      shows 0x101 1 (match s.startCause with | .none => 0 | .resumed => 1 | .cold => 2) ∧
      shows 0x102 1 (match s.retention with | .lost => 0 | .valid => 1) ∧
      shows 0x103 1 s.waiting.length ∧ shows 0x104 1 s.inbound.length ∧ shows 0x105 1 s.answers.length ∧
      ((∃ d, d < 4 ∧ held d) → shows 0x106 1 1) ∧ ((∀ d, d < 4 → ¬ held d) → shows 0x106 1 0) ∧
      (s.readByte 0x108).map (fun b => b.getLsbD 0) = some s.overrun ∧
      (s.readByte 0x10C).map (fun b => (b.getLsbD 0, b.getLsbD 1)) = some (s.interruptEnable, false) ∧
      shows 0x110 4 0 ∧ shows 0x114 4 0 ∧ shows 0x118 4 s.lastNumber) ∧
    ∀ a rest, s.answers = a :: rest →
      let bit := fun (b : Bool) n => if b = true then 2 ^ n else 0
      (shows 0x80 2 a.kind ∧
        shows 0x82 1 (match a.outcome with
          | .done => 1 | .inPart => 2 | .declined _ => 3 | .referred => 4 | .refused _ => 5 | .notice => 6) ∧
        shows 0x83 1 (bit a.flags.zero 0 + bit a.flags.short 1 + bit a.flags.clamped 2 + bit a.flags.bonus 3 +
          bit a.flags.watch 4) ∧
        shows 0x84 4 a.tag ∧
        shows 0x88 2 (match a.outcome with
          | .refused r => 1 + [RefusalReason.badCode, .badLength, .badField, .badNumber, .badTime, .wrongState, .tableFull,
              .unknownCard, .unknownProduct, .unknownMerchant, .unknownSponsor, .unknownHold, .unknownReferral, .duplicate,
              .inUse, .holdsOpen, .dueOpen, .sweepBusy, .runBusy].idxOf r
          | .declined r => 1 + [DeclineReason.short, .cardFrozen, .cardLocked, .cardExpired, .cardBusy, .merchantSuspended,
              .category, .overLimit, .loadRange, .lotsFull, .holdsFull, .poolFull, .allowance, .cut, .stale, .tooLate,
              .referFull, .needsReferral, .watchFrozen, .denied, .positionLimit].idxOf r
          | _ => 0) ∧
        shows 0x8C 4 a.number ∧
        ∃ n, 16 ≤ n ∧ n ≤ 128 ∧ shows 0x8A 2 n ∧ ∀ k, n ≤ k → k < 0x80 → s.readByte (0x80 + k) = some 0) ∧
      (∀ i index merchant label c, a.body = .payoutAdvice i index merchant label c →
        shows 0x8A 2 128 ∧ shows 0x90 1 i ∧ shows 0x91 1 0 ∧ shows 0x92 2 index ∧ shows 0x94 4 merchant ∧
        shows 0x98 4 label ∧ shows 0x9C 4 0 ∧ shows 0xA0 8 (money c.net) ∧ shows 0xA8 8 (money c.fee) ∧
        shows 0xB0 8 (money c.payout) ∧ shows 0xB8 8 (money c.carry) ∧
        ∀ x : Fin 8, shows (0xC0 + 8 * x.val) 8 (money c.billings[x])) ∧
      (∀ i r, a.body = .payoutEnd i r →
        shows 0x8A 2 64 ∧ shows 0x90 1 i ∧ shows 0x92 2 r.first ∧ shows 0x94 2 r.last ∧ shows 0x98 4 r.label ∧
        shows 0x9C 2 r.cut ∧ shows 0x9E 2 r.passed ∧ shows 0xA0 8 (money r.payout) ∧ shows 0xA8 8 (money r.fees) ∧
        shows 0xB0 8 (money r.billed) ∧ shows 0xB8 8 (money r.carried)) ∧
      (∀ n kind tag card merchant amount, a.body = .lapseNotice n kind tag card merchant amount →
        shows 0x8A 2 44 ∧ shows 0x90 2 n ∧
        shows 0x92 1 (match kind with | .debit => 0 | .hold => 1 | .unlock => 2 | .watchRedeem => 3 | .watchHold => 3) ∧
        shows 0x93 1 (match kind with | .watchRedeem => 16 | .watchHold => 17 | _ => 0) ∧ shows 0x94 4 tag ∧
        shows 0x98 8 card ∧ shows 0xA0 4 merchant ∧ shows 0xA4 4 amount ∧ shows 0xA8 1 3 ∧ shows 0xAA 2 20) ∧
      ∀ day swept passed expired lots bonus, a.body = .sweepEnd day swept passed expired lots bonus →
        shows 0x8A 2 48 ∧ shows 0x90 2 day ∧ shows 0x94 4 swept ∧ shows 0x98 4 passed ∧ shows 0x9C 4 expired ∧
        shows 0xA0 4 lots ∧ shows 0xA8 8 bonus

/-- R187: a message that decodes to no request is answered BAD-CODE or BAD-LENGTH, and nothing else changes. -/
def Obligations.UndecodedMessageIsRefused : Prop :=
  ∀ (s t : State) (code length tag : Nat), s.take (.badCode code length tag) = some t →
    exec (.badCode code length tag) s = .next (t.enter
      (if code = 0 ∨ 65532 ≤ code then 65531 else code)
      (.refused (if 1 ≤ code ∧ code ≤ 48 then .badLength else .badCode)) AnswerFlags.none tag .empty)

/-! ### The clock, the day and the sweep -/

/-- R173, R175, R183: the clock counts a second in SETUP and TRADING and stops at its top; SET-CLOCK moves it forward only.
That the same tick counts the backup oscillator's second on a board without power is log 13. -/
def Obligations.ClockCountsAndIsSetForward : Prop :=
  (∀ s : State, s.engine ≠ .unformatted →
    exec .clockTick s = .next { s with memory := { s.memory with clock := min 4294967295 (s.memory.clock + 1) } }) ∧
  (∀ s : State, s.engine = .unformatted → exec .clockTick s = .next s) ∧
  ∀ (s t : State) (tag reading : Nat), s.take (.setClock tag reading) = some t →
    (t.memory.clock ≤ reading → exec (.setClock tag reading) s = .next
      (({ t with memory := { t.memory with clock := reading } } : State).enter 2 .done AnswerFlags.none tag
        (.clockSet t.memory.clock reading))) ∧
    (reading < t.memory.clock → exec (.setClock tag reading) s = .next
      (t.enter 2 (.refused .badTime) AnswerFlags.none tag (.clockSet t.memory.clock t.memory.clock)))

/-- R177, R182: CLOSE-DAY advances the day and starts the walk, and is refused while a walk is in flight or at the last
day; INQUIRE-CLOCK reads the clock, the day and the unit. Where both refusals apply, SWEEP-BUSY comes first by the model's
choice (log 39). -/
def Obligations.CloseDayStartsTheWalk : Prop :=
  ∀ (s t : State) (tag : Nat), t.engine ≠ .unformatted →
    (s.take (.closeDay tag) = some t →
      (t.memory.sweep.state ≠ .idle → exec (.closeDay tag) s = .next
        (t.enter 5 (.refused .sweepBusy) AnswerFlags.none tag .empty)) ∧
      (t.memory.sweep.state = .idle → t.memory.today = 65535 → exec (.closeDay tag) s = .next
        (t.enter 5 (.refused .wrongState) AnswerFlags.none tag .empty)) ∧
      (t.memory.sweep.state = .idle → t.memory.today < 65535 → exec (.closeDay tag) s = .next
        (({ t with memory := { t.memory with
            today := t.memory.today + 1
            sweep := ⟨.sweeping, t.memory.today + 1, .main 0, 0, 0, 0, 0, 0⟩ } } : State).enter 5 .done
          AnswerFlags.none tag (.dayClosed (t.memory.today + 1))))) ∧
    (s.take (.inquireClock tag) = some t → exec (.inquireClock tag) s = .next
      (t.enter 6 .done AnswerFlags.none tag (.clock t.memory.clock t.memory.today t.memory.sweep)))

/-- R179, R181, R188: one step of the walk examines the slot at the cursor: a free slot, a card already swept, or a card to
sweep. It moves the cursor on; at the last slot, free or holding a card, it leaves the cursor and ends the walk, with the
SWEEP-END placed when an answer slot is free. The ENDING unit at the head of the waiting list places its SWEEP-END when a slot
is free. -/
def Obligations.WalkSweepsAndEnds : Prop :=
  (∀ (s : State) (u : SweepUnit), s.powered = true → s.engine ≠ .unformatted → s.memory.sweep = u →
    u.state = .sweeping →
    let gone := fun c : Card => c.lots.filter fun l => l.expiry < u.day
    let found : RecordMemory × SweepUnit :=
      match s.memory.cardAt u.cursor with
      | none => (s.memory, u)
      | some c =>
        if u.day ≤ c.sweptThrough then (s.memory, { u with passed := u.passed + 1 })
        else
          (({ s.memory with funds := (gone c).foldl Funds.writeOffLot s.memory.funds } : RecordMemory).putCard u.cursor
            (if gone c = [] then
              { c with base := if c.expiry < u.day then .expired else c.base, sweptThrough := u.day }
            else
              { c with
                lots := c.lots.filter fun l => u.day ≤ l.expiry
                base := if c.expiry < u.day then .expired else c.base
                sweptThrough := u.day
                counter := (c.counter + 1) % 65536
                lastActivity := s.memory.today
                last := none }),
            { u with
              swept := u.swept + 1
              expired := u.expired + if c.expiry < u.day ∧ c.base = .active then 1 else 0
              lots := u.lots + (gone c).length
              bonus := u.bonus + sumLots (gone c) })
    let m := found.1
    let v := found.2
    (∀ next, u.cursor.after = some next →
      exec .sweepStep s = .next (s.withMemory { m with sweep := { v with cursor := next } })) ∧
    (u.cursor = .overflow 65535 →
      (s.answers.length < 64 → exec .sweepStep s = .next
        ((s.withMemory { m with sweep := { v with state := .idle } }).enter 65535 .notice AnswerFlags.none 0
          (.sweepEnd u.day v.swept v.passed v.expired v.lots v.bonus))) ∧
      (64 ≤ s.answers.length → exec .sweepStep s = .next
        { s with memory := { m with sweep := { v with state := .ending } }, waiting := s.waiting ++ [.sweep] }))) ∧
  (∀ n, n < 1048575 → Slot.after (.main n) = some (.main (n + 1))) ∧
  Slot.after (.main 1048575) = some (.overflow 0) ∧
  (∀ n, n < 65535 → Slot.after (.overflow n) = some (.overflow (n + 1))) ∧
  ∀ (s : State) (rest : List Producer) (u : SweepUnit), s.powered = true → s.waiting = .sweep :: rest →
    s.memory.sweep = u →
    (s.answers.length < 64 → exec .sweepEnd s = .next
      (({ s with waiting := rest, memory := { s.memory with sweep := { u with state := .idle } } } : State).enter 65535
        .notice AnswerFlags.none 0 (.sweepEnd u.day u.swept u.passed u.expired u.lots u.bonus))) ∧
    (64 ≤ s.answers.length → exec .sweepEnd s = .next s)


/-! ### Power, resets and the update slots -/

/-- R194, R195, R190, R193: a start with retention lost, whatever it interrupts. A power-on sets the clock to 0; an engine
reset keeps the reading, with a SET-CLOCK that the reset stopped after its slot was sealed carried out, and from its step 5
on the reading of a FORMAT (log 29). A FORMAT stopped within its change makes the start such a one. What the settings hold
before FORMAT is the model's (log 4), and is not stated. -/
def Obligations.ColdStartIsUnformatted : Prop :=
  let Cold := fun s w : State => w.engine = .unformatted ∧ w.startCause = .cold ∧ w.retention = .lost ∧
    w.memory.funds = Funds.zero ∧ (∀ slot, w.memory.cardAt slot = none) ∧ w.inbound = [] ∧ w.answers = [] ∧
    w.overrun = false ∧ w.interruptEnable = false ∧ w.lastNumber = 0 ∧ w.waiting = [] ∧ w.referrals = [] ∧
    w.slots = UpdateSlots.empty ∧ w.pending = s.pending
  (∀ (s : State) (ties : List Nat), s.retention = .lost ∨ s.indicatorCheck = false →
    ∃ u, exec (.powerOn ties) s = .next u ∧ Cold s u ∧ u.memory.clock = 0) ∧
  ∀ (s : State) (ties : List Nat) (cut : Interruption), s.powered = true →
    (s.retention = .lost ∨ s.indicatorCheck = false →
      ∃ v, exec (.engineReset true cut ties) s = .next v ∧ Cold s v ∧
        (cut.request = none → v.memory.clock = s.memory.clock) ∧
        ∀ t tag reading, s.take (.setClock tag reading) = some t → ∀ stage, cut.request = some stage →
          v.memory.clock = match stage with
            | .sealed true _ _ => max s.memory.clock reading
            | _ => s.memory.clock) ∧
    ∀ t tag day reading, s.take (.format tag day reading) = some t → t.engine ≠ .trading → ∀ stage,
      cut.request = some stage → ∃ v, exec (.engineReset true cut ties) s = .next v ∧ Cold s v ∧
        v.memory.clock = if stage = .filling then s.memory.clock else reading

/-- R194, R172, R140, R128, R51, R183: a start with retention intact comes back in SETUP with its working state empty,
every run stopped, no watch entry waiting for a second attempt, no referral open, and an ENDING sweep unit alone on the
waiting list. An engine reset that stops no change starts as a power-on does (R195), and a write of 0 does nothing. -/
def Obligations.RecoveryRestartsInSetup : Prop :=
  ∀ (s : State) (ties : List Nat), s.retention = .valid → s.indicatorCheck = true →
    (∃ u, exec (.powerOn ties) s = .next u ∧ u.powered = true ∧ u.engine = .setup ∧ u.startCause = .resumed ∧
      u.retention = .valid ∧ u.inbound = [] ∧ u.answers = [] ∧ u.overrun = false ∧ u.interruptEnable = false ∧
      u.lastNumber = 0 ∧ u.referrals = [] ∧ u.lapseRecord = [] ∧ u.armed = [] ∧ u.lastServed = 3 ∧
      u.slots = UpdateSlots.empty ∧
      u.waiting = (if u.memory.sweep.state = .ending then [.sweep] else []) ∧
      (∀ d, (u.memory.descriptor d).state ≠ .running ∧ (u.memory.descriptor d).state ≠ .waiting ∧
        (u.memory.descriptor d).credit = 0) ∧
      (∀ e, (u.memory.watchEntry e).state ≠ .waitSecond) ∧
      (∀ slot c, u.memory.cardAt slot = some c → c.referralOpen = false)) ∧
    (s.powered = true → s.slots = UpdateSlots.empty →
      exec (.engineReset true ⟨none, none, none, none⟩ ties) s = exec (.powerOn ties) s) ∧
    (s.powered = true → ∀ cut, exec (.engineReset false cut ties) s = .next s)

/-- R95: no hold whose expiry time the recovered reading has reached is OPEN when recovery ends, on a memory whose OPEN
holds' cards are present (R28). -/
def Obligations.RecoveryExpiresEveryDueHold : Prop :=
  ∀ (m : RecordMemory) (ties : List Nat), m.holds.rising = true →
    (∀ n h, (m.holdSlot n).record = some h → (m.findCard h.card).isSome = true) →
    ∀ n h, ((m.recovered ties).holdSlot n).record = some h → m.clock < h.expires

/-- R192, R193: a power loss that stops no change keeps Record Memory, and a battery failure makes the indicator LOST.
That the indicator is written at the loss is log 32 and that the check's result stands in the state log 11; that the board
then ignores every command but POWER_ON, and that its clock is counted on, is log 13. -/
def Obligations.PowerLossStopsTheBoard : Prop :=
  (∀ (s : State) (kept ok : Bool), s.powered = true →
    exec (.powerLoss kept ok ⟨none, none, none, none⟩) s = .next { s with
      powered := false
      slots := UpdateSlots.empty
      retention := if kept = true then s.retention else .lost
      indicatorCheck := s.indicatorCheck && ok }) ∧
  ∀ (s : State) (i : Instr), s.powered = false → i ≠ .clockTick → (∀ ties, i ≠ .powerOn ties) →
    (∀ offset value, i = .windowWrite offset value → offset + 4 ≤ 0x11C) → exec i s = .next s

/-- R193 to R195: a SEALED slot rolled forward gives the memory its change makes, however many of its records had already
been written and whether its fund total amounts had been applied or not; a FILLING slot, and a SEALED slot whose check fails,
are discarded. So a writer that a power loss or an engine reset stops within its change leaves what the next start makes of
the whole change, or of none of it; each writer's change is that of its own command (FORMAT has no slot, R190). -/
def Obligations.SealedSlotRollsForwardWhole : Prop :=
  (∀ (a b : RecordMemory) (n : Nat) (applied : Bool), a.tablesWf = true → b.tablesWf = true →
    let written := a.applyAll ((a.writesTo b).take n)
    let amounts := b.funds.sub a.funds
    ({ written with funds := if applied = true then a.funds.add amounts else a.funds } : RecordMemory).rollSlot
      (.sealed (a.writesTo b) amounts applied true) = b ∧
    a.rollSlot .filling = a ∧ a.rollSlot (.sealed (a.writesTo b) amounts applied false) = a) ∧
  ∀ (s t : State) (i : Instr) (stage : Stage) (cut : Interruption) (ties : List Nat),
    s.powered = true → s.retention = .valid → s.indicatorCheck = true → s.tablesWf = true → exec i s = .next t →
    ((∃ m rest, s.inbound = m :: rest ∧ readMessage m = i ∧ (∀ tag day reading, i ≠ .format tag day reading) ∧
        cut = ⟨some stage, none, none, none⟩) ∨
      i = .turn ∧ cut = ⟨none, some (.turn, stage), none, none⟩ ∨
      i = .descriptorService ∧ cut = ⟨none, some (.service, stage), none, none⟩ ∨
      i = .sweepStep ∧ s.memory.sweep.state ≠ .ending ∧ cut = ⟨none, none, some stage, none⟩ ∨
      i = .sweepEnd ∧ s.memory.sweep.state = .ending ∧ cut = ⟨none, none, some stage, none⟩ ∨
      (∃ n, i = .holdExpiry n ∧ cut = ⟨none, none, none, some (.hold n, stage)⟩) ∨
      (∃ n, i = .lapse n ∧ cut = ⟨none, none, none, some (.lapse n, stage)⟩) ∨
      i = .lapseNotice ∧ cut = ⟨none, none, none, some (.notice, stage)⟩) →
    ∃ p u v, exec (.powerLoss true true cut) s = .next p ∧ p.powered = false ∧ exec (.powerOn ties) p = .next u ∧
      exec (.engineReset true cut ties) s = .next v ∧ u.memory = v.memory ∧
      v.memory = match stage with
        | .sealed true _ _ => t.memory.recovered ties
        | _ => s.memory.recovered ties

/-! ### Engine states -/

/-- R190: FORMAT sets every table to its FORMAT values, empties the working state, and leaves the queues, the overrun flag,
the interrupt enable and the answer number count; in TRADING it is refused. An index that no table lists holds the
record that FORMAT leaves (R52, R59, R77, R95, R129, R140, R141, R151, R156, R171; the form is log 6). That FORMAT writes an
indicator that passes its check is log 11. -/
def Obligations.FormatSetsEveryTable : Prop :=
  ∀ (s t : State) (tag day reading : Nat), s.take (.format tag day reading) = some t →
    (t.engine ≠ .trading → exec (.format tag day reading) s = .next (({ t with
      memory :=
        { mainCards := [], poolCards := [], chains := [], products := [], merchants := [], tiers := [], sponsors := []
          holds := [], watches := [], descriptors := []
          sweep := ⟨.idle, day, .main 0, 0, 0, 0, 0, 0⟩
          funds := Funds.zero
          referralTime := 30
          nextReferral := 1
          clock := reading
          today := day }
      slots := ⟨.empty, .empty, .empty, .empty⟩
      retention := .valid
      indicatorCheck := true
      engine := .setup
      startCause := .none
      waiting := []
      referrals := []
      lapseRecord := []
      armed := []
      lastServed := 3 } : State).enter 1 .done AnswerFlags.none tag (.formatted day reading))) ∧
    (t.engine = .trading → exec (.format tag day reading) s = .next
      (t.enter 1 (.refused .wrongState) AnswerFlags.none tag .empty)) ∧
    ∀ (m : RecordMemory) (i : Nat),
      (m.products = [] → (m.product i).state = .unused ∧ (m.product i).issued = 0) ∧
      (m.merchants = [] → (m.merchant i).state = .unused ∧ (m.merchant i).openHolds = 0) ∧
      (m.tiers = [] → m.tier i = ⟨0, 0, 0, 0⟩) ∧ (m.sponsors = [] → m.sponsor i = .unused) ∧
      (m.holds = [] → m.holdSlot i = ⟨0, none, none⟩) ∧
      (m.watches = [] → m.watchEntry i = ⟨.disabled, ⟨⟨none, false⟩, ⟨none, false⟩, ⟨none, false⟩, 0⟩,
        ⟨⟨none, false⟩, ⟨none, false⟩, ⟨none, false⟩, 0⟩, .any, 1, .mark, .oneShot⟩) ∧
      (m.descriptors = [] → (m.descriptor i).state = .idle ∧ (m.descriptor i).credit = 0) ∧
      (m.mainCards = [] → m.cardAt (.main i) = none) ∧ (m.chains = [] → m.chain i = [])

/-- R191: OPEN-TRADING in SETUP with an ACTIVE product and a used merchant; otherwise refused. -/
def Obligations.OpenTradingNeedsProductAndMerchant : Prop :=
  ∀ (s t : State) (tag : Nat), s.take (.openTrading tag) = some t →
    (t.engine = .setup → (∃ p ∈ t.memory.products, p.2.state = .active) →
      (∃ r ∈ t.memory.merchants, r.2.state ≠ .unused) →
      exec (.openTrading tag) s = .next
        (({ t with engine := .trading, startCause := .none } : State).enter 3 .done AnswerFlags.none tag .empty)) ∧
    (t.engine ≠ .setup ∨ (∀ p ∈ t.memory.products, p.2.state ≠ .active) ∨
      (∀ r ∈ t.memory.merchants, r.2.state = .unused) →
      exec (.openTrading tag) s = .next (t.enter 3 (.refused .wrongState) AnswerFlags.none tag .empty))

/-- R126, R191, R123: CLOSE-TRADING lapses every OPEN entry; its answer enters first, then the LAPSE-NOTICEs of the lapsed
entries in queue order while slots are free, and the other entries join the waiting list. An entry whose notice enters
leaves the queue, joins the lapse record and clears its card's flag. That they enter although other producers wait, but none
while an entry that lapsed before them waits, is the model's reading (log 20). -/
def Obligations.CloseTradingLapsesEveryEntry : Prop :=
  ∀ (s t : State) (tag : Nat), s.take (.closeTrading tag) = some t →
    let lapsed := t.referrals.filter fun e => decide (e.state = .opened)
    let older := t.waiting.any fun p => match p with | .entry _ => true | _ => false
    let placed := if older = true then 0 else min lapsed.length (63 - t.answers.length)
    let notice := fun e : Referral => match e.kind with
      | .debit x => AnswerBody.lapseNotice e.number .debit e.tag e.card x.merchant x.amount
      | .hold x _ => AnswerBody.lapseNotice e.number .hold e.tag e.card x.merchant x.amount
      | .unlock => AnswerBody.lapseNotice e.number .unlock e.tag e.card 0 0
      | .watch .redeem x _ => AnswerBody.lapseNotice e.number .watchRedeem e.tag e.card x.merchant x.amount
      | .watch (.hold _) x _ => AnswerBody.lapseNotice e.number .watchHold e.tag e.card x.merchant x.amount
    (t.engine = .trading → ∃ u, exec (.closeTrading tag) s = .next u ∧ u.engine = .setup ∧
      u.answers = t.answers ++
        ⟨4, .done, AnswerFlags.none, tag, (t.lastNumber + 1) % 4294967296, .tradingClosed lapsed.length⟩ ::
        (lapsed.take placed).mapIdx (fun k e =>
          ⟨65534, .notice, AnswerFlags.none, 0, (t.lastNumber + 2 + k) % 4294967296, notice e⟩) ∧
      u.waiting = t.waiting ++ (lapsed.drop placed).map (fun e => Producer.entry e.number) ∧
      u.referrals = (t.referrals.filter fun e => e.number ∉ (lapsed.take placed).map Referral.number).map
        (fun e => { e with state := .lapsed }) ∧
      u.lapseRecord = (lapsed.take placed).foldl
        (fun r e => (if 32 ≤ r.length then r.drop 1 else r) ++ [e.number]) t.lapseRecord ∧
      ((lapsed.map Referral.card).Nodup → ∀ k e slot c, lapsed[k]? = some e →
        t.memory.findCard e.card = some (slot, c) → u.memory.cardAt slot = some { c with
          referralOpen := if k < placed then false else c.referralOpen
          attemptPending := if e.kind = .unlock then false else c.attemptPending }) ∧
      (∀ slot, (∀ e ∈ lapsed, ∀ x, t.memory.findCard e.card = some x → x.1 ≠ slot) →
        u.memory.cardAt slot = t.memory.cardAt slot) ∧
      u = { t with
        engine := .setup, answers := u.answers, lastNumber := u.lastNumber, interruptsSent := u.interruptsSent
        waiting := u.waiting, referrals := u.referrals, lapseRecord := u.lapseRecord, memory := u.memory } ∧
      u.memory = { t.memory with mainCards := u.memory.mainCards, poolCards := u.memory.poolCards }) ∧
    (t.engine ≠ .trading → exec (.closeTrading tag) s = .next
      (t.enter 4 (.refused .wrongState) AnswerFlags.none tag .empty))

/-- R189: in UNFORMATTED every request but FORMAT, SET-CLOCK and a message that does not decode is REFUSED WRONG-STATE,
and nothing else changes. The refusal carries no flag but ZERO, by R1, and not that while no card is present, as R1 says of
lost retention; that ZERO stands on a refusal by the cards its request names is log 17. -/
def Obligations.UnformattedRefusesOtherRequests : Prop :=
  ∀ (s t : State) (i : Instr) (m : Message), s.inbound.head? = some m → s.take i = some t → t.engine = .unformatted →
    (∀ tag day reading, i ≠ .format tag day reading) → (∀ tag reading, i ≠ .setClock tag reading) →
    (∀ code length tag, i ≠ .badCode code length tag) →
    ∃ zero, exec i s = .next (t.enter (field m 0 2) (.refused .wrongState) { AnswerFlags.none with zero := zero }
      (field m 4 4) .empty) ∧ ((∀ number, t.memory.findCard number = none) → zero = false)

/-- R189: an UNFORMATTED engine has its indicator LOST, which every step keeps, and the engine state moves by the events of
R189's table, from the states that table gives, and by no others. -/
def Obligations.EngineStateMovesByItsTable : Prop :=
  ∀ s u : State, (s.engine = .unformatted → s.retention = .lost) → step s = .next u →
    (u.engine = .unformatted → u.retention = .lost) ∧
    ∀ i rest, s.pending = i :: rest → u.engine ≠ s.engine →
      (s.engine ≠ .trading ∧ u.engine = .setup ∧ ∃ tag day reading, i = .format tag day reading) ∨
      (s.engine = .setup ∧ u.engine = .trading ∧ ∃ tag, i = .openTrading tag) ∨
      (s.engine = .trading ∧ u.engine = .setup ∧ ∃ tag, i = .closeTrading tag) ∨
      ((s.engine = .trading ∧ u.engine = .setup ∧ u.startCause = .resumed ∧ u.retention = .valid ∨
          s.engine ≠ .unformatted ∧ u.engine = .unformatted ∧ u.startCause = .cold ∧ u.retention = .lost) ∧
        ((∃ ties, i = .powerOn ties) ∨ (∃ cut ties, i = .engineReset true cut ties) ∨
          ∃ value, i = .windowWrite 0x10C value ∧ value.testBit 1 = true))

/-! ### Cards -/

/-- R37, R21: a touched card that is behind today loses its expired lots, which the fund totals write off, and becomes
EXPIRED past its expiry day; a card already swept through today, and the fund totals, stay as they are. -/
def Obligations.TouchSweepsTheCard : Prop :=
  ∀ (m : RecordMemory) (c : Card),
    (m.today ≤ c.sweptThrough → m.touch c = ⟨m, c, false⟩) ∧
    (c.sweptThrough < m.today →
      (m.touch c).card = { c with
        lots := c.lots.filter fun l => m.today ≤ l.expiry
        base := if c.expiry < m.today then .expired else c.base
        sweptThrough := m.today } ∧
      (m.touch c).memory = { m with
        funds := (c.lots.filter fun l => l.expiry < m.today).foldl Funds.writeOffLot m.funds } ∧
      ((m.touch c).wrote = true ↔ ∃ l ∈ c.lots, l.expiry < m.today)) ∧
    ∀ l ∈ (m.touch c).card.lots, m.today ≤ c.sweptThrough ∨ m.today ≤ l.expiry

/-- R21 to R25: each movement's effect on the fund totals, by the totals it names. -/
def Obligations.MovementsChangeTheirTotals : Prop :=
  ∀ (f : Funds) (n : Nat) (s : Fin 8) (p : Lot) (shortfall : Int),
    f.takeIn n = { f with
      cashIn := f.cashIn + BitVec.ofNat 64 n, paidLiability := f.paidLiability + BitVec.ofNat 64 n } ∧
    f.voidLoad n = { f with
      cashIn := f.cashIn - BitVec.ofNat 64 n, paidLiability := f.paidLiability - BitVec.ofNat 64 n } ∧
    f.cashOutPaid n = { f with
      cashOut := f.cashOut + BitVec.ofNat 64 n, paidLiability := f.paidLiability - BitVec.ofNat 64 n } ∧
    f.grant s n = { f with
      granted := f.granted.set s.val (f.granted[s.val] + BitVec.ofNat 64 n)
      liability := f.liability.set s.val (f.liability[s.val] + BitVec.ofNat 64 n) } ∧
    f.writeOffLot p = { f with
      expired := f.expired.set p.sponsor.val (f.expired[p.sponsor.val] + BitVec.ofNat 64 p.amount)
      liability := f.liability.set p.sponsor.val (f.liability[p.sponsor.val] - BitVec.ofNat 64 p.amount) } ∧
    f.spend n [p] = { f with
      paidLiability := f.paidLiability - BitVec.ofNat 64 n
      liability := f.liability.set p.sponsor.val (f.liability[p.sponsor.val] - BitVec.ofNat 64 p.amount)
      due := f.due + BitVec.ofNat 64 n + BitVec.ofNat 64 p.amount } ∧
    f.unspendPaid n = { f with
      paidLiability := f.paidLiability + BitVec.ofNat 64 n, due := f.due - BitVec.ofNat 64 n } ∧
    f.unspendPart (p, .writtenOff) = { f with
      expired := f.expired.set p.sponsor.val (f.expired[p.sponsor.val] + BitVec.ofNat 64 p.amount)
      due := f.due - BitVec.ofNat 64 p.amount } ∧
    f.writeOffDue shortfall = { f with
      writeOff := f.writeOff + BitVec.ofInt 64 shortfall, due := f.due + BitVec.ofInt 64 shortfall }

/-- R38, R39, R34, R33, R36: an ISSUE that passes its checks creates the card in the slot of R34, where a lookup then finds
it; one that fails a check is refused or declined by the first that fails, and nothing else changes. The number, product,
sponsor, table room and balance are tested on the state the take gives. A REFUSED answer carries ZERO, as R1 says, when the
card of that number is present with total value 0, a DUPLICATE's among them (log 17). -/
def Obligations.IssueCreatesTheCard : Prop :=
  (∀ (s t : State) (tag card product sponsor life paid bonus : Nat) (grant : Option (Fin 8 × Nat × Nat)) (slot : Slot),
    s.take (.issue tag card product sponsor life paid bonus) = some t → t.engine = .trading → product < 64 →
    paid ≤ 10000000 → issueBonusOf sponsor life bonus = some grant → wellFormedNumber card = true →
    (t.memory.product product).state = .active → (∀ x, grant = some x → t.memory.sponsor x.1.val = .active) →
    t.memory.findCard card = none → t.memory.freePlace (bucketOf card) = some slot →
    paid + (grant.map fun x => x.2.2).getD 0 ≤ (t.memory.product product).maxBalance →
    let p := t.memory.product product
    let lots : List Lot := (grant.map fun x =>
      ⟨x.1, min 65535 (t.memory.today + if x.2.1 = 0 then p.bonusLife else x.2.1), x.2.2⟩).toList
    let stamp := if paid = 0 ∧ grant = none then 0 else 1
    let c : Card :=
      { number := card, product := product, base := .active, frozen := false, softLocked := false
        attemptPending := false, referralOpen := false, awaitingLoad := decide (paid = 0), blockedCount := 0
        lastBlocked := none, paid := paid, lots := lots, holds := []
        expiry := min 65535 (t.memory.today + p.cardLife), lastActivity := t.memory.today
        sweptThrough := t.memory.today, counter := stamp
        last := if paid = 0 then none else some ⟨.load, stamp, t.memory.today, paid, []⟩ }
    let m := (t.memory.placeCard slot c).setProduct product { p with issued := p.issued + 1 }
    let funds := lots.foldl (fun f l => f.grant l.sponsor l.amount) (t.memory.funds.takeIn paid)
    exec (.issue tag card product sponsor life paid bonus) s = .next
      (({ t with memory := { m with funds := funds } } : State).enter 7 .done
        ⟨decide (paid = 0 ∧ grant = none), false,
          decide (65535 < t.memory.today + p.cardLife ∨
            ∃ x, grant = some x ∧ 65535 < t.memory.today + if x.2.1 = 0 then p.bonusLife else x.2.1), false, false⟩
        tag (.issued slot c.expiry paid lots.head? stamp)) ∧
    ({ m with funds := funds } : RecordMemory).findCard card = some (slot, c)) ∧
  ∀ (s t : State) (tag card product sponsor life paid bonus : Nat),
    s.take (.issue tag card product sponsor life paid bonus) = some t →
    let ends := fun o => exec (.issue tag card product sponsor life paid bonus) s =
      .next (t.enter 7 o
        { AnswerFlags.none with zero := (t.memory.findCard card).any fun e => decide (t.memory.total e.2 = 0) } tag .empty)
    if t.engine ≠ .trading then ends (.refused .wrongState)
    else if 63 < product ∨ 10000000 < paid ∨
        sponsor ≠ 255 ∧ (8 ≤ sponsor ∨ bonus < 1 ∨ 10000000 < bonus ∨ 730 < life) then ends (.refused .badField)
    else if wellFormedNumber card = false then ends (.refused .badNumber)
    else if (t.memory.product product).state ≠ .active then ends (.refused .unknownProduct)
    else if sponsor < 8 ∧ t.memory.sponsor sponsor ≠ .active then ends (.refused .unknownSponsor)
    else if (t.memory.findCard card).isSome = true then ends (.refused .duplicate)
    else if t.memory.freePlace (bucketOf card) = none then ends (.refused .tableFull)
    else if (t.memory.product product).maxBalance < paid + (if sponsor < 8 then bonus else 0) then
      ends (.declined .overLimit)
    else True

/-- R40, R41: a LOAD judged on the touched card: its three declines in order, and what it does when it passes them. -/
def Obligations.LoadAddsPaidValue : Prop :=
  ∀ (s t : State) (tag card amount : Nat) (slot : Slot) (c0 : Card),
    s.take (.load tag card amount) = some t → t.engine = .trading → 1 ≤ amount → amount ≤ 10000000 →
    wellFormedNumber card = true → t.memory.findCard card = some (slot, c0) →
    let k := t.memory.touch c0
    let c := k.card
    let p := t.memory.product c0.product
    let declined := fun reason =>
      let m := k.memory.settle slot c k.wrote
      Host.Outcome.next ((t.withMemory m.1).enter 8 (.declined reason) (zeroOnly m.1 c) tag (.touched m.2))
    let run := exec (.load tag card amount) s
    if amount < p.minLoad ∨ p.maxLoad < amount then run = declined .loadRange
    else if p.reload = false ∧ c.awaitingLoad = false then run = declined .loadRange
    else if p.maxBalance < t.memory.total c + amount then run = declined .overLimit
    else
      let stamp := (c.counter + 1) % 65536
      let day := min 65535 (t.memory.today + p.cardLife)
      run = .next ((t.withMemory (({ k.memory with funds := k.memory.funds.takeIn amount } : RecordMemory).putCard slot
        { c with
          paid := c.paid + amount, awaitingLoad := false, expiry := day, base := .active, counter := stamp
          lastActivity := t.memory.today, last := some ⟨.load, stamp, t.memory.today, amount, []⟩ })).enter 8 .done
        ⟨false, false, decide (65535 < t.memory.today + p.cardLife), false, false⟩ tag
        (.loaded (c.paid + amount) day .active stamp))

/-- R42: a GRANT-BONUS judged on the touched card: its declines in order, and the lot it makes or joins. That the LOTS-FULL
decline of a capped day carries no CLAMPED is log 18. -/
def Obligations.GrantBonusAddsALot : Prop :=
  ∀ (s t : State) (tag card sponsor life amount : Nat) (sp : Fin 8) (slot : Slot) (c0 : Card),
    s.take (.grantBonus tag card sponsor life amount) = some t → t.engine = .trading → sponsorOf sponsor = some sp →
    1 ≤ amount → amount ≤ 10000000 → life ≤ 730 → wellFormedNumber card = true →
    t.memory.sponsor sponsor = .active → t.memory.findCard card = some (slot, c0) →
    let k := t.memory.touch c0
    let c := k.card
    let p := t.memory.product c0.product
    let day := t.memory.today + if life = 0 then p.bonusLife else life
    let part : Lot := ⟨sp, min 65535 day, amount⟩
    let declined := fun reason =>
      let m := k.memory.settle slot c k.wrote
      Host.Outcome.next ((t.withMemory m.1).enter 9 (.declined reason) (zeroOnly m.1 c) tag (.touched m.2))
    let run := exec (.grantBonus tag card sponsor life amount) s
    if c.base = .expired then run = declined .cardExpired
    else if p.maxBalance < t.memory.total c + amount then run = declined .overLimit
    else if c.lots.any (sameLot part) = false ∧ 4 ≤ c.lots.length then run = declined .lotsFull
    else
      let lots := if c.lots.any (sameLot part) = true then joinLot part c.lots else insertLot part c.lots
      let stamp := (c.counter + 1) % 65536
      ∃ lot ∈ lots, lot.sponsor = sp ∧ lot.expiry = min 65535 day ∧
        run = .next ((t.withMemory (({ k.memory with funds := k.memory.funds.grant sp amount } : RecordMemory).putCard
          slot { c with lots := lots, counter := stamp, lastActivity := t.memory.today, last := none })).enter 9 .done
          ⟨false, false, decide (65535 < day), false, false⟩ tag (.grantedBonus lot stamp))

/-- R43, R89: INQUIRE and INQUIRE-HOLD change nothing but the queues, and report the record as it stands. That an
INQUIRE-HOLD answered TOO-LATE names no card and carries no ZERO is log 17. -/
def Obligations.InquiriesReportTheRecord : Prop :=
  ∀ (s t : State) (tag : Nat), t.engine ≠ .unformatted →
    (∀ card slot c, s.take (.inquire tag card) = some t → wellFormedNumber card = true →
      t.memory.findCard card = some (slot, c) → ∃ report, exec (.inquire tag card) s = .next
        (t.enter 10 .done ⟨decide (t.memory.total c = 0), false, false, false, false⟩ tag (.card report)) ∧
        report.product = c.product ∧ report.base = c.base ∧ report.frozen = c.frozen ∧
        report.softLocked = c.softLocked ∧ report.attemptPending = c.attemptPending ∧
        report.referralOpen = c.referralOpen ∧ report.awaitingLoad = c.awaitingLoad ∧
        report.blockedCount = c.blockedCount ∧ (0 < c.blockedCount → report.lastBlocked = c.lastBlocked) ∧
        report.paid = c.paid ∧ report.lots = c.lots ∧ report.holds = c.holds ∧ report.held = t.memory.held c ∧
        report.expiry = c.expiry ∧ report.lastActivity = c.lastActivity ∧ report.sweptThrough = c.sweptThrough ∧
        report.counter = c.counter ∧
        report.usable = c.paid + sumLots (c.lots.filter fun l => t.memory.today ≤ l.expiry) ∧
        (report.expiryPassed = true ↔ c.expiry < t.memory.today)) ∧
    (∀ card, s.take (.inquire tag card) = some t → wellFormedNumber card = true → t.memory.findCard card = none →
      exec (.inquire tag card) s = .next (t.enter 10 (.refused .unknownCard) AnswerFlags.none tag .empty)) ∧
    (∀ slot generation h, s.take (.inquireHold tag slot generation) = some t → slot < 16384 →
      (t.memory.holdSlot slot).resolve generation = .found h → ∃ flags, exec (.inquireHold tag slot generation) s =
        .next (t.enter 20 .done flags tag (.holdReport h (h.paid + sumLots h.parts)))) ∧
    (∀ slot generation merchant, s.take (.inquireHold tag slot generation) = some t → slot < 16384 →
      (t.memory.holdSlot slot).resolve generation = .tooLate merchant → exec (.inquireHold tag slot generation) s =
        .next (t.enter 20 (.declined .tooLate) AnswerFlags.none tag .empty))

/-- R44, R45, R66: FREEZE, THAW and LOCK touch the card and write one flag; no value moves beyond the touch sweep. -/
def Obligations.StaffControlsWriteOneFlag : Prop :=
  ∀ (s t : State) (tag card : Nat) (slot : Slot) (c : Card), t.engine ≠ .unformatted → wellFormedNumber card = true →
    t.memory.findCard card = some (slot, c) →
    let k := t.memory.touch c
    let done := fun (code : Nat) (c' : Card) =>
      let m := if k.wrote = true then
          k.memory.putCard slot { c' with
            counter := (c'.counter + 1) % 65536, lastActivity := t.memory.today, last := none }
        else k.memory.putCard slot c'
      Host.Outcome.next ((t.withMemory m).enter code .done (zeroOnly m c') tag
        (.touched (if k.wrote = true then some ((c'.counter + 1) % 65536) else none)))
    (s.take (.freeze tag card) = some t → exec (.freeze tag card) s = done 11 { k.card with frozen := true }) ∧
    (s.take (.thaw tag card) = some t → exec (.thaw tag card) s = done 12 { k.card with frozen := false }) ∧
    (s.take (.lock tag card) = some t → exec (.lock tag card) s = done 13 { k.card with softLocked := true })

/-- R67, R68, R126: UNLOCK on the touched card: declined while a referral is open; DONE on a card not locked, or locked with
no attempt pending, which it unlocks; otherwise referred when the queue has room. In SETUP a card with an attempt pending is
refused, with ZERO by the card's total value as R1 says (log 17), but for one whose LAPSE-NOTICE still waits, which is
declined (log 21). -/
def Obligations.UnlockFollowsTheAttemptPending : Prop :=
  (∀ (s t : State) (tag card : Nat) (slot : Slot) (c : Card), s.take (.unlock tag card) = some t →
    t.engine = .trading → wellFormedNumber card = true → t.memory.findCard card = some (slot, c) →
    t.memory.today ≤ c.sweptThrough →
    let run := exec (.unlock tag card) s
    if c.referralOpen = true then
      run = .next ((t.withMemory (t.memory.putCard slot c)).enter 14 (.declined .cardBusy)
        (zeroOnly (t.memory.putCard slot c) c) tag (.touched none))
    else if c.softLocked = false then
      run = .next ((t.withMemory (t.memory.putCard slot c)).enter 14 .done (zeroOnly (t.memory.putCard slot c) c) tag
        (.touched none))
    else if c.attemptPending = false then
      let c' := { c with softLocked := false }
      run = .next ((t.withMemory (t.memory.putCard slot c')).enter 14 .done (zeroOnly (t.memory.putCard slot c') c') tag
        (.touched none))
    else if 32 ≤ t.referrals.length then
      run = .next ((t.withMemory (t.memory.putCard slot c)).enter 14 (.declined .referFull)
        (zeroOnly (t.memory.putCard slot c) c) tag (.touched none))
    else
      ∃ (u : State) (e : Referral), run = .next u ∧ u.referrals = t.referrals ++ [e] ∧ e.kind = .unlock ∧ e.card = card ∧ e.tag = tag ∧
        e.state = .opened ∧ e.time = t.memory.clock ∧
        e.deadline = min 4294967295 (t.memory.clock + t.memory.referralTime) ∧
        u.memory.cardAt slot = some { c with referralOpen := true } ∧ u.memory.funds = t.memory.funds ∧
        ∃ a, u.answers = t.answers ++ [a] ∧ a.outcome = .referred ∧
          a.body = .attempt (.unlockReferred e.number e.deadline c.blockedCount c.lastBlocked none)) ∧
  ∀ (s t : State) (tag card : Nat) (slot : Slot) (c : Card), s.take (.unlock tag card) = some t →
    t.engine = .setup → wellFormedNumber card = true → t.memory.findCard card = some (slot, c) →
    let run := exec (.unlock tag card) s
    let k := t.memory.touch c
    let m := fun c' => k.memory.settle slot c' k.wrote
    let answers := fun c' o => run = .next ((t.withMemory (m c').1).enter 14 o (zeroOnly (m c').1 c') tag
      (.touched (m c').2))
    if c.referralOpen = true then answers k.card (.declined .cardBusy)
    else if c.attemptPending = true then run = .next (t.enter 14 (.refused .wrongState)
      ⟨decide (t.memory.total c = 0), false, false, false, false⟩ tag .empty)
    else answers { k.card with softLocked := false } .done

/-- R46, R47, R35: CLOSE-CARD cashes out the paid value, writes off every lot, lowers the issued count and frees the slot;
a card with holds is refused, and one with an open referral declined after the touch. The answer gives every lot the change
wrote off, the touch sweep's first (log 36), and the refusal ZERO by the card's total value, as R1 says (log 17). -/
def Obligations.CloseCardCashesOut : Prop :=
  ∀ (s t : State) (tag card : Nat) (slot : Slot) (c0 : Card), s.take (.closeCard tag card) = some t →
    t.engine = .trading → wellFormedNumber card = true → t.memory.findCard card = some (slot, c0) →
    let k := t.memory.touch c0
    let c := k.card
    let run := exec (.closeCard tag card) s
    if c0.holds ≠ [] then run = .next (t.enter 15 (.refused .holdsOpen)
      ⟨decide (t.memory.total c0 = 0), false, false, false, false⟩ tag .empty)
    else if c0.referralOpen = true then
      let m := k.memory.settle slot c k.wrote
      run = .next ((t.withMemory m.1).enter 15 (.declined .cardBusy) (zeroOnly m.1 c) tag (.touched m.2))
    else
      ∃ u : State, run = .next (u.enter 15 .done AnswerFlags.none tag (.cardClosed c.paid
          ((if c0.sweptThrough < t.memory.today then c0.lots.filter (fun l => l.expiry < t.memory.today) else []) ++
            c.lots))) ∧
        u.memory.funds = c.lots.foldl Funds.writeOffLot (k.memory.funds.cashOutPaid c.paid) ∧
        (t.memory.mainCards.rising = true → t.memory.poolCards.rising = true → u.memory.cardAt slot = none) ∧
        (∀ other, other ≠ slot → u.memory.cardAt other = t.memory.cardAt other) ∧
        (t.memory.products.rising = true → (u.memory.product c0.product) =
          { t.memory.product c0.product with issued := (t.memory.product c0.product).issued - 1 }) ∧
        (t.armed.rising = true → ∀ e, e < 16 → ∀ a ∈ u.armedList e, a.card ≠ card) ∧ u.memory.merchants = t.memory.merchants ∧
        u.memory.holds = t.memory.holds ∧ u.referrals = t.referrals

/-! ### Bonus lots and the drawdown -/

/-- R4, R2: the lot-merge rule's steps on a list in lot order: the lot of the same sponsor and day grows; else the part takes
a free place; else the sponsor's lot of the latest day grows and takes the later of the two days; else nothing. Every other
lot stays as it is, and the list stays in lot order. -/
def Obligations.LotMergeFollowsItsSteps : Prop :=
  ∀ (lots : List Lot) (p : Lot), lots.Pairwise (fun a b => lotBefore a b = true) →
    (∀ before l after, lots = before ++ l :: after → l.sponsor = p.sponsor → l.expiry = p.expiry →
      mergeLot lots p = some (before ++ { l with amount := l.amount + p.amount } :: after, 1)) ∧
    ((∀ l ∈ lots, ¬(l.sponsor = p.sponsor ∧ l.expiry = p.expiry)) →
      (lots.length < 4 → ∃ before after, lots = before ++ after ∧ mergeLot lots p = some (before ++ p :: after, 2)) ∧
      (4 ≤ lots.length → ∀ before l after, lots = before ++ l :: after → l.sponsor = p.sponsor →
        (∀ k ∈ lots, k.sponsor = p.sponsor → k.expiry ≤ l.expiry) →
        ∃ before' after', before ++ after = before' ++ after' ∧ mergeLot lots p = some (before' ++
          { l with amount := l.amount + p.amount, expiry := max l.expiry p.expiry } :: after', 3)) ∧
      (4 ≤ lots.length → (∀ l ∈ lots, l.sponsor ≠ p.sponsor) → mergeLot lots p = none)) ∧
    ∀ lots' step, mergeLot lots p = some (lots', step) → lots'.Pairwise (fun a b => lotBefore a b = true)

/-- R5, R4, R15: returned parts are taken one at a time in their own order. A part past its expiry day is written off; any
other joins exactly when the lot-merge rule places it on the list that the parts before it left, with that list and step.
No value is lost. -/
def Obligations.ReturnedPartsJoinOrAreWrittenOff : Prop :=
  ∀ (today : Nat) (lots parts : List Lot), lots.Pairwise (fun a b => lotBefore a b = true) →
    let r := placeParts today lots parts
    placeParts today lots [] = (lots, []) ∧
    (∀ p, placeParts today lots (parts ++ [p]) =
      if p.expiry < today then (r.1, r.2 ++ [(p, .writtenOff)])
      else
        match mergeLot r.1 p with
        | some (lots', step) => (lots', r.2 ++ [(p, .joined step)])
        | none => (r.1, r.2 ++ [(p, .writtenOff)])) ∧
    r.2.map Prod.fst = parts ∧
    (∀ f ∈ r.2, f.1.expiry < today → f.2 = .writtenOff) ∧
    sumLots r.1 + sumLots ((r.2.filter fun f => f.2 = .writtenOff).map Prod.fst) = sumLots lots + sumLots parts ∧
    r.1.Pairwise (fun a b => lotBefore a b = true)

/-- R8 to R10, for the calls of R7: the granted amount is all that is asked, all there is in UP-TO mode, or nothing; the split
adds up to it with the bonus share of the order or the selector. The bonus share is drawn in list order: each lot that the
selector reaches gives the smaller of its amount and what the lots before it left of the share, and a lot left at 0 is
removed; the paid share leaves the free paid value in one amount. -/
def Obligations.DrawdownGrantsAndSplits : Prop :=
  ∀ (today : Nat) (c : Card) (asked : Nat) (purse : Purse) (order : DrawOrder) (upTo : Bool), 1 ≤ asked →
    (∀ l ∈ c.lots, 1 ≤ l.amount) →
    let reach := fun l : Lot => decide (today ≤ l.expiry) && (match purse with
      | .default => true
      | .paidOnly => false
      | .bonusOnly => true
      | .sponsor s => decide (l.sponsor = s))
    let paid := match purse with
      | .default => c.paid
      | .paidOnly => c.paid
      | _ => 0
    let bonus := sumLots (c.lots.filter reach)
    (drawdown today c asked purse order upTo = none ↔
      paid + bonus = 0 ∨ upTo = false ∧ paid + bonus < asked) ∧
    ∀ d, drawdown today c asked purse order upTo = some d →
      let share := match purse with
        | .default =>
          match order with
          | .bonusFirst => min d.granted bonus
          | .paidFirst => d.granted - min d.granted paid
          | .proRata => d.granted * bonus / (paid + bonus)
        | .paidOnly => 0
        | _ => d.granted
      let gives := fun x : Lot × Nat =>
        if reach x.1 = true then min x.1.amount (share - sumLots ((c.lots.take x.2).filter reach)) else 0
      d.granted = min asked (paid + bonus) ∧ sumLots d.parts = share ∧ d.paid + share = d.granted ∧ d.paid ≤ paid ∧
        share ≤ bonus ∧
        d.parts = c.lots.zipIdx.filterMap (fun x => if 0 < gives x then some { x.1 with amount := gives x } else none) ∧
        d.lotsLeft = c.lots.zipIdx.filterMap (fun x =>
          if gives x < x.1.amount then some { x.1 with amount := x.1.amount - gives x } else none) ∧
        c.draw d = { c with paid := c.paid - d.paid, lots := d.lotsLeft }

/-! ### Debit attempts -/

/-- R72, R60 to R62, R64: on the touched card of a REDEEM or HOLD the steps end the attempt in their order, and leave the
touch sweep and the blocked attempt; the acceptance table gives the method and the result. That an amount of 0, as a tender's
remainder may be, is at or below a floor of 0 is log 34. -/
def Obligations.DebitStepsEndInOrder : Prop :=
  (∀ (s t : State) (i : Instr) (tag card merchant amount selector sponsor allow life code : Nat) (index : Nat)
    (r : Merchant) (slot : Slot) (c0 : Card),
    (i = .redeem tag card merchant amount selector sponsor allow ∧ code = 16 ∨
      i = .hold tag card merchant amount selector sponsor allow life ∧ code = 17) →
    s.take i = some t → t.engine = .trading → (debitOf amount selector sponsor allow).isSome = true →
    wellFormedNumber card = true → t.memory.findMerchant merchant = some (index, r) →
    t.memory.findCard card = some (slot, c0) →
    let k := t.memory.touch c0
    let c := k.card
    let a := acceptance (t.memory.product c0.product) r amount
    let ends := fun (c' : Card) (reason : DeclineReason) (method : Option Method) (clamped : Bool) =>
      let m := k.memory.settle slot c' k.wrote
      exec i s = .next ((t.withMemory m.1).enter code (.declined reason)
        ⟨decide (m.1.total c' = 0), false, clamped, false, false⟩ tag (.attempt (.declined method none none m.2)))
    if c.base = .expired then ends c .cardExpired none false
    else if c.frozen = true then ends c .cardFrozen none false
    else if c.softLocked = true then
      ends { c with
        attemptPending := true, blockedCount := min 255 (c.blockedCount + 1), lastBlocked := some merchant }
        .cardLocked none (decide (255 ≤ c.blockedCount))
    else if r.state = .suspended then ends c .merchantSuspended none false
    else if c.referralOpen = true then ends c .cardBusy none false
    else if a.2 = .category then ends c .category (some a.1) false
    else True) ∧
  ∀ (p : Product) (r : Merchant) (amount : Nat),
    let bit := p.categoryMap.getLsbD r.category
    acceptance p r amount =
      match p.mode with
      | .opened => if r.trust = 3 then (.a, .locally) else (.b, .refer)
      | .mapped => if bit = true then (.c, .locally) else (.d, .category)
      | .guarded =>
        if bit = true then (.e, if r.trust = 3 ∨ amount ≤ r.floor then .locally else .refer)
        else (.f, if r.trust = 3 then .refer else .category)

/-- R75, R76: a REDEEM that passes steps 1 to 7 is declined SHORT when the drawdown gives nothing, and POSITION-LIMIT when
the merchant's gross would leave its range, with the split not applied. Otherwise it takes its split from the card, accrues it
at the merchant, moves it in the fund totals and records the last movement, all in one change; nothing else changes but what
step 7 did. That the answer carries the period is log 35. -/
def Obligations.RedeemPaysTheMerchant : Prop :=
  ∀ (s t : State) (tag card merchant amount selector sponsor allow : Nat) (o : DebitOperands) (index : Nat)
    (r : Merchant) (slot : Slot) (c0 : Card) (method : Method),
    s.take (.redeem tag card merchant amount selector sponsor allow) = some t → t.engine = .trading →
    debitOf amount selector sponsor allow = some o → wellFormedNumber card = true →
    t.memory.findMerchant merchant = some (index, r) → t.memory.findCard card = some (slot, c0) →
    let k := t.memory.touch c0
    let c := k.card
    let p := t.memory.product c0.product
    let w := (t.withMemory k.memory).watchAttempt ⟨card, c0.product, r.category, merchant, amount, t.memory.clock⟩
    standing c (some r) = none → c.referralOpen = false → acceptance p r amount = (method, .locally) →
    lowestWith .freeze w.2 = none → lowestWith .refer w.2 = none →
    let mark := lowestWith .mark w.2
    let run := exec (.redeem tag card merchant amount selector sponsor allow) s
    let declined := fun reason =>
      let m := w.1.memory.settle slot c k.wrote
      run = .next ((w.1.withMemory m.1).enter 16 (.declined reason)
        ⟨decide (m.1.total c = 0), false, false, false, mark.isSome⟩ tag
        (.attempt (.declined (some method) mark none m.2)))
    let drawn := drawdown t.memory.today c amount o.purse p.order (o.allowPartial && p.allowPartial)
    (drawn = none → declined .short) ∧
    ∀ d, drawn = some d → d.granted = d.paid + sumLots d.parts →
      (999999999999 < r.position.gross + (d.granted : Int) → declined .positionLimit) ∧
      (r.position.gross + (d.granted : Int) ≤ 999999999999 →
        let stamp := (c.counter + 1) % 65536
        let c' := { c with
          paid := c.paid - d.paid, lots := d.lotsLeft, counter := stamp, lastActivity := t.memory.today
          last := some ⟨.redeem merchant r.period, stamp, t.memory.today, d.paid, d.parts⟩ }
        let r' := { r with position := { r.position with
          gross := r.position.gross + (d.granted : Int)
          items := r.position.items + 1
          drawn := drawParts r.position.drawn d.parts } }
        let m := (({ w.1.memory with funds := w.1.memory.funds.spend d.paid d.parts } : RecordMemory).setMerchant index
          r').putCard slot c'
        run = .next ((w.1.withMemory m).enter 16 (if d.granted < amount then .inPart else .done)
          ⟨decide (m.total c' = 0), decide (d.granted < amount), decide (d.granted < amount),
            decide (1 ≤ sumLots d.parts), mark.isSome⟩ tag
          (.attempt (.redeemed d.granted d.paid d.parts stamp (c'.paid + sumLots c'.lots) (some method)
            (amount - d.granted) mark r.period))))

/-- R78, R80, R81: a HOLD that passes steps 1 to 7 is declined HOLDS-FULL, POOL-FULL or SHORT, in that order; otherwise it
takes the lowest FREE slot, moves its split from the card into the hold, and counts it at the merchant; the fund totals do not
change beyond the touch sweep. That a decline carries no CLAMPED, though the life asked was clamped, is log 18. -/
def Obligations.HoldReservesValue : Prop :=
  ∀ (s t : State) (tag card merchant amount selector sponsor allow life : Nat) (o : DebitOperands) (index : Nat)
    (r : Merchant) (slot : Slot) (c0 : Card) (method : Method),
    s.take (.hold tag card merchant amount selector sponsor allow life) = some t → t.engine = .trading →
    debitOf amount selector sponsor allow = some o → wellFormedNumber card = true →
    t.memory.findMerchant merchant = some (index, r) → t.memory.findCard card = some (slot, c0) →
    let k := t.memory.touch c0
    let c := k.card
    let p := t.memory.product c0.product
    let w := (t.withMemory k.memory).watchAttempt ⟨card, c0.product, r.category, merchant, amount, t.memory.clock⟩
    standing c (some r) = none → c.referralOpen = false → acceptance p r amount = (method, .locally) →
    lowestWith .freeze w.2 = none → lowestWith .refer w.2 = none →
    let mark := lowestWith .mark w.2
    let run := exec (.hold tag card merchant amount selector sponsor allow life) s
    let declined := fun reason =>
      let m := w.1.memory.settle slot c k.wrote
      run = .next ((w.1.withMemory m.1).enter 17 (.declined reason)
        ⟨decide (m.1.total c = 0), false, false, false, mark.isSome⟩ tag
        (.attempt (.declined (some method) mark none m.2)))
    let drawn := drawdown t.memory.today c amount o.purse p.order (o.allowPartial && p.allowPartial)
    (p.holdsPerCard ≤ c.holds.length → declined .holdsFull) ∧
    (c.holds.length < p.holdsPerCard →
      ((∀ j, j < 16384 → (t.memory.holdSlot j).record ≠ none) → declined .poolFull) ∧
      ∀ n, n < 16384 → (t.memory.holdSlot n).record = none → (∀ j, j < n → (t.memory.holdSlot j).record ≠ none) →
        (drawn = none → declined .short) ∧
        ∀ d, drawn = some d →
          let total := d.paid + sumLots d.parts
          let seconds := if life = 0 then p.holdLife else if life < 60 then 60 else min life p.maxHoldLife
          let expires := min 4294967295 (t.memory.clock + seconds)
          let generation := (t.memory.holdSlot n).generation
          let stamp := (c.counter + 1) % 65536
          let c' := { c with
            paid := c.paid - d.paid, lots := d.lotsLeft, holds := c.holds ++ [⟨n, generation⟩], counter := stamp
            lastActivity := t.memory.today, last := none }
          let m := ((w.1.memory.setHoldSlot n ⟨generation, (t.memory.holdSlot n).lastEnd,
              some ⟨.hold, card, merchant, d.paid, d.parts, t.memory.clock, expires, r.period⟩⟩).setMerchant index
              { r with openHolds := r.openHolds + 1 }).putCard slot c'
          run = .next ((w.1.withMemory m).enter 17 (if total < amount then .inPart else .done)
            ⟨decide (m.total c' = 0), decide (total < amount),
              decide (total < amount ∨ life ≠ 0 ∧ (life < 60 ∨ p.maxHoldLife < life) ∨
                4294967295 < t.memory.clock + seconds),
              decide (1 ≤ sumLots d.parts), mark.isSome⟩ tag
            (.attempt (.held ⟨n, generation⟩ total d.paid d.parts expires stamp (some method) (amount - total) mark))))

/-- R130 to R134: each of the 16 entries is evaluated on its own list, in number order. A run-out card leaves first; the
level-2 test reads the list as it then stands; a triggered ONE-SHOT entry empties its list; the level-1 test arms the card:
on the list it keeps its place with the attempt's merchant and time, and otherwise it joins at the end, the oldest dropped
first when four stand. -/
def Obligations.WatchEvaluatesEveryEntry : Prop :=
  (∀ (s : State) (a : WatchedAttempt), s.memory.watches.rising = true → s.armed.rising = true → ∀ i, i < 16 →
    let r := (s.memory.watchEntry i).evaluate a (s.armedList i)
    ((s.watchAttempt a).1.memory.watchEntry i) = { s.memory.watchEntry i with state := r.state } ∧
    (s.watchAttempt a).1.armedList i = r.list ∧
    ∀ action, (i, action) ∈ (s.watchAttempt a).2 ↔ r.triggered = true ∧ action = (s.memory.watchEntry i).action) ∧
  ∀ (w : WatchEntry) (a : WatchedAttempt) (list : List Armed),
    (w.state = .disabled ∨ w.state = .triggered → w.evaluate a list = ⟨w.state, list, false⟩) ∧
    (w.state = .waitFirst ∨ w.state = .waitSecond →
      let live := list.filter fun e => a.now ≤ e.time + w.window
      let hit := ∃ e ∈ live, e.card = a.card ∧ w.level2.meets a = true ∧ w.relation.passes a.merchant e.merchant = true
      let others := live.filter fun e => e.card ≠ a.card
      let new : Armed := ⟨a.card, a.merchant, a.now⟩
      let r := w.evaluate a list
      (r.triggered = true ↔ hit) ∧
      (hit → w.mode = .oneShot → r.state = .triggered ∧ r.list = []) ∧
      (¬ hit → w.level1.meets a = false → r.list = live) ∧
      (hit → w.mode = .rearm → w.level1.meets a = false → r.list = others) ∧
      (¬ hit → w.level1.meets a = true → (∃ e ∈ live, e.card = a.card) →
        r.list = live.map fun e => if e.card = a.card then new else e) ∧
      (¬ hit → w.level1.meets a = true → (∀ e ∈ live, e.card ≠ a.card) →
        r.list = (if live.length < 4 then live else live.drop 1) ++ [new]) ∧
      (hit → w.mode = .rearm → w.level1.meets a = true →
        r.list = (if others.length < 4 then others else others.drop 1) ++ [new]) ∧
      (r.state ≠ .triggered → r.state = if r.list = [] then .waitFirst else .waitSecond) ∧
      (list.length ≤ 4 → r.list.length ≤ 4) ∧
      ((list.map Armed.card).Nodup → (r.list.map Armed.card).Nodup))

/-- R73, R135, R114, R115: what step 7 makes of a REDEEM or HOLD that acceptance did not decline: a FREEZE freezes the card
and declines the attempt; a REFER, or a REFER result of acceptance, makes a referral entry, or is declined when 32 stand. The
entry takes the next referral number, the numbers that other entries hold passed over in turn, and its deadline is the reading
plus the setting. -/
def Obligations.WatchResultDirectsTheAttempt : Prop :=
  (∀ (s t : State) (i : Instr) (tag card merchant amount selector sponsor allow life code : Nat) (request : Attempted)
    (o : DebitOperands) (index : Nat) (r : Merchant) (slot : Slot) (c0 : Card) (method : Method) (result : Acceptance),
    (i = .redeem tag card merchant amount selector sponsor allow ∧ code = 16 ∧ request = .redeem ∨
      i = .hold tag card merchant amount selector sponsor allow life ∧ code = 17 ∧ request = .hold life) →
    s.take i = some t → t.engine = .trading → debitOf amount selector sponsor allow = some o →
    wellFormedNumber card = true → t.memory.findMerchant merchant = some (index, r) →
    t.memory.findCard card = some (slot, c0) →
    let k := t.memory.touch c0
    let c := k.card
    let w := (t.withMemory k.memory).watchAttempt ⟨card, c0.product, r.category, merchant, amount, t.memory.clock⟩
    standing c (some r) = none → c.referralOpen = false →
    acceptance (t.memory.product c0.product) r amount = (method, result) → result ≠ .category →
    let mark := lowestWith .mark w.2
    let declined := fun (c' : Card) (reason : DeclineReason) (freezer : Option Nat) =>
      let m := w.1.memory.settle slot c' k.wrote
      exec i s = .next ((w.1.withMemory m.1).enter code (.declined reason)
        ⟨decide (m.1.total c' = 0), false, false, false, mark.isSome⟩ tag
        (.attempt (.declined (some method) mark freezer m.2)))
    let terms : Terms := ⟨merchant, amount, o.purse, o.allowPartial, method⟩
    let refers := fun (kind : ReferralKind) =>
      if 32 ≤ t.referrals.length then declined c .referFull none
      else ∃ v e, w.1.makeReferral card tag kind = some (v, e) ∧
        let m := v.memory.settle slot { c with referralOpen := true } k.wrote
        exec i s = .next ((v.withMemory m.1).enter code .referred
          ⟨decide (m.1.total c = 0), false, false, false, mark.isSome⟩ tag
          (.attempt (.referred e.number kind e.deadline mark m.2)))
    match lowestWith .freeze w.2, lowestWith .refer w.2, result with
    | some n, _, _ => declined { c with frozen := true } .watchFrozen (some n)
    | none, some n, _ => refers (.watch request terms n)
    | none, none, .refer =>
      refers (match request with
        | .redeem => .debit terms
        | .hold life => .hold terms life)
    | none, none, _ => True) ∧
  ∀ (s : State) (card tag : Nat) (kind : ReferralKind),
    (32 ≤ s.referrals.length → s.makeReferral card tag kind = none) ∧
    (s.referrals.length < 32 → 1 ≤ s.memory.nextReferral → s.memory.nextReferral ≤ 65535 →
      ∃ v e, s.makeReferral card tag kind = some (v, e) ∧ 1 ≤ e.number ∧ e.number ≤ 65535 ∧
        (∀ f ∈ s.referrals, f.number ≠ e.number) ∧
        (∃ n, e.number = (s.memory.nextReferral - 1 + n) % 65535 + 1 ∧
          ∀ j, j < n → ∃ f ∈ s.referrals, f.number = (s.memory.nextReferral - 1 + j) % 65535 + 1) ∧
        e = ⟨e.number, kind, tag, card, s.memory.clock,
          min 4294967295 (s.memory.clock + s.memory.referralTime), .opened⟩ ∧
        v = { s with
          referrals := s.referrals ++ [e]
          lapseRecord := s.lapseRecord.filter fun n => n != e.number
          memory := { s.memory with nextReferral := if e.number = 65535 then 1 else e.number + 1 } })

/-! ### Holds -/

/-- R12 to R14, R9, R83: how much a CAPTURE takes and from where. Up to the held total it is taken from the hold's own parts:
the bonus share is the product's drawdown order's over the hold's paid part and parts, the parts give it in their order, and
the rest of each is left to return. Above the held total it is the whole hold and what a DEFAULT, UP-TO drawdown of the excess
gives, with the excess's parts joined to the hold's of the same sponsor and day (the combined part keeps the hold part's place,
log 33); above the limit, as for the limit, with CLAMPED. -/
def Obligations.CaptureAmountFollowsTheLimit : Prop :=
  ∀ (today : Nat) (p : Product) (c : Card) (h : HoldRecord) (asked : Nat),
    h.parts.Pairwise (fun a b => sameLot a b = false) → (∀ l ∈ h.parts, 1 ≤ l.amount) → (∀ l ∈ c.lots, 1 ≤ l.amount) →
    c.lots.Pairwise (fun a b => lotBefore a b = true) → 1 ≤ h.total →
    let limit := h.total * (100 + p.tolerance) / 100
    let x := planCapture today p c h asked
    let bonus := sumLots h.parts
    let share := match p.order with
      | .bonusFirst => min asked bonus
      | .paidFirst => asked - min asked h.paid
      | .proRata => asked * bonus / h.total
    let gives := fun y : Lot × Nat => min y.1.amount (share - sumLots (h.parts.take y.2))
    h.total ≤ limit ∧
    (asked ≤ h.total →
      x.paid = asked - share ∧ sumLots x.parts = share ∧ share ≤ asked ∧ x.paid ≤ h.paid ∧
      x.parts = h.parts.zipIdx.filterMap (fun y => if 0 < gives y then some { y.1 with amount := gives y } else none) ∧
      x.paidLeft = h.paid - x.paid ∧
      x.partsLeft = h.parts.zipIdx.filterMap (fun y =>
        if gives y < y.1.amount then some { y.1 with amount := y.1.amount - gives y } else none) ∧
      x.card = c ∧ x.shortfall = 0 ∧ x.clamped = false) ∧
    (h.total < asked → asked ≤ limit → x.paidLeft = 0 ∧ x.partsLeft = [] ∧ x.clamped = false ∧
      match drawdown today c (asked - h.total) .default p.order true with
      | none => x.paid = h.paid ∧ x.parts = h.parts ∧ x.card = c ∧ x.shortfall = asked - h.total
      | some d =>
        x.paid = h.paid + d.paid ∧ x.shortfall = asked - h.total - d.granted ∧
        x.card = { c with paid := c.paid - d.paid, lots := d.lotsLeft } ∧
        x.parts = h.parts.map (fun l => { l with
            amount := l.amount + sumLots (d.parts.filter fun q => q.sponsor = l.sponsor ∧ q.expiry = l.expiry) }) ++
          d.parts.filter fun q => ∀ l ∈ h.parts, ¬(q.sponsor = l.sponsor ∧ q.expiry = l.expiry)) ∧
    (limit < asked → x = { planCapture today p c h limit with clamped := true })

/-- R79, R82 to R84, R78: a CAPTURE of a found hold for its merchant pays the merchant the movement, returns the rest to
the card, frees the slot and records the movement, in one change; a hold of another merchant is unknown; a hold ended by
expiry is answered TOO-LATE. That a TOO-LATE answer carries no ZERO is log 17, that the answer carries the period
log 35, and that a decline carries no CLAMPED, though the amount was clamped, log 18. -/
def Obligations.CapturePaysFromTheHold : Prop :=
  ∀ (s t : State) (tag n generation merchant asked : Nat), s.take (.capture tag n generation merchant asked) = some t →
    t.engine ≠ .unformatted → n < 16384 → 1 ≤ asked → asked ≤ 10000000 → t.memory.merchants.rising = true →
    (∀ (h : HoldRecord) (index : Nat) (r : Merchant) (slot : Slot) (c0 : Card),
      t.memory.holdSlot n = ⟨generation, (t.memory.holdSlot n).lastEnd, some h⟩ → h.merchant = merchant →
      t.memory.findMerchant merchant = some (index, r) → t.memory.findCard h.card = some (slot, c0) →
      let k := t.memory.touch c0
      let x := planCapture t.memory.today (t.memory.product c0.product) k.card h asked
      let amount := x.paid + sumLots x.parts
      let back := placeParts t.memory.today x.card.lots x.partsLeft
      let stamp := (k.card.counter + 1) % 65536
      let c' := { x.card with
        paid := x.card.paid + x.paidLeft, lots := back.1, holds := k.card.holds.erase ⟨n, generation⟩
        counter := stamp, lastActivity := t.memory.today
        last := some ⟨.capture merchant r.period, stamp, t.memory.today, x.paid, x.parts⟩ }
      let r' := { r with
        openHolds := r.openHolds - 1
        position := { r.position with
          gross := r.position.gross + (amount : Int), items := r.position.items + 1
          drawn := drawParts r.position.drawn x.parts } }
      let m := ((({ k.memory with
          funds := (back.2.foldl Funds.returnPart k.memory.funds).spend x.paid x.parts } : RecordMemory).setHoldSlot n
          ⟨(generation + 1) % 65536, some ⟨generation, merchant, .settled⟩, none⟩).setMerchant index r').putCard slot c'
      if 999999999999 < r.position.gross + (amount : Int) then
        let z := k.memory.settle slot k.card k.wrote
        exec (.capture tag n generation merchant asked) s = .next ((t.withMemory z.1).enter 18
          (.declined .positionLimit) ⟨decide (z.1.total k.card = 0), false, false, false, false⟩ tag (.touched z.2))
      else
        exec (.capture tag n generation merchant asked) s = .next ((t.withMemory m).enter 18
          (if x.clamped = true ∨ 0 < x.shortfall then .inPart else .done)
          ⟨decide (m.total c' = 0), decide (0 < x.shortfall), x.clamped,
            decide (1 ≤ sumLots x.parts ∨ ∃ f ∈ back.2, f.2 ≠ .writtenOff), false⟩ tag
          (.captured amount x.paid x.parts stamp x.paidLeft back.2 x.shortfall r.period))) ∧
    (∀ h, t.memory.holdSlot n = ⟨generation, (t.memory.holdSlot n).lastEnd, some h⟩ → h.merchant ≠ merchant →
      exec (.capture tag n generation merchant asked) s = .next (t.enter 18 (.refused .unknownHold) AnswerFlags.none tag
        .empty)) ∧
    ((t.memory.holdSlot n).generation ≠ generation ∨ (t.memory.holdSlot n).record = none →
      exec (.capture tag n generation merchant asked) s = .next (t.enter 18
        (if (t.memory.holdSlot n).lastEnd = some ⟨generation, merchant, .expired⟩ then .declined .tooLate
          else .refused .unknownHold) AnswerFlags.none tag .empty))

/-- R85, R86, R15, R78: a RELEASE, and the expiry of a hold that is due before no other, give the held value back to the
touched card, free the slot with their own cause, and lower the merchant's open hold count; no position changes. -/
def Obligations.HoldsAreGivenBack : Prop :=
  ∀ (s t : State) (tag n generation merchant : Nat) (h : HoldRecord) (index : Nat) (r : Merchant) (slot : Slot)
    (c0 : Card) (last : Option LastEnd),
    t.memory.holdSlot n = ⟨generation, last, some h⟩ → h.merchant = merchant → t.engine ≠ .unformatted →
    t.memory.findMerchant merchant = some (index, r) → t.memory.findCard h.card = some (slot, c0) →
    let k := t.memory.touch c0
    let back := placeParts t.memory.today k.card.lots h.parts
    let stamp := (k.card.counter + 1) % 65536
    let c' := { k.card with
      paid := k.card.paid + h.paid, lots := back.1, holds := k.card.holds.erase ⟨n, generation⟩, counter := stamp
      lastActivity := t.memory.today, last := none }
    let m := fun cause => ((({ k.memory with funds := back.2.foldl Funds.returnPart k.memory.funds } :
        RecordMemory).setHoldSlot n
        ⟨(generation + 1) % 65536, some ⟨generation, merchant, cause⟩, none⟩).setMerchant index
        { r with openHolds := r.openHolds - 1 }).putCard slot c'
    (s.take (.release tag n generation merchant) = some t → n < 16384 →
      exec (.release tag n generation merchant) s = .next ((t.withMemory (m .settled)).enter 19 .done
        ⟨decide ((m .settled).total c' = 0), false, false, decide (∃ f ∈ back.2, f.2 ≠ .writtenOff), false⟩ tag
        (.released h.paid back.2 stamp))) ∧
    (t.powered = true → t.memory.holds.rising = true → h.expires ≤ t.memory.clock →
      (∀ j g, (t.memory.holdSlot j).record = some g → g.expires ≤ t.memory.clock → h.expires ≤ g.expires) →
      exec (.holdExpiry n) t = .next (t.withMemory (m .expired))) ∧
    (t.memory.holds.rising = true → t.memory.clock < h.expires → exec (.holdExpiry n) t = .next t)

/-! ### Split tender -/

/-- R90 to R94: a TENDER that passes its checks is taken in one change: its members are judged one at a time, in list order,
and then it settles. `run k` is the tender when the first k members are judged. A WHILE-DUE member reached at remainder 0 is
SKIPPED; any other is a debit attempt of the remainder on its touched card, which ends in the order of R72, with R80's tests and
an UP-TO drawdown as step 8: a member hold of the split is placed in the lowest FREE slot, and the remainder falls by it.
R93's table gives the outcome. A settled tender keeps every split and accrues it at the merchant, one item each; a released one
gives every split back to its card. No member hold outlives the tender, and nothing else changes. That the answer carries SHORT
when it is PARTIAL alone is log 18, that it carries the period of a capture log 35, which members' counters it carries log 24,
and that a remainder of 0 is at or below a referral floor of 0 log 34. -/
def Obligations.TenderSettlesWhole : Prop :=
  ∀ (s t : State) (tag merchant amount settle count : Nat) (members : List MemberOperands) (partly : Bool)
    (ps : List Member) (index : Nat) (r : Merchant),
    s.take (.tender tag merchant amount settle count members) = some t → t.engine = .trading →
    1 ≤ amount → amount ≤ 10000000 → 1 ≤ count → count ≤ 6 → flagOf settle = some partly →
    convertAll memberOf members = some ps → (∀ p ∈ ps, wellFormedNumber p.card = true) →
    (∀ p ∈ ps, (t.memory.findCard p.card).isSome = true) → t.memory.findMerchant merchant = some (index, r) →
    t.memory.merchants.rising = true → t.memory.holds.rising = true →
    ∃ (u : State) (answers : List MemberAnswer) (outcome : AnswerOutcome) (flags : AnswerFlags)
      (placed captured remainder : Nat) (period : Option Nat) (run : Nat → TenderRun),
      let f := run ps.length
      let whole := decide (outcome = .done ∨ outcome = .inPart)
      let mine := fun number : Nat => f.holds.filter fun d => decide (d.2.card = number)
      let back := fun c : Card => placeParts t.memory.today c.lots ((mine c.number).flatMap fun d => d.2.parts)
      exec (.tender tag merchant amount settle count members) s = .next u ∧
      u.answers = t.answers ++
        [⟨21, outcome, flags, tag, (t.lastNumber + 1) % 4294967296,
          .tendered answers placed captured remainder f.mark period⟩] ∧
      run 0 = ⟨t, amount, [], [], none, false⟩ ∧
      (∀ k p, ps[k]? = some p → ∃ slot c0, (run k).state.memory.findCard p.card = some (slot, c0) ∧
        let v := run k
        let x := v.state.memory.touch c0
        let c := x.card
        let q := t.memory.product c0.product
        let a := acceptance q r v.remainder
        let w := (v.state.withMemory x.memory).watchAttempt
          ⟨p.card, c0.product, r.category, merchant, v.remainder, t.memory.clock⟩
        let mark := lowestWith .mark w.2
        let judged := fun (z : State) (c' : Card) (result : MemberResult) (method : Option Method)
            (entry freezer : Option Nat) (clamped : Bool) (drawn : Nat) =>
          run (k + 1) = ⟨z.withMemory (z.memory.putCard slot c'), v.remainder - drawn,
            v.members ++ [⟨p.card, result, method, freezer⟩], noteCard p.card (x.wrote || decide (0 < drawn)) v.changed,
            lowerEntry v.mark entry, v.clamped || clamped⟩
        let early := fun (c' : Card) (reason : DeclineReason) (method : Option Method) (clamped : Bool) =>
          judged (v.state.withMemory x.memory) c' (.declined reason) method none none clamped 0
        let late := fun (c' : Card) (reason : DeclineReason) (freezer : Option Nat) =>
          judged w.1 c' (.declined reason) (some a.1) mark freezer false 0
        if p.condition = .whileDue ∧ v.remainder = 0 then
          run (k + 1) = { v with members := v.members ++ [⟨p.card, .skipped, none, none⟩] }
        else if c.base = .expired then early c .cardExpired none false
        else if c.frozen = true then early c .cardFrozen none false
        else if c.softLocked = true then
          early { c with
            attemptPending := true, blockedCount := min 255 (c.blockedCount + 1), lastBlocked := some merchant }
            .cardLocked none (decide (255 ≤ c.blockedCount))
        else if r.state = .suspended then early c .merchantSuspended none false
        else if c.referralOpen = true then early c .cardBusy none false
        else if a.2 = .category then early c .category (some a.1) false
        else if (lowestWith .freeze w.2).isSome = true then
          late { c with frozen := true } .watchFrozen (lowestWith .freeze w.2)
        else if (lowestWith .refer w.2).isSome = true ∨ a.2 = .refer then late c .needsReferral none
        else if q.holdsPerCard ≤ c.holds.length then late c .holdsFull none
        else if ∀ n, n < 16384 → (v.state.memory.holdSlot n).record ≠ none then late c .poolFull none
        else if v.remainder = 0 then late c .short none
        else
          match drawdown t.memory.today c v.remainder p.purse q.order true with
          | none => late c .short none
          | some d =>
            ∃ n, n < 16384 ∧ (v.state.memory.holdSlot n).record = none ∧
              (∀ j, j < n → (v.state.memory.holdSlot j).record ≠ none) ∧
              let total := d.paid + sumLots d.parts
              let h : HoldRecord := ⟨.tender, p.card, merchant, d.paid, d.parts, t.memory.clock, t.memory.clock, r.period⟩
              let generation := (t.memory.holdSlot n).generation
              let z := w.1.withMemory ((w.1.memory.setHoldSlot n
                ⟨generation, (t.memory.holdSlot n).lastEnd, some h⟩).setMerchant index
                  { r with openHolds := r.openHolds + v.holds.length + 1 })
              1 ≤ total ∧ total ≤ v.remainder ∧
              judged z { c with
                  paid := c.paid - d.paid, lots := d.lotsLeft, holds := c.holds ++ [⟨n, generation⟩] }
                (.placed n h) (some a.1) mark none false total) ∧
      remainder = f.remainder ∧ placed + remainder = amount ∧
      outcome = (if f.holds = [] then .declined .short
        else if 0 < remainder ∧ partly = false then .declined .short
        else if 999999999999 < r.position.gross + (placed : Int) then .declined .positionLimit
        else if remainder = 0 then .done else .inPart) ∧
      captured = (if whole = true then placed else 0) ∧
      period = (if whole = true then some r.period else none) ∧
      answers = (f.members.map fun m =>
        let counter := if m.card ∈ f.changed then (u.memory.findCard m.card).map fun e => e.2.counter else none
        match m.result with
        | .skipped => ⟨.skipped, 0, m.method, m.freezer, counter⟩
        | .declined reason => ⟨.declined reason, 0, m.method, m.freezer, counter⟩
        | .placed _ h =>
          ⟨if whole = true then .taken else .returned, h.paid + sumLots h.parts, m.method, m.freezer, counter⟩) ∧
      answers.length = ps.length ∧
      placed = ((answers.filter fun a => decide (a.status = .taken ∨ a.status = .returned)).map
        MemberAnswer.amount).sum ∧
      (flags.zero = true ↔ ∀ p ∈ ps, ∀ e, u.memory.findCard p.card = some e → u.memory.total e.2 = 0) ∧
      flags.short = decide (outcome = .inPart) ∧ flags.clamped = f.clamped ∧ flags.watch = f.mark.isSome ∧
      (whole = true → flags.bonus = decide (∃ d ∈ f.holds, 1 ≤ sumLots d.2.parts)) ∧
      (whole = false → (flags.bonus = true ↔ ∃ p ∈ ps, ∃ e, f.state.memory.findCard p.card = some e ∧
        ∃ x ∈ (back e.2).2, x.2 ≠ .writtenOff)) ∧
      (∀ p ∈ ps, ∃ slot c, f.state.memory.findCard p.card = some (slot, c) ∧
        let noted := decide (p.card ∈ f.changed)
        u.memory.cardAt slot = some { c with
          paid := if whole = true then c.paid else c.paid + ((mine c.number).map fun d => d.2.paid).sum
          lots := if whole = true then c.lots else (back c).1
          holds := (mine c.number).foldl (fun l d => l.erase ⟨d.1, (t.memory.holdSlot d.1).generation⟩) c.holds
          counter := if noted = true then (c.counter + 1) % 65536 else c.counter
          lastActivity := if noted = true then t.memory.today else c.lastActivity
          last := if noted = true then none else c.last }) ∧
      (∀ q, (∀ p ∈ ps, ∀ e, t.memory.findCard p.card = some e → e.1 ≠ q) →
        u.memory.cardAt q = t.memory.cardAt q) ∧
      u.memory.merchant index = (if whole = true then
          { r with position := { r.position with
            gross := r.position.gross + (placed : Int)
            items := r.position.items + (f.holds.length : Int)
            drawn := f.holds.foldl (fun b d => drawParts b d.2.parts) r.position.drawn } }
        else r) ∧
      (∀ j, j ≠ index → u.memory.merchant j = t.memory.merchant j) ∧
      (∀ n, u.memory.holdSlot n = if n ∈ f.holds.map Prod.fst then
          ⟨((t.memory.holdSlot n).generation + 1) % 65536,
            some ⟨(t.memory.holdSlot n).generation, merchant, .settled⟩, none⟩
        else t.memory.holdSlot n) ∧
      (∀ n, (u.memory.holdSlot n).record = (t.memory.holdSlot n).record) ∧
      (whole = true → u.memory.funds = f.holds.foldl (fun g d => g.spend d.2.paid d.2.parts) f.state.memory.funds) ∧
      (whole = false → (∀ p ∈ ps, ∀ e, f.state.memory.findCard p.card = some e → ∀ x ∈ (back e.2).2, x.2 ≠ .writtenOff) →
        u.memory.funds = f.state.memory.funds) ∧
      u = { t with
        memory := u.memory, armed := f.state.armed, answers := u.answers, lastNumber := u.lastNumber
        interruptsSent := u.interruptsSent } ∧
      u.memory = { t.memory with
        mainCards := u.memory.mainCards, poolCards := u.memory.poolCards, merchants := u.memory.merchants
        holds := u.memory.holds, watches := f.state.memory.watches, funds := u.memory.funds }

/-! ### Refunds and voids -/

/-- R97 to R101, R23: a REFUND judged on the touched card: its declines in order, and what it does when it passes them. Each
bonus part is restored up to the merchant's bonus drawn less its bonus returned, and the rest converted to paid value. That
the answer carries the period is log 35, and that a decline after the conversion carries no CLAMPED log 18. -/
def Obligations.RefundCreditsTheCard : Prop :=
  (∀ (s t : State) (tag card merchant paid count : Nat) (parts : List PartOperands) (ps : List (Fin 8 × Nat))
    (total index : Nat) (r : Merchant) (slot : Slot) (c0 : Card),
    s.take (.refund tag card merchant paid count parts) = some t → t.engine = .trading →
    refundOf paid count parts = some (ps, total) → wellFormedNumber card = true →
    t.memory.findMerchant merchant = some (index, r) → t.memory.findCard card = some (slot, c0) →
    let k := t.memory.touch c0
    let c := k.card
    let p := t.memory.product c0.product
    let capped := ps.map (capPart r.position)
    let credit := paid + (capped.map CappedPart.converted).sum
    let day := min 65535 (t.memory.today + p.refundLife)
    let restored : List Lot := (capped.filter fun x => 0 < x.restored).map fun x => ⟨x.sponsor, day, x.restored⟩
    let due := r.position.gross - r.position.refunded + r.position.carryIn - (total : Int)
    let run := exec (.refund tag card merchant paid count parts) s
    let declined := fun reason =>
      let m := k.memory.settle slot c k.wrote
      run = .next ((t.withMemory m.1).enter 22 (.declined reason)
        ⟨decide (m.1.total c = 0), false, false, false, false⟩ tag (.touched m.2))
    if r.state = .suspended then declined .merchantSuspended
    else if 999999999999 < r.position.refunded + (total : Int) then declined .positionLimit
    else if due < -(r.allowance : Int) then declined .allowance
    else if p.maxBalance < t.memory.total c + total then declined .overLimit
    else
      match restoreLots c.lots restored with
      | none => declined .lotsFull
      | some (lots, steps) =>
        let stamp := (c.counter + 1) % 65536
        let c' := { c with
          paid := c.paid + credit, lots := lots, counter := stamp, lastActivity := t.memory.today, last := none }
        let funds := restored.foldl (fun f l => { f with
          liability := addFor f.liability l.sponsor (BitVec.ofNat 64 l.amount), due := f.due - BitVec.ofNat 64 l.amount })
          { k.memory.funds with
            paidLiability := k.memory.funds.paidLiability + BitVec.ofNat 64 credit
            due := k.memory.funds.due - BitVec.ofNat 64 credit }
        let m := (({ k.memory with funds := funds } : RecordMemory).setMerchant index { r with position := { r.position with
          refunded := r.position.refunded + (total : Int)
          returned := capped.foldl (fun v x => addSponsor v x.sponsor (x.restored : Int)) r.position.returned }
          }).putCard slot c'
        run = .next ((t.withMemory m).enter 22 .done
          ⟨decide (m.total c' = 0), false,
            decide (0 < (capped.map CappedPart.converted).sum ∨ 65535 < t.memory.today + p.refundLife),
            decide (restored ≠ []), false⟩ tag
          (.refunded credit (capped.map fun x => (x.converted, x.restored)) day steps (c'.paid + sumLots lots) stamp
            due r.period))) ∧
  (∀ (q : Position) (x : Fin 8 × Nat),
    (capPart q x).restored + (capPart q x).converted = x.2 ∧ (capPart q x).sponsor = x.1 ∧
    ((capPart q x).restored : Int) = min (x.2 : Int) (max 0 (q.drawn[x.1.val] - q.returned[x.1.val]))) ∧
  ∀ (lots restored lots' : List Lot) (steps : List Nat), lots.Pairwise (fun a b => lotBefore a b = true) →
    restoreLots lots restored = some (lots', steps) →
    steps.length = restored.length ∧ sumLots lots' = sumLots lots + sumLots restored ∧
      lots'.Pairwise (fun a b => lotBefore a b = true)

/-- R103 to R109, R21, R23: a VOID-LAST judged on the touched card: its tests in order, and what it undoes. A load is taken
back off the card; a redemption or capture leaves its merchant's position and comes back to the card part by part. That a
record defined anew under a closed merchant's id is held to R105's numbers alone, and may so contain the movement, is log 40. -/
def Obligations.VoidLastUndoesTheMovement : Prop :=
  ∀ (s t : State) (tag card merchant stamp : Nat) (slot : Slot) (c0 : Card),
    s.take (.voidLast tag card merchant stamp) = some t → t.engine = .trading → stamp ≤ 65535 →
    wellFormedNumber card = true → t.memory.findCard card = some (slot, c0) →
    let k := t.memory.touch c0
    let c := k.card
    let run := exec (.voidLast tag card merchant stamp) s
    let next := (c.counter + 1) % 65536
    let declined := fun reason =>
      let m := k.memory.settle slot c k.wrote
      run = .next ((t.withMemory m.1).enter 23 (.declined reason)
        ⟨decide (m.1.total c = 0), false, false, false, false⟩ tag (.touched m.2))
    (c.last = none ∨ k.wrote = true → declined .stale) ∧
    ∀ v, c.last = some v → k.wrote = false →
      (v.stamp ≠ stamp ∨ v.day ≠ t.memory.today → declined .stale) ∧
      (v.stamp = stamp → v.day = t.memory.today → v.kind = .load →
        let c' := { c with paid := c.paid - v.paid, counter := next, lastActivity := t.memory.today, last := none }
        let m := ({ k.memory with funds := k.memory.funds.voidLoad v.paid } : RecordMemory).putCard slot c'
        run = .next ((t.withMemory m).enter 23 .done ⟨decide (m.total c' = 0), false, false, false, false⟩ tag
          (.voided .load v.paid v.paid [] (c'.paid + sumLots c.lots) next none none))) ∧
      (v.stamp = stamp → v.day = t.memory.today → ∀ atMerchant period,
        v.kind = .redeem atMerchant period ∨ v.kind = .capture atMerchant period →
        (merchant ≠ atMerchant → declined .stale) ∧
        (merchant = atMerchant → (∀ index r, t.memory.findMerchant merchant = some (index, r) →
            r.period ≠ period ∨ r.position.gross < ((v.paid + sumLots v.parts : Nat) : Int) ∨ r.position.items < 1 ∨
              ∃ x : Fin 8, r.position.drawn[x.val] <
                ((sumLots (v.parts.filter fun l => l.sponsor = x) : Nat) : Int)) → declined .cut) ∧
        (∀ index r, merchant = atMerchant → t.memory.findMerchant merchant = some (index, r) → r.period = period →
          ((v.paid + sumLots v.parts : Nat) : Int) ≤ r.position.gross → 1 ≤ r.position.items →
          (∀ x : Fin 8, ((sumLots (v.parts.filter fun l => l.sponsor = x) : Nat) : Int) ≤ r.position.drawn[x.val]) →
          let amount := v.paid + sumLots v.parts
          let due := r.position.gross - (amount : Int) - r.position.refunded + r.position.carryIn
          if due < -(r.allowance : Int) then declined .allowance
          else
            let back := placeParts t.memory.today c.lots v.parts
            let c' := { c with
              paid := c.paid + v.paid, lots := back.1, counter := next, lastActivity := t.memory.today, last := none }
            let m := (({ k.memory with
                funds := back.2.foldl Funds.unspendPart (k.memory.funds.unspendPaid v.paid) } :
                RecordMemory).setMerchant index { r with position := { r.position with
                  gross := r.position.gross - (amount : Int), items := r.position.items - 1
                  drawn := undrawParts r.position.drawn v.parts } }).putCard slot c'
            run = .next ((t.withMemory m).enter 23 .done
              ⟨decide (m.total c' = 0), false, false, decide (∃ f ∈ back.2, f.2 ≠ .writtenOff), false⟩ tag
              (.voided v.kind amount v.paid back.2 (c'.paid + sumLots back.1) next (some due) (some r.period)))))

/-- R106: a void puts the card back exactly as it stood before the redemption: whatever was drawn, its parts placed again
one at a time give the paid value and the lots the card had, the position and the fund totals with them. -/
def Obligations.VoidPutsTheCardBack : Prop :=
  (∀ (today : Nat) (c : Card) (asked : Nat) (purse : Purse) (order : DrawOrder) (upTo : Bool) (d : Split),
    c.lots.Pairwise (fun a b => lotBefore a b = true) → c.lots.length ≤ 4 → (∀ l ∈ c.lots, 1 ≤ l.amount) →
    drawdown today c asked purse order upTo = some d →
    (placeParts today (c.draw d).lots d.parts).1 = c.lots ∧ (c.draw d).paid + d.paid = c.paid ∧
      ∀ f ∈ (placeParts today (c.draw d).lots d.parts).2, f.2 ≠ .writtenOff) ∧
  (∀ (q : Position) (amount : Nat) (parts : List Lot), (q.accrue amount parts).unaccrue amount parts = q) ∧
  ∀ (f : Funds) (paid : Nat) (parts : List Lot) (steps : List Nat), steps.length = parts.length →
    (List.zipWith (fun l n => (l, PartFate.joined n)) parts steps).foldl Funds.unspendPart
      ((f.spend paid parts).unspendPaid paid) = f

/-! ### Referrals -/

/-- R117 to R121, R69: a DECIDE on an OPEN entry takes it out of the queue and clears its card's referral-open flag. A DENY
moves no value; an approved UNLOCK clears the lock; an approved redemption or hold is judged on the touched card by steps 1 to
4 and step 8, steps 5 to 7 passed over, and is performed or declined. A LAPSED entry and a number of the lapse record are
answered TOO-LATE, any other UNKNOWN-REFERRAL. That a DECIDE answer carries ZERO by the entry's card, and none when it is
TOO-LATE, is log 17; that it carries the period of a redemption is log 35; and that a declined approval of a HOLD carries no
CLAMPED, though its life was clamped, log 18. -/
def Obligations.DecideEndsTheReferral : Prop :=
  ∀ (s t : State) (tag number decision : Nat), s.take (.decide tag number decision) = some t →
    t.engine ≠ .unformatted → 1 ≤ number → decision = 0 ∨ decision = 1 →
    let run := exec (.decide tag number decision) s
    (∀ e slot c0, t.findReferral number = some e → e.state = .opened → t.memory.findCard e.card = some (slot, c0) →
      let q := t.dropReferral number
      let answers := fun (m : RecordMemory) (c' : Card) o (f : AnswerFlags) body =>
        run = .next ((q.withMemory m).enter 24 o { f with zero := decide (m.total c' = 0) } tag
          (.decided number e.kind e.tag body))
      (decision = 1 →
        let c' := { c0 with
          referralOpen := false, attemptPending := if e.kind = .unlock then false else c0.attemptPending }
        answers (t.memory.putCard slot c') c' (.declined .denied) AnswerFlags.none (.declined none none none none)) ∧
      (decision = 0 → e.kind = .unlock →
        let c' := { c0 with
          referralOpen := false, softLocked := false, attemptPending := false, blockedCount := 0, lastBlocked := none }
        answers (t.memory.putCard slot c') c' .done AnswerFlags.none .unlocked) ∧
      ∀ (terms : Terms) (life : Nat), decision = 0 →
        let k := t.memory.touch c0
        let c := { k.card with referralOpen := false }
        let p := t.memory.product c0.product
        let ends := fun (c' : Card) reason (clamped : Bool) =>
          let z := k.memory.settle slot c' k.wrote
          answers z.1 c' (.declined reason) ⟨false, false, clamped, false, false⟩
            (.declined (some terms.method) none none z.2)
        let found := t.memory.findMerchant terms.merchant
        let debits := e.kind = .debit terms ∨ ∃ entry, e.kind = .watch .redeem terms entry
        let holds := e.kind = .hold terms life ∨ ∃ entry, e.kind = .watch (.hold life) terms entry
        debits ∨ holds →
        if c.base = .expired then ends c .cardExpired false
        else if c.frozen = true then ends c .cardFrozen false
        else if c.softLocked = true then
          ends { c with
            attemptPending := true, blockedCount := min 255 (c.blockedCount + 1), lastBlocked := some terms.merchant }
            .cardLocked (decide (255 ≤ c.blockedCount))
        else
          (found = none → ends c .merchantSuspended false) ∧
          ∀ index r, found = some (index, r) → if r.state = .suspended then ends c .merchantSuspended false else
            let drawn := drawdown t.memory.today c terms.amount terms.purse p.order
              (terms.allowPartial && p.allowPartial)
            let stamp := (c.counter + 1) % 65536
            (debits → drawn = none → ends c .short false) ∧
            (holds → p.holdsPerCard ≤ c.holds.length → ends c .holdsFull false) ∧
            (holds → c.holds.length < p.holdsPerCard → (∀ j, j < 16384 → (t.memory.holdSlot j).record ≠ none) →
              ends c .poolFull false) ∧
            (holds → c.holds.length < p.holdsPerCard → (∃ j, j < 16384 ∧ (t.memory.holdSlot j).record = none) →
              drawn = none → ends c .short false) ∧
            ∀ d, drawn = some d → d.granted = d.paid + sumLots d.parts →
              let total := d.paid + sumLots d.parts
              (debits → 999999999999 < r.position.gross + (total : Int) → ends c .positionLimit false) ∧
              (debits → r.position.gross + (total : Int) ≤ 999999999999 →
                let c' := { c with
                  paid := c.paid - d.paid, lots := d.lotsLeft, counter := stamp, lastActivity := t.memory.today
                  last := some ⟨.redeem terms.merchant r.period, stamp, t.memory.today, d.paid, d.parts⟩ }
                let m := (({ k.memory with funds := k.memory.funds.spend d.paid d.parts } :
                  RecordMemory).setMerchant index { r with position := { r.position with
                    gross := r.position.gross + (total : Int), items := r.position.items + 1
                    drawn := drawParts r.position.drawn d.parts } }).putCard slot c'
                answers m c' (if total < terms.amount then .inPart else .done)
                  ⟨false, decide (total < terms.amount), decide (total < terms.amount), decide (1 ≤ sumLots d.parts),
                    false⟩
                  (.redeemed total d.paid d.parts stamp (c'.paid + sumLots c'.lots) (some terms.method)
                    (terms.amount - total) none r.period)) ∧
              ∀ n, holds → c.holds.length < p.holdsPerCard → n < 16384 → (t.memory.holdSlot n).record = none →
                (∀ j, j < n → (t.memory.holdSlot j).record ≠ none) →
                let seconds := if life = 0 then p.holdLife else if life < 60 then 60 else min life p.maxHoldLife
                let expires := min 4294967295 (t.memory.clock + seconds)
                let handle : Handle := ⟨n, (t.memory.holdSlot n).generation⟩
                let c' := { c with
                  paid := c.paid - d.paid, lots := d.lotsLeft, holds := c.holds ++ [handle], counter := stamp
                  lastActivity := t.memory.today, last := none }
                let m := ((k.memory.setHoldSlot n ⟨handle.generation, (t.memory.holdSlot n).lastEnd,
                    some ⟨.hold, e.card, terms.merchant, d.paid, d.parts, t.memory.clock, expires,
                      r.period⟩⟩).setMerchant index { r with openHolds := r.openHolds + 1 }).putCard slot c'
                answers m c' (if total < terms.amount then .inPart else .done)
                  ⟨false, decide (total < terms.amount),
                    decide (total < terms.amount ∨ life ≠ 0 ∧ (life < 60 ∨ p.maxHoldLife < life) ∨
                      4294967295 < t.memory.clock + seconds), decide (1 ≤ sumLots d.parts), false⟩
                  (.held handle total d.paid d.parts expires stamp (some terms.method) (terms.amount - total) none)) ∧
    ((∃ e, t.findReferral number = some e ∧ e.state = .lapsed) ∨
        t.findReferral number = none ∧ number ∈ t.lapseRecord →
      run = .next (t.enter 24 (.declined .tooLate) AnswerFlags.none tag .empty)) ∧
    (t.findReferral number = none → number ∉ t.lapseRecord →
      run = .next (t.enter 24 (.refused .unknownReferral) AnswerFlags.none tag .empty))

/-- R116, R127: SET-REFERRAL-TIME replaces the setting, from 5 to 300 seconds, and gives the one before; the entries keep
their deadlines, and an entry made later takes the setting as it then stands; FORMAT sets 30. INQUIRE-REFERRAL with 0
summarises the queue, and with a number gives the entry, or answers by the lapse record. That a REFUSED or TOO-LATE answer
names no card and carries no ZERO is log 17. -/
def Obligations.ReferralSettingAndInquiry : Prop :=
  (∀ (s t : State) (tag seconds : Nat), s.take (.setReferralTime tag seconds) = some t →
    exec (.setReferralTime tag seconds) s =
      if t.engine = .unformatted then .next (t.enter 25 (.refused .wrongState) AnswerFlags.none tag .empty)
      else if seconds < 5 ∨ 300 < seconds then .next (t.enter 25 (.refused .badField) AnswerFlags.none tag .empty)
      else .next ((t.withMemory { t.memory with referralTime := seconds }).enter 25 .done AnswerFlags.none tag
        (.referralTime t.memory.referralTime seconds))) ∧
  (∀ (s v : State) (card tag : Nat) (kind : ReferralKind) (e : Referral), s.makeReferral card tag kind = some (v, e) →
    e.deadline = min 4294967295 (s.memory.clock + s.memory.referralTime)) ∧
  (∀ (s t : State) (tag day reading : Nat), s.take (.format tag day reading) = some t → t.engine ≠ .trading →
    ∃ u, exec (.format tag day reading) s = .next u ∧ u.memory.referralTime = 30) ∧
  ∀ (s t : State) (tag number : Nat), s.take (.inquireReferral tag number) = some t →
    let run := exec (.inquireReferral tag number) s
    if t.engine = .unformatted then run = .next (t.enter 26 (.refused .wrongState) AnswerFlags.none tag .empty)
    else if number = 0 then
      run = .next (t.enter 26 .done AnswerFlags.none tag (.referralSummary
        (t.referrals.countP fun e => e.state = .opened) (t.referrals.countP fun e => e.state = .lapsed)
        (t.referrals.map Referral.number) t.memory.referralTime t.memory.nextReferral))
    else
      match t.findReferral number with
      | some e => ∃ flags, run = .next (t.enter 26 .done flags tag (.referral e))
      | none => run = .next (t.enter 26 (if number ∈ t.lapseRecord then .declined .tooLate else .refused .unknownReferral)
          AnswerFlags.none tag .empty)

/-- R122, R123, R188: the lapse of an OPEN entry whose deadline the reading has reached, none due earlier. With a slot free
the entry leaves the queue and its notice enters in the same change; with none the LAPSED entry joins the waiting list, and
LAPSE_NOTICE serves it from the head of that list. An UNLOCK entry's card loses attempt-pending at the lapse. That no lapse is
taken while a LAPSED entry waits and a slot is free is the model's reading (log 19). -/
def Obligations.LapsePlacesItsNotice : Prop :=
  ∀ (s : State) (number : Nat) (e : Referral) (slot : Slot) (c : Card), s.powered = true →
    s.findReferral number = some e → s.memory.findCard e.card = some (slot, c) →
    let fields := e.kind.noticeFields
    let pending := if e.kind = .unlock then false else c.attemptPending
    (s.engine ≠ .unformatted → e.state = .opened → e.deadline ≤ s.memory.clock →
      (∀ f ∈ s.referrals, f.state = .opened → f.deadline ≤ s.memory.clock → e.deadline ≤ f.deadline) →
      (s.answers.length < 64 → (∀ n, Producer.entry n ∉ s.waiting) → exec (.lapse number) s = .next
        (({ s with
            referrals := s.referrals.filter fun f => f.number ≠ number
            lapseRecord := (if 32 ≤ s.lapseRecord.length then s.lapseRecord.drop 1 else s.lapseRecord) ++ [number]
            memory := s.memory.putCard slot { c with referralOpen := false, attemptPending := pending } } :
            State).enter 65534 .notice AnswerFlags.none 0
          (.lapseNotice number fields.1 e.tag e.card fields.2.1 fields.2.2))) ∧
      (64 ≤ s.answers.length → ∃ u, exec (.lapse number) s = .next u ∧
        u.waiting = s.waiting ++ [.entry number] ∧ u.answers = s.answers ∧
        u.referrals = s.referrals.map (fun f => if f.number = number then { f with state := .lapsed } else f) ∧
        u.memory.cardAt slot = some { c with attemptPending := pending } ∧
        (∀ other, other ≠ slot → u.memory.cardAt other = s.memory.cardAt other) ∧
        u.memory.funds = s.memory.funds)) ∧
    ∀ rest, s.waiting = .entry number :: rest →
      (s.answers.length < 64 → exec .lapseNotice s = .next
        (({ s with
            waiting := rest
            referrals := s.referrals.filter fun f => f.number ≠ number
            lapseRecord := (if 32 ≤ s.lapseRecord.length then s.lapseRecord.drop 1 else s.lapseRecord) ++ [number]
            memory := s.memory.putCard slot { c with referralOpen := false } } : State).enter 65534 .notice
          AnswerFlags.none 0 (.lapseNotice number fields.1 e.tag e.card fields.2.1 fields.2.2))) ∧
      (64 ≤ s.answers.length → exec .lapseNotice s = .next s)

/-! ### Products, sponsors, merchants and tiers -/

/-- R52, R54 to R58, R16 to R18: what each product, sponsor and fund total request writes and answers, by the record's state,
and the fields DEFINE-PRODUCT takes. That a freed product's record is one with every field 0, as INQUIRE-PRODUCT then shows
it, is log 27. -/
def Obligations.ProductAndSponsorRequests : Prop :=
  (∀ (s t : State) (tag i : Nat), t.engine ≠ .unformatted → i < 64 →
    let old := t.memory.product i
    let same := fun code o body => Host.Outcome.next (t.enter code o AnswerFlags.none tag body)
    let done := fun code p body => Host.Outcome.next ((t.withMemory (t.memory.setProduct i p)).enter code .done
      AnswerFlags.none tag body)
    (∀ fields, s.take (.defineProduct tag i fields) = some t → productOf fields = none →
      exec (.defineProduct tag i fields) s = same 27 (.refused .badField) .empty) ∧
    (∀ fields p, s.take (.defineProduct tag i fields) = some t → productOf fields = some p →
      exec (.defineProduct tag i fields) s =
        if old.state = .unused then done 27 { p with state := .active, issued := 0 } .empty
        else if 0 < old.issued ∧ (p.maxBalance < old.maxBalance ∨ p.holdsPerCard < old.holdsPerCard) then
          same 27 (.refused .inUse) .empty
        else done 27 { p with state := old.state, issued := old.issued } (.productCount old.issued)) ∧
    (s.take (.withdrawProduct tag i) = some t → exec (.withdrawProduct tag i) s =
      match old.state with
      | .active => done 28 { old with state := .withdrawn } .empty
      | .withdrawn => if old.issued = 0 then done 28 Product.unused .empty else same 28 (.refused .inUse) .empty
      | .unused => same 28 (.refused .unknownProduct) .empty) ∧
    (s.take (.reinstateProduct tag i) = some t → exec (.reinstateProduct tag i) s =
      match old.state with
      | .withdrawn => done 29 { old with state := .active } .empty
      | .active => same 29 .done .empty
      | .unused => same 29 (.refused .unknownProduct) .empty) ∧
    (s.take (.inquireProduct tag i) = some t → exec (.inquireProduct tag i) s = same 30 .done (.product old))) ∧
  (∀ f : ProductOperands, (productOf f).isSome = true ↔
    f.mode ≤ 2 ∧ f.order ≤ 2 ∧ f.reload ≤ 1 ∧ f.allowPartial ≤ 1 ∧ (1 ≤ f.maxBalance ∧ f.maxBalance ≤ 10000000) ∧
      (1 ≤ f.minLoad ∧ f.minLoad ≤ f.maxLoad ∧ f.maxLoad ≤ 10000000) ∧ (1 ≤ f.cardLife ∧ f.cardLife ≤ 3650) ∧
      (1 ≤ f.bonusLife ∧ f.bonusLife ≤ 730) ∧ (1 ≤ f.refundLife ∧ f.refundLife ≤ 365) ∧
      (60 ≤ f.holdLife ∧ f.holdLife ≤ f.maxHoldLife ∧ f.maxHoldLife ≤ 604800) ∧
      (1 ≤ f.holdsPerCard ∧ f.holdsPerCard ≤ 8) ∧ f.tolerance ≤ 25) ∧
  ∀ (s t : State) (tag i : Nat), t.engine ≠ .unformatted → ∀ h : i < 8,
    let same := fun code o body => Host.Outcome.next (t.enter code o AnswerFlags.none tag body)
    let done := fun code st => Host.Outcome.next ((t.withMemory (t.memory.setSponsor i st)).enter code .done
      AnswerFlags.none tag .empty)
    let f := t.memory.funds
    (s.take (.defineSponsor tag i) = some t → exec (.defineSponsor tag i) s = done 31 .active) ∧
    (s.take (.retireSponsor tag i) = some t → exec (.retireSponsor tag i) s =
      match t.memory.sponsor i with
      | .active => done 32 .retired
      | .retired => same 32 .done .empty
      | .unused => same 32 (.refused .unknownSponsor) .empty) ∧
    (s.take (.inquireSponsor tag i) = some t → exec (.inquireSponsor tag i) s =
      same 33 .done (.sponsor (t.memory.sponsor i) f.granted[i] f.liability[i] f.expired[i] f.billed[i])) ∧
    (s.take (.inquireFunds tag) = some t → exec (.inquireFunds tag) s =
      same 34 .done (.funds f.cashIn f.cashOut f.paidLiability f.due f.paidOut f.fees f.writeOff f.granted.sum
        f.liability.sum f.expired.sum f.billed.sum))

/-- R141, R143 to R147, R151, R25: what each merchant and tier request writes and answers. A DEFINE-MERCHANT updates the used
record of its id or takes the lowest UNUSED one; a CLOSE-MERCHANT needs no open hold and no positive due, bills the sponsors
and writes the shortfall off; INQUIRE-MERCHANT names its record by id or by index; an id that no used record has is refused. A
DEFINE-TIER with fields in range replaces the tier and gives the one before; INQUIRE-TIER gives it. That a closed merchant's
record has every field 0 is log 27. -/
def Obligations.MerchantRequests : Prop :=
  ∀ (s t : State) (tag id : Nat), t.engine ≠ .unformatted →
    let same := fun code o body => Host.Outcome.next (t.enter code o AnswerFlags.none tag body)
    let done := fun code i r body => Host.Outcome.next ((t.withMemory (t.memory.setMerchant i r)).enter code .done
      AnswerFlags.none tag body)
    (∀ category trust tier floor allowance period,
      s.take (.defineMerchant tag id category trust tier floor allowance period) = some t → category < 64 →
      trust < 4 → tier < 16 → floor ≤ 10000000 → allowance ≤ 100000000 →
      let run := exec (.defineMerchant tag id category trust tier floor allowance period) s
      (∀ i r, t.memory.findMerchant id = some (i, r) → run = done 35 i
        { r with category := category, trust := trust, tier := tier, floor := floor, allowance := allowance }
        (.merchantIndex i)) ∧
      (t.memory.findMerchant id = none →
        (∀ i, i < 512 → (t.memory.merchant i).state = .unused → (∀ j, j < i → (t.memory.merchant j).state ≠ .unused) →
          run = done 35 i ⟨.opened, id, category, trust, tier, floor, allowance, 0, period, Position.zero⟩
            (.merchantIndex i)) ∧
        ((∀ i, i < 512 → (t.memory.merchant i).state ≠ .unused) → run = same 35 (.refused .tableFull) .empty))) ∧
    (∀ i r, t.memory.findMerchant id = some (i, r) →
      let due := r.position.gross - r.position.refunded + r.position.carryIn
      (s.take (.suspendMerchant tag id) = some t → exec (.suspendMerchant tag id) s =
        done 36 i { r with state := .suspended } (.merchantStanding r.openHolds due)) ∧
      (s.take (.reinstateMerchant tag id) = some t → exec (.reinstateMerchant tag id) s =
        done 37 i { r with state := .opened } (.merchantStanding r.openHolds due)) ∧
      (s.take (.closeMerchant tag id) = some t → exec (.closeMerchant tag id) s =
        if 0 < r.openHolds then same 38 (.refused .holdsOpen) .empty
        else if 0 < due then same 38 (.refused .dueOpen) .empty
        else
          let billings := Vector.zipWith (fun a b => a - b) r.position.drawn r.position.returned
          let f := t.memory.funds
          .next ((t.withMemory (({ t.memory with funds := { f with
              writeOff := f.writeOff + BitVec.ofInt 64 (-due), due := f.due + BitVec.ofInt 64 (-due)
              billed := Vector.zipWith (fun a b => a + BitVec.ofInt 64 b) f.billed billings } } :
              RecordMemory).setMerchant i Merchant.unused)).enter 38 .done AnswerFlags.none tag
            (.merchantClosed i due (-due) billings))) ∧
      (∀ page index, page < 3 → s.take (.inquireMerchant tag 0 page index id) = some t →
        exec (.inquireMerchant tag 0 page index id) s = same 39 .done (.merchantPage i r.state id r.period
          (if page = 0 then .record r.category r.trust r.tier r.floor r.allowance r.openHolds r.position.gross
            r.position.refunded r.position.items r.position.carryIn due
          else if page = 1 then .drawn r.position.drawn else .returned r.position.returned)))) ∧
    (∀ page index, page < 3 → index < 512 → s.take (.inquireMerchant tag 1 page index id) = some t →
      let r := t.memory.merchant index
      exec (.inquireMerchant tag 1 page index id) s = same 39 .done (if r.state = .unused then .merchantUnused
        else .merchantPage index r.state r.id r.period
          (if page = 0 then .record r.category r.trust r.tier r.floor r.allowance r.openHolds r.position.gross
            r.position.refunded r.position.items r.position.carryIn
            (r.position.gross - r.position.refunded + r.position.carryIn)
          else if page = 1 then .drawn r.position.drawn else .returned r.position.returned))) ∧
    (t.memory.findMerchant id = none →
      (s.take (.suspendMerchant tag id) = some t →
        exec (.suspendMerchant tag id) s = same 36 (.refused .unknownMerchant) .empty) ∧
      (s.take (.reinstateMerchant tag id) = some t →
        exec (.reinstateMerchant tag id) s = same 37 (.refused .unknownMerchant) .empty) ∧
      (s.take (.closeMerchant tag id) = some t →
        exec (.closeMerchant tag id) s = same 38 (.refused .unknownMerchant) .empty) ∧
      (∀ page index, page < 3 → s.take (.inquireMerchant tag 0 page index id) = some t →
        exec (.inquireMerchant tag 0 page index id) s = same 39 (.refused .unknownMerchant) .empty)) ∧
    ∀ tier rate itemFee minFee maxFee : Nat, tier < 16 →
      (s.take (.defineTier tag tier rate itemFee minFee maxFee) = some t →
        exec (.defineTier tag tier rate itemFee minFee maxFee) s =
          if rate ≤ 1000 ∧ itemFee ≤ 1000 ∧ minFee ≤ 100000 ∧ maxFee ≤ 10000000 ∧ (maxFee = 0 ∨ minFee ≤ maxFee) then
            .next ((t.withMemory (t.memory.setTier tier ⟨rate, itemFee, minFee, maxFee⟩)).enter 40 .done
              AnswerFlags.none tag (.tier (t.memory.tier tier)))
          else same 40 (.refused .badField) .empty) ∧
      (s.take (.inquireTier tag tier) = some t → exec (.inquireTier tag tier) s =
        same 41 .done (.tier (t.memory.tier tier)))

/-- R152, R153: what a cut computes. The net is the due; at or below 0 it is carried and nothing is paid; above 0 the fee is
the rate part, which is the rate's share of the net rounded half to even, with the item fees, kept within the tier's least and
most and within the net, and the payout is the rest. The carry is the new period's carry-in. Within the ranges of R142 and
R151, with no more items than the gross, the products stay below 10^15. -/
def Obligations.TiersAndTheFeeOfACut : Prop :=
  ∀ (t : Tier) (p : Position),
    let c := cutOf t p
    c.net = p.gross - p.refunded + p.carryIn ∧ c.net = p.due ∧
    (∀ r : Merchant, (r.afterCut c).position.carryIn = min c.net 0) ∧
    (p.gross ≤ 999999999999 → 0 ≤ p.refunded → p.carryIn ≤ 0 → p.items ≤ p.gross → t.rate ≤ 1000 → t.itemFee ≤ 1000 →
      c.net * t.rate < 10 ^ 15 ∧ p.items * t.itemFee < 10 ^ 15) ∧
    c.billings = Vector.zipWith (fun a b => a - b) p.drawn p.returned ∧
    (c.net ≤ 0 → c.fee = 0 ∧ c.payout = 0 ∧ c.carry = c.net) ∧
    (0 < c.net → c.carry = 0 ∧ c.payout + c.fee = c.net ∧ 0 ≤ c.fee ∧ c.fee ≤ c.net ∧
      ∃ q : Int, 10000 * (2 * q - 1) ≤ 2 * (c.net * t.rate) ∧ 2 * (c.net * t.rate) ≤ 10000 * (2 * q + 1) ∧
        (2 * (c.net * t.rate) = 10000 * (2 * q - 1) ∨ 2 * (c.net * t.rate) = 10000 * (2 * q + 1) → q % 2 = 0) ∧
        c.fee = min c.net (if t.maxFee = 0 then max (q + p.items * t.itemFee) t.minFee
          else min (max (q + p.items * t.itemFee) t.minFee) t.maxFee))

/-! ### The watch's requests -/

/-- R136 to R139, R131: DEFINE-WATCH, REARM-WATCH and INQUIRE-WATCH, and a card's window expiry, which is taken when its
reading has passed and no other due falls earlier. -/
def Obligations.WatchRequests : Prop :=
  (∀ (s t : State) (tag i : Nat), t.engine ≠ .unformatted → i < 16 →
    let w := t.memory.watchEntry i
    let list := t.armedList i
    let same := fun code o body => Host.Outcome.next (t.enter code o AnswerFlags.none tag body)
    let done := fun code w' body => Host.Outcome.next
      (({ t with memory := t.memory.setWatchEntry i w', armed := t.armed.set [] i [] } : State).enter code .done
        AnswerFlags.none tag body)
    (∀ fields w', s.take (.defineWatch tag i fields) = some t → watchOf fields = some w' →
      (w'.state = .waitFirst ↔ fields.enable = 1) ∧ (w'.state = .disabled ↔ fields.enable = 0) ∧
      exec (.defineWatch tag i fields) s = done 42 w' (.watchDefined w.state list.length)) ∧
    (s.take (.rearmWatch tag i) = some t → exec (.rearmWatch tag i) s =
      match w.state with
      | .triggered => done 43 { w with state := .waitFirst } .empty
      | .disabled => same 43 (.refused .wrongState) .empty
      | _ => same 43 .done .empty) ∧
    (s.take (.inquireWatch tag i) = some t → exec (.inquireWatch tag i) s =
      same 44 .done (.watch w (list.map fun e => (e, e.time + w.window))))) ∧
  ∀ (s : State) (i card : Nat) (x : Armed), s.powered = true → s.engine ≠ .unformatted → i < 16 → x ∈ s.armedList i →
    x.card = card → x.time + (s.memory.watchEntry i).window < s.memory.clock →
    (∀ j, j < 16 → ∀ y ∈ s.armedList j, y.time + (s.memory.watchEntry j).window < s.memory.clock →
      x.time + (s.memory.watchEntry i).window ≤ y.time + (s.memory.watchEntry j).window) →
    let w := s.memory.watchEntry i
    let list := (s.armedList i).filter fun y => y.card ≠ card
    exec (.windowExpiry i card) s = .next { s with
      memory := s.memory.setWatchEntry i
        { w with state := if w.state = .waitSecond ∧ list = [] then .waitFirst else w.state }
      armed := s.armed.set [] i list }

/-! ### Payout runs -/

/-- R157, R166 to R168: START-PAYOUT begins a run on an IDLE or DONE descriptor, STOP-PAYOUT pauses or ends one, RESUME-PAYOUT
goes on, INQUIRE-PAYOUT reads; a run that does not stand so is refused. That INQUIRE-PAYOUT reads the descriptor after its own take,
its step credit counting the inquiry itself, is log 22. -/
def Obligations.PayoutRequests : Prop :=
  ∀ (s t : State) (tag i : Nat), t.engine ≠ .unformatted → i < 4 →
    let d := t.memory.descriptor i
    let busy := d.state = .running ∨ d.state = .waiting ∨ d.state = .stopped
    let same := fun code o body => Host.Outcome.next (t.enter code o AnswerFlags.none tag body)
    let done := fun code d' body => Host.Outcome.next ((t.withMemory (t.memory.setDescriptor i d')).enter code .done
      AnswerFlags.none tag body)
    let report : RunReport := ⟨d.label, d.first, d.last, d.cursor, d.cut, d.passed, d.payout, d.fees, d.billed, d.carried⟩
    (∀ mode run ratio first last label, s.take (.startPayout tag i mode ratio first last label) = some t →
      mode = 0 ∧ run = .step ∨ mode = 1 ∧ run = .burst → 1 ≤ ratio → ratio ≤ 64 → first ≤ last → last ≤ 511 →
      (busy → exec (.startPayout tag i mode ratio first last label) s = same 45 (.refused .runBusy) .empty) ∧
      (d.state = .idle ∨ d.state = .done → exec (.startPayout tag i mode ratio first last label) s =
        done 45 ⟨.running, first, last, first, label, run, ratio, 0, 0, 0, 0, 0, 0, 0⟩ (.payoutStarted i))) ∧
    (∀ form, s.take (.stopPayout tag i form) = some t → form = 0 ∨ form = 1 →
      (d.state = .idle ∨ d.state = .done → exec (.stopPayout tag i form) s = same 46 (.refused .wrongState) .empty) ∧
      (busy → exec (.stopPayout tag i form) s = .next
        (({ t with
            waiting := t.waiting.erase (.descriptor i)
            memory := t.memory.setDescriptor i { d with state := if form = 0 then .stopped else .done } } :
            State).enter 46 .done AnswerFlags.none tag (if form = 0 then .empty else .runEnded report)))) ∧
    (s.take (.resumePayout tag i) = some t → exec (.resumePayout tag i) s =
      match d.state with
      | .stopped => done 47 { d with state := .running } .empty
      | .running | .waiting => same 47 .done .empty
      | _ => same 47 (.refused .wrongState) .empty) ∧
    (s.take (.inquirePayout tag i) = some t → exec (.inquirePayout tag i) s = same 48 .done (.descriptor d
      (if d.state = .waiting then some (if d.last < d.cursor then .close else .cut) else none)))

/-- R158, R160 to R164, R188: the arbiter gives the turn to the first eligible descriptor after the last served; the turn
ends the run, cuts the merchant at the cursor, or passes it. A step that needs an answer slot waits when none is free, and
DESCRIPTOR_SERVICE takes it from the head of the waiting list. That a turn with no descriptor eligible changes nothing is
log 3, and that a turn may take a free slot while older producers wait log 25. -/
def Obligations.TurnExaminesTheMerchant : Prop :=
  (∀ (s : State) (i : Nat),
    let ready := fun j =>
      let d := s.memory.descriptor j
      d.state = .running ∧ (d.mode = .burst ∨ d.ratio ≤ d.credit ∨ s.inbound = [] ∨ d.last < d.cursor)
    s.nextTurn = some i ↔ ∃ k, 1 ≤ k ∧ k ≤ 4 ∧ i = (s.lastServed + k) % 4 ∧ ready i ∧
      ∀ l, 1 ≤ l → l < k → ¬ ready ((s.lastServed + l) % 4)) ∧
  ∀ (s : State) (i : Nat) (rest : List Producer), s.powered = true → s.engine ≠ .unformatted →
    let d := s.memory.descriptor i
    let r := s.memory.merchant d.cursor
    let c := cutOf (s.memory.tier r.tier) r.position
    let cuts := r.state ≠ .unused ∧ r.period = d.label
    let passed := fun (t : State) =>
      t.withMemory (t.memory.setDescriptor i
        { d with state := .running, passed := d.passed + 1, cursor := d.cursor + 1 })
    let ended := fun (t : State) =>
      (t.withMemory (t.memory.setDescriptor i { d with state := .done })).enter 65533 .notice AnswerFlags.none 0
        (.payoutEnd i ⟨d.label, d.first, d.last, d.cursor, d.cut, d.passed, d.payout, d.fees, d.billed, d.carried⟩)
    let f := s.memory.funds
    let cut := fun (t : State) =>
      (t.withMemory ((({ t.memory with funds := { f with
            paidOut := f.paidOut + BitVec.ofInt 64 c.payout, fees := f.fees + BitVec.ofInt 64 c.fee
            due := f.due - BitVec.ofInt 64 (c.payout + c.fee)
            billed := Vector.zipWith (fun a b => a + BitVec.ofInt 64 b) f.billed c.billings } } :
          RecordMemory).setMerchant d.cursor { r with
            period := (r.period + 1) % 4294967296
            position := ⟨0, 0, 0, c.carry, Vector.replicate 8 0, Vector.replicate 8 0⟩ }).setDescriptor i
          { d with
            state := .running, cut := d.cut + 1, payout := d.payout + c.payout, fees := d.fees + c.fee
            billed := d.billed + c.billings.sum, carried := d.carried + c.carry, cursor := d.cursor + 1
            credit := 0 })).enter 65532 .notice AnswerFlags.none 0 (.payoutAdvice i d.cursor r.id d.label c)
    let waits := fun (t : State) =>
      { t.withMemory (t.memory.setDescriptor i { d with state := .waiting }) with
        waiting := t.waiting ++ [.descriptor i] }
    (s.nextTurn = some i →
      let t := { s with lastServed := i }
      exec .turn s = .next
        (if d.last < d.cursor then (if s.answers.length < 64 then ended t else waits t)
        else if cuts then (if s.answers.length < 64 then cut t else waits t)
        else passed t)) ∧
    (s.nextTurn = none → exec .turn s = .next s) ∧
    (s.waiting = .descriptor i :: rest → s.answers.length < 64 → d.state = .waiting →
      let t := { s with waiting := rest }
      exec .descriptorService s = .next
        (if d.last < d.cursor then ended t else if cuts then cut t else passed t)) ∧
    (s.waiting = .descriptor i :: rest → 64 ≤ s.answers.length → exec .descriptorService s = .next s)

/-! ### What every step keeps, and the messages -/

/-- R19: whatever the command, a step keeps the conservation law of the fund totals, with the amounts that the update slots
still have to add. -/
def Obligations.StepConservesTheFundTotals : Prop :=
  ∀ (s u : State), s.conserves → step s = .next u → u.conserves

/-- Every step keeps every table, and the contents of the update slots, in canonical form. -/
def Obligations.StepKeepsTheTablesCanonical : Prop :=
  ∀ (s u : State), s.tablesWf = true → step s = .next u → u.tablesWf = true

/-- R113, R131, R184, R185, R129: every step keeps the queues, the lapse record and the armed-card lists within their sizes,
and keeps a powered board's watch entries in WAIT-SECOND exactly while their lists are not empty. -/
def Obligations.StepKeepsQueuesWithinCapacity : Prop :=
  (∀ s u : State, s.queuesFit → step s = .next u → u.queuesFit) ∧
  ∀ s u : State, s.tablesWf = true → s.watchesAgree → step s = .next u → u.watchesAgree

/-- R20, R28, R33, R53, R77, R113: every step, a power loss or an engine reset within any changes included, keeps the records
in agreement with one another: the liability totals and due with the cards, the OPEN holds and the merchants; the holds with
the hold lists and the merchants' open hold counts; the issued counts with the cards; and the referral-open flags with the
Referral Queue. -/
def Obligations.StepKeepsTheRecordsInAgreement : Prop :=
  ∀ s u : State, s.tablesWf = true → s.Agrees → step s = .next u → u.Agrees

/-- R194: the machine right after reset is a start with retention lost, and meets the invariants. That the first start
is taken to be one with retention lost, and what its settings hold, is the model's (log 4). -/
def Obligations.ResetMeetsTheInvariants : Prop :=
  State.reset.conserves ∧ State.reset.tablesWf = true ∧ State.reset.queuesFit ∧ State.reset.watchesAgree ∧
    State.reset.Agrees ∧
    State.reset.engine = .unformatted ∧ State.reset.startCause = .cold ∧ State.reset.retention = .lost ∧
    State.reset.memory.funds = Funds.zero ∧ State.reset.memory.clock = 0 ∧ State.reset.answers = [] ∧
    State.reset.inbound = [] ∧ State.reset.interruptEnable = false ∧ State.reset.pending = [] ∧
    ∀ slot, State.reset.memory.cardAt slot = none

/-- R187, R197 to R199: every well-formed request reads back, operand for operand, from the message that spells it. -/
def Obligations.RequestsReadBackFromTheirMessages : Prop :=
  ∀ (i : Instr) (m : Message), i.wellFormed = true → i.toMessage = some m → m.length = 128 ∧ readMessage m = i
end

