-- ==== Sys2Proof/Laws/Funds.lean ====
section
/-! SUPPORT. The fund totals: what each movement of value does to the two sides of the conservation law (R19, R21 to R25),
and how an update slot's amounts add (R193). -/

namespace Sys2Proof.Machine

/-! ### The per-sponsor sums -/

theorem addFor_getElem_same (v : Vector Total 8) (s : Fin 8) (x : Total) : (addFor v s x)[s.val] = v[s.val] + x := by
  simp [addFor]

theorem addFor_getElem_other (v : Vector Total 8) {s : Fin 8} {j : Nat} (x : Total) (hj : j < 8) (h : j ≠ s.val) :
    (addFor v s x)[j] = v[j] := by
  simp only [addFor]
  rw [Vector.getElem_set_ne]
  exact fun he => h he.symm

/-- Growing one sponsor's entry grows the sum by as much. -/
theorem sumSponsors_addFor (v : Vector Total 8) (s : Fin 8) (x : Total) :
    sumSponsors (addFor v s x) = sumSponsors v + x := by
  unfold sumSponsors addFor
  fin_cases s <;> simp <;> ring

theorem sumSponsors_add (a b : Vector Total 8) :
    sumSponsors (Vector.zipWith (· + ·) a b) = sumSponsors a + sumSponsors b := by
  simp only [sumSponsors, Vector.getElem_zipWith]
  ring

theorem sumSponsors_sub (a b : Vector Total 8) :
    sumSponsors (Vector.zipWith (· - ·) a b) = sumSponsors a - sumSponsors b := by
  simp only [sumSponsors, Vector.getElem_zipWith]
  ring

/-! ### Every movement keeps the two sides of the law equal -/

theorem Funds.imbalance_zero : Funds.zero.imbalance = 0 := by decide

theorem Funds.imbalance_takeIn (f : Funds) (n : Nat) : (f.takeIn n).imbalance = f.imbalance := by
  simp only [Funds.imbalance, Funds.takeIn]
  ring

theorem Funds.imbalance_voidLoad (f : Funds) (n : Nat) : (f.voidLoad n).imbalance = f.imbalance := by
  simp only [Funds.imbalance, Funds.voidLoad]
  ring

theorem Funds.imbalance_cashOutPaid (f : Funds) (n : Nat) : (f.cashOutPaid n).imbalance = f.imbalance := by
  simp only [Funds.imbalance, Funds.cashOutPaid]
  ring

theorem Funds.imbalance_grant (f : Funds) (s : Fin 8) (n : Nat) : (f.grant s n).imbalance = f.imbalance := by
  simp only [Funds.imbalance, Funds.grant, sumSponsors_addFor]
  ring

theorem Funds.imbalance_writeOffLot (f : Funds) (p : Lot) : (f.writeOffLot p).imbalance = f.imbalance := by
  simp only [Funds.imbalance, Funds.writeOffLot, sumSponsors_addFor]
  ring

theorem Funds.imbalance_writeOffLots (lots : List Lot) (f : Funds) :
    (lots.foldl Funds.writeOffLot f).imbalance = f.imbalance := by
  induction lots generalizing f with
  | nil => rfl
  | cons l rest ih => rw [List.foldl_cons, ih, Funds.imbalance_writeOffLot]

theorem Funds.imbalance_spendPart (f : Funds) (p : Lot) : (f.spendPart p).imbalance = f.imbalance := by
  simp only [Funds.imbalance, Funds.spendPart, sumSponsors_addFor]
  ring

theorem Funds.imbalance_spend (f : Funds) (paid : Nat) (parts : List Lot) :
    (f.spend paid parts).imbalance = f.imbalance := by
  have h : ∀ (parts : List Lot) (g : Funds), (parts.foldl Funds.spendPart g).imbalance = g.imbalance := by
    intro parts
    induction parts with
    | nil => intro g; rfl
    | cons p rest ih => intro g; rw [List.foldl_cons, ih, Funds.imbalance_spendPart]
  rw [Funds.spend, h]
  simp only [Funds.imbalance]
  ring

theorem Funds.imbalance_unspendPaid (f : Funds) (n : Nat) : (f.unspendPaid n).imbalance = f.imbalance := by
  simp only [Funds.imbalance, Funds.unspendPaid]
  ring

theorem Funds.imbalance_unspendPart (f : Funds) (p : Lot × PartFate) : (f.unspendPart p).imbalance = f.imbalance := by
  unfold Funds.unspendPart
  split <;> simp only [Funds.imbalance, sumSponsors_addFor] <;> ring

theorem Funds.imbalance_unspendParts (parts : List (Lot × PartFate)) (f : Funds) :
    (parts.foldl Funds.unspendPart f).imbalance = f.imbalance := by
  induction parts generalizing f with
  | nil => rfl
  | cons p rest ih => rw [List.foldl_cons, ih, Funds.imbalance_unspendPart]

theorem Funds.imbalance_returnParts (parts : List (Lot × PartFate)) (f : Funds) :
    (parts.foldl Funds.returnPart f).imbalance = f.imbalance := by
  induction parts generalizing f with
  | nil => rfl
  | cons p rest ih =>
    rw [List.foldl_cons, ih]
    unfold Funds.returnPart
    split
    · rfl
    · exact Funds.imbalance_writeOffLot ..

theorem Funds.imbalance_grants (lots : List Lot) (f : Funds) :
    (lots.foldl (fun f l => f.grant l.sponsor l.amount) f).imbalance = f.imbalance := by
  induction lots generalizing f with
  | nil => rfl
  | cons l rest ih => rw [List.foldl_cons, ih, Funds.imbalance_grant]

/-- Sponsor billed stands outside the law (R19). -/
theorem Funds.imbalance_billAll (f : Funds) (b : Vector Int 8) : (f.billAll b).imbalance = f.imbalance := by
  have h : ∀ (l : List (Fin 8)) (g : Funds),
      (l.foldl (fun f s => f.bill s b[s.val]) g).imbalance = g.imbalance := by
    intro l
    induction l with
    | nil => intro g; rfl
    | cons s rest ih => intro g; rw [List.foldl_cons, ih]; rfl
  exact h _ f

theorem Funds.imbalance_writeOffDue (f : Funds) (x : Int) : (f.writeOffDue x).imbalance = f.imbalance := by
  simp only [Funds.imbalance, Funds.writeOffDue]
  ring

theorem moneyInt_add (x y : Int) : moneyInt (x + y) = moneyInt x + moneyInt y := BitVec.ofInt_add x y

theorem Funds.imbalance_settleCut (f : Funds) (c : CutResult) : (f.settleCut c).imbalance = f.imbalance := by
  rw [Funds.settleCut, Funds.imbalance_billAll]
  simp only [Funds.imbalance, moneyInt_add]
  ring

theorem Funds.imbalance_add (a b : Funds) : (a.add b).imbalance = a.imbalance + b.imbalance := by
  simp only [Funds.imbalance, Funds.add, sumSponsors_add]
  ring

theorem Funds.imbalance_sub (a b : Funds) : (a.sub b).imbalance = a.imbalance - b.imbalance := by
  simp only [Funds.imbalance, Funds.sub, sumSponsors_sub]
  ring

/-- An update slot's amounts added to the totals it was computed from give the totals of the whole change (R193). -/
theorem Funds.add_sub (a b : Funds) : a.add (b.sub a) = b := by
  have hv : ∀ x y : Vector Total 8, Vector.zipWith (· + ·) x (Vector.zipWith (· - ·) y x) = y := by
    intro x y
    ext i hi
    simp
  cases a
  cases b
  simp [Funds.add, Funds.sub, hv]

end Sys2Proof.Machine
end

