-- ==== Sys2Proof/Laws/State.lean ====
section
/-! SUPPORT. One lemma for each field of each update of the state and of Record Memory, so that no proof unfolds a record
update: what the update writes reads as written, and every other field reads as before. -/

namespace Sys2Proof.Machine

/-! ### State.enter -/

@[simp] theorem State.enter_pending (s : State) (kind : Nat) (o : AnswerOutcome) (f : AnswerFlags) (tag : Nat) (b : AnswerBody) : (s.enter kind o f tag b).pending = s.pending := rfl
@[simp] theorem State.enter_powered (s : State) (kind : Nat) (o : AnswerOutcome) (f : AnswerFlags) (tag : Nat) (b : AnswerBody) : (s.enter kind o f tag b).powered = s.powered := rfl
@[simp] theorem State.enter_memory (s : State) (kind : Nat) (o : AnswerOutcome) (f : AnswerFlags) (tag : Nat) (b : AnswerBody) : (s.enter kind o f tag b).memory = s.memory := rfl
@[simp] theorem State.enter_slots (s : State) (kind : Nat) (o : AnswerOutcome) (f : AnswerFlags) (tag : Nat) (b : AnswerBody) : (s.enter kind o f tag b).slots = s.slots := rfl
@[simp] theorem State.enter_retention (s : State) (kind : Nat) (o : AnswerOutcome) (f : AnswerFlags) (tag : Nat) (b : AnswerBody) : (s.enter kind o f tag b).retention = s.retention := rfl
@[simp] theorem State.enter_indicatorCheck (s : State) (kind : Nat) (o : AnswerOutcome) (f : AnswerFlags) (tag : Nat) (b : AnswerBody) : (s.enter kind o f tag b).indicatorCheck = s.indicatorCheck := rfl
@[simp] theorem State.enter_engine (s : State) (kind : Nat) (o : AnswerOutcome) (f : AnswerFlags) (tag : Nat) (b : AnswerBody) : (s.enter kind o f tag b).engine = s.engine := rfl
@[simp] theorem State.enter_startCause (s : State) (kind : Nat) (o : AnswerOutcome) (f : AnswerFlags) (tag : Nat) (b : AnswerBody) : (s.enter kind o f tag b).startCause = s.startCause := rfl
@[simp] theorem State.enter_inbound (s : State) (kind : Nat) (o : AnswerOutcome) (f : AnswerFlags) (tag : Nat) (b : AnswerBody) : (s.enter kind o f tag b).inbound = s.inbound := rfl
@[simp] theorem State.enter_postArea (s : State) (kind : Nat) (o : AnswerOutcome) (f : AnswerFlags) (tag : Nat) (b : AnswerBody) : (s.enter kind o f tag b).postArea = s.postArea := rfl
@[simp] theorem State.enter_overrun (s : State) (kind : Nat) (o : AnswerOutcome) (f : AnswerFlags) (tag : Nat) (b : AnswerBody) : (s.enter kind o f tag b).overrun = s.overrun := rfl
@[simp] theorem State.enter_answers (s : State) (kind : Nat) (o : AnswerOutcome) (f : AnswerFlags) (tag : Nat) (b : AnswerBody) :
    (s.enter kind o f tag b).answers = s.answers ++ [⟨kind, o, f, tag, (s.lastNumber + 1) % wordSpan, b⟩] := rfl
@[simp] theorem State.enter_lastNumber (s : State) (kind : Nat) (o : AnswerOutcome) (f : AnswerFlags) (tag : Nat) (b : AnswerBody) :
    (s.enter kind o f tag b).lastNumber = (s.lastNumber + 1) % wordSpan := rfl
@[simp] theorem State.enter_interruptEnable (s : State) (kind : Nat) (o : AnswerOutcome) (f : AnswerFlags) (tag : Nat) (b : AnswerBody) : (s.enter kind o f tag b).interruptEnable = s.interruptEnable := rfl
@[simp] theorem State.enter_interruptsSent (s : State) (kind : Nat) (o : AnswerOutcome) (f : AnswerFlags) (tag : Nat) (b : AnswerBody) :
    (s.enter kind o f tag b).interruptsSent = if s.answers.isEmpty && s.interruptEnable then s.interruptsSent + 1 else s.interruptsSent := rfl
@[simp] theorem State.enter_waiting (s : State) (kind : Nat) (o : AnswerOutcome) (f : AnswerFlags) (tag : Nat) (b : AnswerBody) : (s.enter kind o f tag b).waiting = s.waiting := rfl
@[simp] theorem State.enter_referrals (s : State) (kind : Nat) (o : AnswerOutcome) (f : AnswerFlags) (tag : Nat) (b : AnswerBody) : (s.enter kind o f tag b).referrals = s.referrals := rfl
@[simp] theorem State.enter_lapseRecord (s : State) (kind : Nat) (o : AnswerOutcome) (f : AnswerFlags) (tag : Nat) (b : AnswerBody) : (s.enter kind o f tag b).lapseRecord = s.lapseRecord := rfl
@[simp] theorem State.enter_armed (s : State) (kind : Nat) (o : AnswerOutcome) (f : AnswerFlags) (tag : Nat) (b : AnswerBody) : (s.enter kind o f tag b).armed = s.armed := rfl
@[simp] theorem State.enter_lastServed (s : State) (kind : Nat) (o : AnswerOutcome) (f : AnswerFlags) (tag : Nat) (b : AnswerBody) : (s.enter kind o f tag b).lastServed = s.lastServed := rfl

/-! ### State.enterNotice -/

@[simp] theorem State.enterNotice_pending (s : State) (kind : Nat) (b : AnswerBody) : (s.enterNotice kind b).pending = s.pending := rfl
@[simp] theorem State.enterNotice_powered (s : State) (kind : Nat) (b : AnswerBody) : (s.enterNotice kind b).powered = s.powered := rfl
@[simp] theorem State.enterNotice_memory (s : State) (kind : Nat) (b : AnswerBody) : (s.enterNotice kind b).memory = s.memory := rfl
@[simp] theorem State.enterNotice_slots (s : State) (kind : Nat) (b : AnswerBody) : (s.enterNotice kind b).slots = s.slots := rfl
@[simp] theorem State.enterNotice_retention (s : State) (kind : Nat) (b : AnswerBody) : (s.enterNotice kind b).retention = s.retention := rfl
@[simp] theorem State.enterNotice_indicatorCheck (s : State) (kind : Nat) (b : AnswerBody) : (s.enterNotice kind b).indicatorCheck = s.indicatorCheck := rfl
@[simp] theorem State.enterNotice_engine (s : State) (kind : Nat) (b : AnswerBody) : (s.enterNotice kind b).engine = s.engine := rfl
@[simp] theorem State.enterNotice_startCause (s : State) (kind : Nat) (b : AnswerBody) : (s.enterNotice kind b).startCause = s.startCause := rfl
@[simp] theorem State.enterNotice_inbound (s : State) (kind : Nat) (b : AnswerBody) : (s.enterNotice kind b).inbound = s.inbound := rfl
@[simp] theorem State.enterNotice_postArea (s : State) (kind : Nat) (b : AnswerBody) : (s.enterNotice kind b).postArea = s.postArea := rfl
@[simp] theorem State.enterNotice_overrun (s : State) (kind : Nat) (b : AnswerBody) : (s.enterNotice kind b).overrun = s.overrun := rfl
@[simp] theorem State.enterNotice_answers (s : State) (kind : Nat) (b : AnswerBody) :
    (s.enterNotice kind b).answers = s.answers ++ [⟨kind, .notice, AnswerFlags.none, 0, (s.lastNumber + 1) % wordSpan, b⟩] := rfl
@[simp] theorem State.enterNotice_lastNumber (s : State) (kind : Nat) (b : AnswerBody) :
    (s.enterNotice kind b).lastNumber = (s.lastNumber + 1) % wordSpan := rfl
@[simp] theorem State.enterNotice_interruptEnable (s : State) (kind : Nat) (b : AnswerBody) : (s.enterNotice kind b).interruptEnable = s.interruptEnable := rfl
@[simp] theorem State.enterNotice_interruptsSent (s : State) (kind : Nat) (b : AnswerBody) :
    (s.enterNotice kind b).interruptsSent = if s.answers.isEmpty && s.interruptEnable then s.interruptsSent + 1 else s.interruptsSent := rfl
@[simp] theorem State.enterNotice_waiting (s : State) (kind : Nat) (b : AnswerBody) : (s.enterNotice kind b).waiting = s.waiting := rfl
@[simp] theorem State.enterNotice_referrals (s : State) (kind : Nat) (b : AnswerBody) : (s.enterNotice kind b).referrals = s.referrals := rfl
@[simp] theorem State.enterNotice_lapseRecord (s : State) (kind : Nat) (b : AnswerBody) : (s.enterNotice kind b).lapseRecord = s.lapseRecord := rfl
@[simp] theorem State.enterNotice_armed (s : State) (kind : Nat) (b : AnswerBody) : (s.enterNotice kind b).armed = s.armed := rfl
@[simp] theorem State.enterNotice_lastServed (s : State) (kind : Nat) (b : AnswerBody) : (s.enterNotice kind b).lastServed = s.lastServed := rfl

/-! ### State.wait -/

@[simp] theorem State.wait_pending (s : State) (p : Producer) : (s.wait p).pending = s.pending := rfl
@[simp] theorem State.wait_powered (s : State) (p : Producer) : (s.wait p).powered = s.powered := rfl
@[simp] theorem State.wait_memory (s : State) (p : Producer) : (s.wait p).memory = s.memory := rfl
@[simp] theorem State.wait_slots (s : State) (p : Producer) : (s.wait p).slots = s.slots := rfl
@[simp] theorem State.wait_retention (s : State) (p : Producer) : (s.wait p).retention = s.retention := rfl
@[simp] theorem State.wait_indicatorCheck (s : State) (p : Producer) : (s.wait p).indicatorCheck = s.indicatorCheck := rfl
@[simp] theorem State.wait_engine (s : State) (p : Producer) : (s.wait p).engine = s.engine := rfl
@[simp] theorem State.wait_startCause (s : State) (p : Producer) : (s.wait p).startCause = s.startCause := rfl
@[simp] theorem State.wait_inbound (s : State) (p : Producer) : (s.wait p).inbound = s.inbound := rfl
@[simp] theorem State.wait_postArea (s : State) (p : Producer) : (s.wait p).postArea = s.postArea := rfl
@[simp] theorem State.wait_overrun (s : State) (p : Producer) : (s.wait p).overrun = s.overrun := rfl
@[simp] theorem State.wait_answers (s : State) (p : Producer) : (s.wait p).answers = s.answers := rfl
@[simp] theorem State.wait_lastNumber (s : State) (p : Producer) : (s.wait p).lastNumber = s.lastNumber := rfl
@[simp] theorem State.wait_interruptEnable (s : State) (p : Producer) : (s.wait p).interruptEnable = s.interruptEnable := rfl
@[simp] theorem State.wait_interruptsSent (s : State) (p : Producer) : (s.wait p).interruptsSent = s.interruptsSent := rfl
@[simp] theorem State.wait_waiting (s : State) (p : Producer) :
    (s.wait p).waiting = s.waiting ++ [p] := rfl
@[simp] theorem State.wait_referrals (s : State) (p : Producer) : (s.wait p).referrals = s.referrals := rfl
@[simp] theorem State.wait_lapseRecord (s : State) (p : Producer) : (s.wait p).lapseRecord = s.lapseRecord := rfl
@[simp] theorem State.wait_armed (s : State) (p : Producer) : (s.wait p).armed = s.armed := rfl
@[simp] theorem State.wait_lastServed (s : State) (p : Producer) : (s.wait p).lastServed = s.lastServed := rfl

/-! ### State.unwait -/

@[simp] theorem State.unwait_pending (s : State) (p : Producer) : (s.unwait p).pending = s.pending := rfl
@[simp] theorem State.unwait_powered (s : State) (p : Producer) : (s.unwait p).powered = s.powered := rfl
@[simp] theorem State.unwait_memory (s : State) (p : Producer) : (s.unwait p).memory = s.memory := rfl
@[simp] theorem State.unwait_slots (s : State) (p : Producer) : (s.unwait p).slots = s.slots := rfl
@[simp] theorem State.unwait_retention (s : State) (p : Producer) : (s.unwait p).retention = s.retention := rfl
@[simp] theorem State.unwait_indicatorCheck (s : State) (p : Producer) : (s.unwait p).indicatorCheck = s.indicatorCheck := rfl
@[simp] theorem State.unwait_engine (s : State) (p : Producer) : (s.unwait p).engine = s.engine := rfl
@[simp] theorem State.unwait_startCause (s : State) (p : Producer) : (s.unwait p).startCause = s.startCause := rfl
@[simp] theorem State.unwait_inbound (s : State) (p : Producer) : (s.unwait p).inbound = s.inbound := rfl
@[simp] theorem State.unwait_postArea (s : State) (p : Producer) : (s.unwait p).postArea = s.postArea := rfl
@[simp] theorem State.unwait_overrun (s : State) (p : Producer) : (s.unwait p).overrun = s.overrun := rfl
@[simp] theorem State.unwait_answers (s : State) (p : Producer) : (s.unwait p).answers = s.answers := rfl
@[simp] theorem State.unwait_lastNumber (s : State) (p : Producer) : (s.unwait p).lastNumber = s.lastNumber := rfl
@[simp] theorem State.unwait_interruptEnable (s : State) (p : Producer) : (s.unwait p).interruptEnable = s.interruptEnable := rfl
@[simp] theorem State.unwait_interruptsSent (s : State) (p : Producer) : (s.unwait p).interruptsSent = s.interruptsSent := rfl
@[simp] theorem State.unwait_waiting (s : State) (p : Producer) :
    (s.unwait p).waiting = s.waiting.erase p := rfl
@[simp] theorem State.unwait_referrals (s : State) (p : Producer) : (s.unwait p).referrals = s.referrals := rfl
@[simp] theorem State.unwait_lapseRecord (s : State) (p : Producer) : (s.unwait p).lapseRecord = s.lapseRecord := rfl
@[simp] theorem State.unwait_armed (s : State) (p : Producer) : (s.unwait p).armed = s.armed := rfl
@[simp] theorem State.unwait_lastServed (s : State) (p : Producer) : (s.unwait p).lastServed = s.lastServed := rfl

/-! ### State.withMemory -/

@[simp] theorem State.withMemory_pending (s : State) (m : RecordMemory) : (s.withMemory m).pending = s.pending := rfl
@[simp] theorem State.withMemory_powered (s : State) (m : RecordMemory) : (s.withMemory m).powered = s.powered := rfl
@[simp] theorem State.withMemory_memory (s : State) (m : RecordMemory) :
    (s.withMemory m).memory = m := rfl
@[simp] theorem State.withMemory_slots (s : State) (m : RecordMemory) : (s.withMemory m).slots = s.slots := rfl
@[simp] theorem State.withMemory_retention (s : State) (m : RecordMemory) : (s.withMemory m).retention = s.retention := rfl
@[simp] theorem State.withMemory_indicatorCheck (s : State) (m : RecordMemory) : (s.withMemory m).indicatorCheck = s.indicatorCheck := rfl
@[simp] theorem State.withMemory_engine (s : State) (m : RecordMemory) : (s.withMemory m).engine = s.engine := rfl
@[simp] theorem State.withMemory_startCause (s : State) (m : RecordMemory) : (s.withMemory m).startCause = s.startCause := rfl
@[simp] theorem State.withMemory_inbound (s : State) (m : RecordMemory) : (s.withMemory m).inbound = s.inbound := rfl
@[simp] theorem State.withMemory_postArea (s : State) (m : RecordMemory) : (s.withMemory m).postArea = s.postArea := rfl
@[simp] theorem State.withMemory_overrun (s : State) (m : RecordMemory) : (s.withMemory m).overrun = s.overrun := rfl
@[simp] theorem State.withMemory_answers (s : State) (m : RecordMemory) : (s.withMemory m).answers = s.answers := rfl
@[simp] theorem State.withMemory_lastNumber (s : State) (m : RecordMemory) : (s.withMemory m).lastNumber = s.lastNumber := rfl
@[simp] theorem State.withMemory_interruptEnable (s : State) (m : RecordMemory) : (s.withMemory m).interruptEnable = s.interruptEnable := rfl
@[simp] theorem State.withMemory_interruptsSent (s : State) (m : RecordMemory) : (s.withMemory m).interruptsSent = s.interruptsSent := rfl
@[simp] theorem State.withMemory_waiting (s : State) (m : RecordMemory) : (s.withMemory m).waiting = s.waiting := rfl
@[simp] theorem State.withMemory_referrals (s : State) (m : RecordMemory) : (s.withMemory m).referrals = s.referrals := rfl
@[simp] theorem State.withMemory_lapseRecord (s : State) (m : RecordMemory) : (s.withMemory m).lapseRecord = s.lapseRecord := rfl
@[simp] theorem State.withMemory_armed (s : State) (m : RecordMemory) : (s.withMemory m).armed = s.armed := rfl
@[simp] theorem State.withMemory_lastServed (s : State) (m : RecordMemory) : (s.withMemory m).lastServed = s.lastServed := rfl

/-! ### State.setArmedList -/

@[simp] theorem State.setArmedList_pending (s : State) (i : Nat) (l : List Armed) : (s.setArmedList i l).pending = s.pending := rfl
@[simp] theorem State.setArmedList_powered (s : State) (i : Nat) (l : List Armed) : (s.setArmedList i l).powered = s.powered := rfl
@[simp] theorem State.setArmedList_memory (s : State) (i : Nat) (l : List Armed) : (s.setArmedList i l).memory = s.memory := rfl
@[simp] theorem State.setArmedList_slots (s : State) (i : Nat) (l : List Armed) : (s.setArmedList i l).slots = s.slots := rfl
@[simp] theorem State.setArmedList_retention (s : State) (i : Nat) (l : List Armed) : (s.setArmedList i l).retention = s.retention := rfl
@[simp] theorem State.setArmedList_indicatorCheck (s : State) (i : Nat) (l : List Armed) : (s.setArmedList i l).indicatorCheck = s.indicatorCheck := rfl
@[simp] theorem State.setArmedList_engine (s : State) (i : Nat) (l : List Armed) : (s.setArmedList i l).engine = s.engine := rfl
@[simp] theorem State.setArmedList_startCause (s : State) (i : Nat) (l : List Armed) : (s.setArmedList i l).startCause = s.startCause := rfl
@[simp] theorem State.setArmedList_inbound (s : State) (i : Nat) (l : List Armed) : (s.setArmedList i l).inbound = s.inbound := rfl
@[simp] theorem State.setArmedList_postArea (s : State) (i : Nat) (l : List Armed) : (s.setArmedList i l).postArea = s.postArea := rfl
@[simp] theorem State.setArmedList_overrun (s : State) (i : Nat) (l : List Armed) : (s.setArmedList i l).overrun = s.overrun := rfl
@[simp] theorem State.setArmedList_answers (s : State) (i : Nat) (l : List Armed) : (s.setArmedList i l).answers = s.answers := rfl
@[simp] theorem State.setArmedList_lastNumber (s : State) (i : Nat) (l : List Armed) : (s.setArmedList i l).lastNumber = s.lastNumber := rfl
@[simp] theorem State.setArmedList_interruptEnable (s : State) (i : Nat) (l : List Armed) : (s.setArmedList i l).interruptEnable = s.interruptEnable := rfl
@[simp] theorem State.setArmedList_interruptsSent (s : State) (i : Nat) (l : List Armed) : (s.setArmedList i l).interruptsSent = s.interruptsSent := rfl
@[simp] theorem State.setArmedList_waiting (s : State) (i : Nat) (l : List Armed) : (s.setArmedList i l).waiting = s.waiting := rfl
@[simp] theorem State.setArmedList_referrals (s : State) (i : Nat) (l : List Armed) : (s.setArmedList i l).referrals = s.referrals := rfl
@[simp] theorem State.setArmedList_lapseRecord (s : State) (i : Nat) (l : List Armed) : (s.setArmedList i l).lapseRecord = s.lapseRecord := rfl
@[simp] theorem State.setArmedList_armed (s : State) (i : Nat) (l : List Armed) :
    (s.setArmedList i l).armed = s.armed.set [] i l := rfl
@[simp] theorem State.setArmedList_lastServed (s : State) (i : Nat) (l : List Armed) : (s.setArmedList i l).lastServed = s.lastServed := rfl

/-! ### State.setDescriptor -/

@[simp] theorem State.setDescriptor_pending (s : State) (i : Nat) (d : Descriptor) : (s.setDescriptor i d).pending = s.pending := rfl
@[simp] theorem State.setDescriptor_powered (s : State) (i : Nat) (d : Descriptor) : (s.setDescriptor i d).powered = s.powered := rfl
@[simp] theorem State.setDescriptor_memory (s : State) (i : Nat) (d : Descriptor) :
    (s.setDescriptor i d).memory = s.memory.setDescriptor i d := rfl
@[simp] theorem State.setDescriptor_slots (s : State) (i : Nat) (d : Descriptor) : (s.setDescriptor i d).slots = s.slots := rfl
@[simp] theorem State.setDescriptor_retention (s : State) (i : Nat) (d : Descriptor) : (s.setDescriptor i d).retention = s.retention := rfl
@[simp] theorem State.setDescriptor_indicatorCheck (s : State) (i : Nat) (d : Descriptor) : (s.setDescriptor i d).indicatorCheck = s.indicatorCheck := rfl
@[simp] theorem State.setDescriptor_engine (s : State) (i : Nat) (d : Descriptor) : (s.setDescriptor i d).engine = s.engine := rfl
@[simp] theorem State.setDescriptor_startCause (s : State) (i : Nat) (d : Descriptor) : (s.setDescriptor i d).startCause = s.startCause := rfl
@[simp] theorem State.setDescriptor_inbound (s : State) (i : Nat) (d : Descriptor) : (s.setDescriptor i d).inbound = s.inbound := rfl
@[simp] theorem State.setDescriptor_postArea (s : State) (i : Nat) (d : Descriptor) : (s.setDescriptor i d).postArea = s.postArea := rfl
@[simp] theorem State.setDescriptor_overrun (s : State) (i : Nat) (d : Descriptor) : (s.setDescriptor i d).overrun = s.overrun := rfl
@[simp] theorem State.setDescriptor_answers (s : State) (i : Nat) (d : Descriptor) : (s.setDescriptor i d).answers = s.answers := rfl
@[simp] theorem State.setDescriptor_lastNumber (s : State) (i : Nat) (d : Descriptor) : (s.setDescriptor i d).lastNumber = s.lastNumber := rfl
@[simp] theorem State.setDescriptor_interruptEnable (s : State) (i : Nat) (d : Descriptor) : (s.setDescriptor i d).interruptEnable = s.interruptEnable := rfl
@[simp] theorem State.setDescriptor_interruptsSent (s : State) (i : Nat) (d : Descriptor) : (s.setDescriptor i d).interruptsSent = s.interruptsSent := rfl
@[simp] theorem State.setDescriptor_waiting (s : State) (i : Nat) (d : Descriptor) : (s.setDescriptor i d).waiting = s.waiting := rfl
@[simp] theorem State.setDescriptor_referrals (s : State) (i : Nat) (d : Descriptor) : (s.setDescriptor i d).referrals = s.referrals := rfl
@[simp] theorem State.setDescriptor_lapseRecord (s : State) (i : Nat) (d : Descriptor) : (s.setDescriptor i d).lapseRecord = s.lapseRecord := rfl
@[simp] theorem State.setDescriptor_armed (s : State) (i : Nat) (d : Descriptor) : (s.setDescriptor i d).armed = s.armed := rfl
@[simp] theorem State.setDescriptor_lastServed (s : State) (i : Nat) (d : Descriptor) : (s.setDescriptor i d).lastServed = s.lastServed := rfl

/-! ### State.setSweep -/

@[simp] theorem State.setSweep_pending (s : State) (u : SweepUnit) : (s.setSweep u).pending = s.pending := rfl
@[simp] theorem State.setSweep_powered (s : State) (u : SweepUnit) : (s.setSweep u).powered = s.powered := rfl
@[simp] theorem State.setSweep_memory (s : State) (u : SweepUnit) :
    (s.setSweep u).memory = { s.memory with sweep := u } := rfl
@[simp] theorem State.setSweep_slots (s : State) (u : SweepUnit) : (s.setSweep u).slots = s.slots := rfl
@[simp] theorem State.setSweep_retention (s : State) (u : SweepUnit) : (s.setSweep u).retention = s.retention := rfl
@[simp] theorem State.setSweep_indicatorCheck (s : State) (u : SweepUnit) : (s.setSweep u).indicatorCheck = s.indicatorCheck := rfl
@[simp] theorem State.setSweep_engine (s : State) (u : SweepUnit) : (s.setSweep u).engine = s.engine := rfl
@[simp] theorem State.setSweep_startCause (s : State) (u : SweepUnit) : (s.setSweep u).startCause = s.startCause := rfl
@[simp] theorem State.setSweep_inbound (s : State) (u : SweepUnit) : (s.setSweep u).inbound = s.inbound := rfl
@[simp] theorem State.setSweep_postArea (s : State) (u : SweepUnit) : (s.setSweep u).postArea = s.postArea := rfl
@[simp] theorem State.setSweep_overrun (s : State) (u : SweepUnit) : (s.setSweep u).overrun = s.overrun := rfl
@[simp] theorem State.setSweep_answers (s : State) (u : SweepUnit) : (s.setSweep u).answers = s.answers := rfl
@[simp] theorem State.setSweep_lastNumber (s : State) (u : SweepUnit) : (s.setSweep u).lastNumber = s.lastNumber := rfl
@[simp] theorem State.setSweep_interruptEnable (s : State) (u : SweepUnit) : (s.setSweep u).interruptEnable = s.interruptEnable := rfl
@[simp] theorem State.setSweep_interruptsSent (s : State) (u : SweepUnit) : (s.setSweep u).interruptsSent = s.interruptsSent := rfl
@[simp] theorem State.setSweep_waiting (s : State) (u : SweepUnit) : (s.setSweep u).waiting = s.waiting := rfl
@[simp] theorem State.setSweep_referrals (s : State) (u : SweepUnit) : (s.setSweep u).referrals = s.referrals := rfl
@[simp] theorem State.setSweep_lapseRecord (s : State) (u : SweepUnit) : (s.setSweep u).lapseRecord = s.lapseRecord := rfl
@[simp] theorem State.setSweep_armed (s : State) (u : SweepUnit) : (s.setSweep u).armed = s.armed := rfl
@[simp] theorem State.setSweep_lastServed (s : State) (u : SweepUnit) : (s.setSweep u).lastServed = s.lastServed := rfl

/-! ### State.dropReferral -/

@[simp] theorem State.dropReferral_pending (s : State) (n : Nat) : (s.dropReferral n).pending = s.pending := rfl
@[simp] theorem State.dropReferral_powered (s : State) (n : Nat) : (s.dropReferral n).powered = s.powered := rfl
@[simp] theorem State.dropReferral_memory (s : State) (n : Nat) : (s.dropReferral n).memory = s.memory := rfl
@[simp] theorem State.dropReferral_slots (s : State) (n : Nat) : (s.dropReferral n).slots = s.slots := rfl
@[simp] theorem State.dropReferral_retention (s : State) (n : Nat) : (s.dropReferral n).retention = s.retention := rfl
@[simp] theorem State.dropReferral_indicatorCheck (s : State) (n : Nat) : (s.dropReferral n).indicatorCheck = s.indicatorCheck := rfl
@[simp] theorem State.dropReferral_engine (s : State) (n : Nat) : (s.dropReferral n).engine = s.engine := rfl
@[simp] theorem State.dropReferral_startCause (s : State) (n : Nat) : (s.dropReferral n).startCause = s.startCause := rfl
@[simp] theorem State.dropReferral_inbound (s : State) (n : Nat) : (s.dropReferral n).inbound = s.inbound := rfl
@[simp] theorem State.dropReferral_postArea (s : State) (n : Nat) : (s.dropReferral n).postArea = s.postArea := rfl
@[simp] theorem State.dropReferral_overrun (s : State) (n : Nat) : (s.dropReferral n).overrun = s.overrun := rfl
@[simp] theorem State.dropReferral_answers (s : State) (n : Nat) : (s.dropReferral n).answers = s.answers := rfl
@[simp] theorem State.dropReferral_lastNumber (s : State) (n : Nat) : (s.dropReferral n).lastNumber = s.lastNumber := rfl
@[simp] theorem State.dropReferral_interruptEnable (s : State) (n : Nat) : (s.dropReferral n).interruptEnable = s.interruptEnable := rfl
@[simp] theorem State.dropReferral_interruptsSent (s : State) (n : Nat) : (s.dropReferral n).interruptsSent = s.interruptsSent := rfl
@[simp] theorem State.dropReferral_waiting (s : State) (n : Nat) : (s.dropReferral n).waiting = s.waiting := rfl
@[simp] theorem State.dropReferral_referrals (s : State) (n : Nat) :
    (s.dropReferral n).referrals = s.referrals.filter fun e => e.number != n := rfl
@[simp] theorem State.dropReferral_lapseRecord (s : State) (n : Nat) : (s.dropReferral n).lapseRecord = s.lapseRecord := rfl
@[simp] theorem State.dropReferral_armed (s : State) (n : Nat) : (s.dropReferral n).armed = s.armed := rfl
@[simp] theorem State.dropReferral_lastServed (s : State) (n : Nat) : (s.dropReferral n).lastServed = s.lastServed := rfl

/-! ### State.emptyPort -/

@[simp] theorem State.emptyPort_pending (s : State)  : (s.emptyPort).pending = s.pending := rfl
@[simp] theorem State.emptyPort_powered (s : State)  : (s.emptyPort).powered = s.powered := rfl
@[simp] theorem State.emptyPort_memory (s : State)  : (s.emptyPort).memory = s.memory := rfl
@[simp] theorem State.emptyPort_slots (s : State)  : (s.emptyPort).slots = s.slots := rfl
@[simp] theorem State.emptyPort_retention (s : State)  : (s.emptyPort).retention = s.retention := rfl
@[simp] theorem State.emptyPort_indicatorCheck (s : State)  : (s.emptyPort).indicatorCheck = s.indicatorCheck := rfl
@[simp] theorem State.emptyPort_engine (s : State)  : (s.emptyPort).engine = s.engine := rfl
@[simp] theorem State.emptyPort_startCause (s : State)  : (s.emptyPort).startCause = s.startCause := rfl
@[simp] theorem State.emptyPort_inbound (s : State)  :
    (s.emptyPort).inbound = [] := rfl
@[simp] theorem State.emptyPort_postArea (s : State)  :
    (s.emptyPort).postArea = List.replicate 128 0 := rfl
@[simp] theorem State.emptyPort_overrun (s : State)  : (s.emptyPort).overrun = s.overrun := rfl
@[simp] theorem State.emptyPort_answers (s : State)  :
    (s.emptyPort).answers = [] := rfl
@[simp] theorem State.emptyPort_lastNumber (s : State)  : (s.emptyPort).lastNumber = s.lastNumber := rfl
@[simp] theorem State.emptyPort_interruptEnable (s : State)  : (s.emptyPort).interruptEnable = s.interruptEnable := rfl
@[simp] theorem State.emptyPort_interruptsSent (s : State)  : (s.emptyPort).interruptsSent = s.interruptsSent := rfl
@[simp] theorem State.emptyPort_waiting (s : State)  : (s.emptyPort).waiting = s.waiting := rfl
@[simp] theorem State.emptyPort_referrals (s : State)  : (s.emptyPort).referrals = s.referrals := rfl
@[simp] theorem State.emptyPort_lapseRecord (s : State)  : (s.emptyPort).lapseRecord = s.lapseRecord := rfl
@[simp] theorem State.emptyPort_armed (s : State)  : (s.emptyPort).armed = s.armed := rfl
@[simp] theorem State.emptyPort_lastServed (s : State)  : (s.emptyPort).lastServed = s.lastServed := rfl

/-! ### State.lapseEntry -/

@[simp] theorem State.lapseEntry_pending (s : State) (e : Referral) : (s.lapseEntry e).pending = s.pending := rfl
@[simp] theorem State.lapseEntry_powered (s : State) (e : Referral) : (s.lapseEntry e).powered = s.powered := rfl
@[simp] theorem State.lapseEntry_memory (s : State) (e : Referral) :
    (s.lapseEntry e).memory = if e.kind = .unlock then s.memory.mapCard e.card denyUnlock else s.memory := rfl
@[simp] theorem State.lapseEntry_slots (s : State) (e : Referral) : (s.lapseEntry e).slots = s.slots := rfl
@[simp] theorem State.lapseEntry_retention (s : State) (e : Referral) : (s.lapseEntry e).retention = s.retention := rfl
@[simp] theorem State.lapseEntry_indicatorCheck (s : State) (e : Referral) : (s.lapseEntry e).indicatorCheck = s.indicatorCheck := rfl
@[simp] theorem State.lapseEntry_engine (s : State) (e : Referral) : (s.lapseEntry e).engine = s.engine := rfl
@[simp] theorem State.lapseEntry_startCause (s : State) (e : Referral) : (s.lapseEntry e).startCause = s.startCause := rfl
@[simp] theorem State.lapseEntry_inbound (s : State) (e : Referral) : (s.lapseEntry e).inbound = s.inbound := rfl
@[simp] theorem State.lapseEntry_postArea (s : State) (e : Referral) : (s.lapseEntry e).postArea = s.postArea := rfl
@[simp] theorem State.lapseEntry_overrun (s : State) (e : Referral) : (s.lapseEntry e).overrun = s.overrun := rfl
@[simp] theorem State.lapseEntry_answers (s : State) (e : Referral) : (s.lapseEntry e).answers = s.answers := rfl
@[simp] theorem State.lapseEntry_lastNumber (s : State) (e : Referral) : (s.lapseEntry e).lastNumber = s.lastNumber := rfl
@[simp] theorem State.lapseEntry_interruptEnable (s : State) (e : Referral) : (s.lapseEntry e).interruptEnable = s.interruptEnable := rfl
@[simp] theorem State.lapseEntry_interruptsSent (s : State) (e : Referral) : (s.lapseEntry e).interruptsSent = s.interruptsSent := rfl
@[simp] theorem State.lapseEntry_waiting (s : State) (e : Referral) : (s.lapseEntry e).waiting = s.waiting := rfl
@[simp] theorem State.lapseEntry_referrals (s : State) (e : Referral) :
    (s.lapseEntry e).referrals = s.referrals.map fun r => if r.number = e.number then { r with state := .lapsed } else r := rfl
@[simp] theorem State.lapseEntry_lapseRecord (s : State) (e : Referral) : (s.lapseEntry e).lapseRecord = s.lapseRecord := rfl
@[simp] theorem State.lapseEntry_armed (s : State) (e : Referral) : (s.lapseEntry e).armed = s.armed := rfl
@[simp] theorem State.lapseEntry_lastServed (s : State) (e : Referral) : (s.lapseEntry e).lastServed = s.lastServed := rfl

/-! ### RecordMemory.setProduct -/

@[simp] theorem RecordMemory.setProduct_mainCards (m : RecordMemory) (i : Nat) (p : Product) : (m.setProduct i p).mainCards = m.mainCards := rfl
@[simp] theorem RecordMemory.setProduct_poolCards (m : RecordMemory) (i : Nat) (p : Product) : (m.setProduct i p).poolCards = m.poolCards := rfl
@[simp] theorem RecordMemory.setProduct_chains (m : RecordMemory) (i : Nat) (p : Product) : (m.setProduct i p).chains = m.chains := rfl
@[simp] theorem RecordMemory.setProduct_products (m : RecordMemory) (i : Nat) (p : Product) : (m.setProduct i p).products = m.products.set Product.unused i p := rfl
@[simp] theorem RecordMemory.setProduct_merchants (m : RecordMemory) (i : Nat) (p : Product) : (m.setProduct i p).merchants = m.merchants := rfl
@[simp] theorem RecordMemory.setProduct_tiers (m : RecordMemory) (i : Nat) (p : Product) : (m.setProduct i p).tiers = m.tiers := rfl
@[simp] theorem RecordMemory.setProduct_sponsors (m : RecordMemory) (i : Nat) (p : Product) : (m.setProduct i p).sponsors = m.sponsors := rfl
@[simp] theorem RecordMemory.setProduct_holds (m : RecordMemory) (i : Nat) (p : Product) : (m.setProduct i p).holds = m.holds := rfl
@[simp] theorem RecordMemory.setProduct_watches (m : RecordMemory) (i : Nat) (p : Product) : (m.setProduct i p).watches = m.watches := rfl
@[simp] theorem RecordMemory.setProduct_descriptors (m : RecordMemory) (i : Nat) (p : Product) : (m.setProduct i p).descriptors = m.descriptors := rfl
@[simp] theorem RecordMemory.setProduct_sweep (m : RecordMemory) (i : Nat) (p : Product) : (m.setProduct i p).sweep = m.sweep := rfl
@[simp] theorem RecordMemory.setProduct_funds (m : RecordMemory) (i : Nat) (p : Product) : (m.setProduct i p).funds = m.funds := rfl
@[simp] theorem RecordMemory.setProduct_referralTime (m : RecordMemory) (i : Nat) (p : Product) : (m.setProduct i p).referralTime = m.referralTime := rfl
@[simp] theorem RecordMemory.setProduct_nextReferral (m : RecordMemory) (i : Nat) (p : Product) : (m.setProduct i p).nextReferral = m.nextReferral := rfl
@[simp] theorem RecordMemory.setProduct_clock (m : RecordMemory) (i : Nat) (p : Product) : (m.setProduct i p).clock = m.clock := rfl
@[simp] theorem RecordMemory.setProduct_today (m : RecordMemory) (i : Nat) (p : Product) : (m.setProduct i p).today = m.today := rfl

/-! ### RecordMemory.setMerchant -/

@[simp] theorem RecordMemory.setMerchant_mainCards (m : RecordMemory) (i : Nat) (r : Merchant) : (m.setMerchant i r).mainCards = m.mainCards := rfl
@[simp] theorem RecordMemory.setMerchant_poolCards (m : RecordMemory) (i : Nat) (r : Merchant) : (m.setMerchant i r).poolCards = m.poolCards := rfl
@[simp] theorem RecordMemory.setMerchant_chains (m : RecordMemory) (i : Nat) (r : Merchant) : (m.setMerchant i r).chains = m.chains := rfl
@[simp] theorem RecordMemory.setMerchant_products (m : RecordMemory) (i : Nat) (r : Merchant) : (m.setMerchant i r).products = m.products := rfl
@[simp] theorem RecordMemory.setMerchant_merchants (m : RecordMemory) (i : Nat) (r : Merchant) : (m.setMerchant i r).merchants = m.merchants.set Merchant.unused i r := rfl
@[simp] theorem RecordMemory.setMerchant_tiers (m : RecordMemory) (i : Nat) (r : Merchant) : (m.setMerchant i r).tiers = m.tiers := rfl
@[simp] theorem RecordMemory.setMerchant_sponsors (m : RecordMemory) (i : Nat) (r : Merchant) : (m.setMerchant i r).sponsors = m.sponsors := rfl
@[simp] theorem RecordMemory.setMerchant_holds (m : RecordMemory) (i : Nat) (r : Merchant) : (m.setMerchant i r).holds = m.holds := rfl
@[simp] theorem RecordMemory.setMerchant_watches (m : RecordMemory) (i : Nat) (r : Merchant) : (m.setMerchant i r).watches = m.watches := rfl
@[simp] theorem RecordMemory.setMerchant_descriptors (m : RecordMemory) (i : Nat) (r : Merchant) : (m.setMerchant i r).descriptors = m.descriptors := rfl
@[simp] theorem RecordMemory.setMerchant_sweep (m : RecordMemory) (i : Nat) (r : Merchant) : (m.setMerchant i r).sweep = m.sweep := rfl
@[simp] theorem RecordMemory.setMerchant_funds (m : RecordMemory) (i : Nat) (r : Merchant) : (m.setMerchant i r).funds = m.funds := rfl
@[simp] theorem RecordMemory.setMerchant_referralTime (m : RecordMemory) (i : Nat) (r : Merchant) : (m.setMerchant i r).referralTime = m.referralTime := rfl
@[simp] theorem RecordMemory.setMerchant_nextReferral (m : RecordMemory) (i : Nat) (r : Merchant) : (m.setMerchant i r).nextReferral = m.nextReferral := rfl
@[simp] theorem RecordMemory.setMerchant_clock (m : RecordMemory) (i : Nat) (r : Merchant) : (m.setMerchant i r).clock = m.clock := rfl
@[simp] theorem RecordMemory.setMerchant_today (m : RecordMemory) (i : Nat) (r : Merchant) : (m.setMerchant i r).today = m.today := rfl

/-! ### RecordMemory.setTier -/

@[simp] theorem RecordMemory.setTier_mainCards (m : RecordMemory) (i : Nat) (t : Tier) : (m.setTier i t).mainCards = m.mainCards := rfl
@[simp] theorem RecordMemory.setTier_poolCards (m : RecordMemory) (i : Nat) (t : Tier) : (m.setTier i t).poolCards = m.poolCards := rfl
@[simp] theorem RecordMemory.setTier_chains (m : RecordMemory) (i : Nat) (t : Tier) : (m.setTier i t).chains = m.chains := rfl
@[simp] theorem RecordMemory.setTier_products (m : RecordMemory) (i : Nat) (t : Tier) : (m.setTier i t).products = m.products := rfl
@[simp] theorem RecordMemory.setTier_merchants (m : RecordMemory) (i : Nat) (t : Tier) : (m.setTier i t).merchants = m.merchants := rfl
@[simp] theorem RecordMemory.setTier_tiers (m : RecordMemory) (i : Nat) (t : Tier) : (m.setTier i t).tiers = m.tiers.set Tier.zero i t := rfl
@[simp] theorem RecordMemory.setTier_sponsors (m : RecordMemory) (i : Nat) (t : Tier) : (m.setTier i t).sponsors = m.sponsors := rfl
@[simp] theorem RecordMemory.setTier_holds (m : RecordMemory) (i : Nat) (t : Tier) : (m.setTier i t).holds = m.holds := rfl
@[simp] theorem RecordMemory.setTier_watches (m : RecordMemory) (i : Nat) (t : Tier) : (m.setTier i t).watches = m.watches := rfl
@[simp] theorem RecordMemory.setTier_descriptors (m : RecordMemory) (i : Nat) (t : Tier) : (m.setTier i t).descriptors = m.descriptors := rfl
@[simp] theorem RecordMemory.setTier_sweep (m : RecordMemory) (i : Nat) (t : Tier) : (m.setTier i t).sweep = m.sweep := rfl
@[simp] theorem RecordMemory.setTier_funds (m : RecordMemory) (i : Nat) (t : Tier) : (m.setTier i t).funds = m.funds := rfl
@[simp] theorem RecordMemory.setTier_referralTime (m : RecordMemory) (i : Nat) (t : Tier) : (m.setTier i t).referralTime = m.referralTime := rfl
@[simp] theorem RecordMemory.setTier_nextReferral (m : RecordMemory) (i : Nat) (t : Tier) : (m.setTier i t).nextReferral = m.nextReferral := rfl
@[simp] theorem RecordMemory.setTier_clock (m : RecordMemory) (i : Nat) (t : Tier) : (m.setTier i t).clock = m.clock := rfl
@[simp] theorem RecordMemory.setTier_today (m : RecordMemory) (i : Nat) (t : Tier) : (m.setTier i t).today = m.today := rfl

/-! ### RecordMemory.setSponsor -/

@[simp] theorem RecordMemory.setSponsor_mainCards (m : RecordMemory) (i : Nat) (st : SponsorState) : (m.setSponsor i st).mainCards = m.mainCards := rfl
@[simp] theorem RecordMemory.setSponsor_poolCards (m : RecordMemory) (i : Nat) (st : SponsorState) : (m.setSponsor i st).poolCards = m.poolCards := rfl
@[simp] theorem RecordMemory.setSponsor_chains (m : RecordMemory) (i : Nat) (st : SponsorState) : (m.setSponsor i st).chains = m.chains := rfl
@[simp] theorem RecordMemory.setSponsor_products (m : RecordMemory) (i : Nat) (st : SponsorState) : (m.setSponsor i st).products = m.products := rfl
@[simp] theorem RecordMemory.setSponsor_merchants (m : RecordMemory) (i : Nat) (st : SponsorState) : (m.setSponsor i st).merchants = m.merchants := rfl
@[simp] theorem RecordMemory.setSponsor_tiers (m : RecordMemory) (i : Nat) (st : SponsorState) : (m.setSponsor i st).tiers = m.tiers := rfl
@[simp] theorem RecordMemory.setSponsor_sponsors (m : RecordMemory) (i : Nat) (st : SponsorState) : (m.setSponsor i st).sponsors = m.sponsors.set .unused i st := rfl
@[simp] theorem RecordMemory.setSponsor_holds (m : RecordMemory) (i : Nat) (st : SponsorState) : (m.setSponsor i st).holds = m.holds := rfl
@[simp] theorem RecordMemory.setSponsor_watches (m : RecordMemory) (i : Nat) (st : SponsorState) : (m.setSponsor i st).watches = m.watches := rfl
@[simp] theorem RecordMemory.setSponsor_descriptors (m : RecordMemory) (i : Nat) (st : SponsorState) : (m.setSponsor i st).descriptors = m.descriptors := rfl
@[simp] theorem RecordMemory.setSponsor_sweep (m : RecordMemory) (i : Nat) (st : SponsorState) : (m.setSponsor i st).sweep = m.sweep := rfl
@[simp] theorem RecordMemory.setSponsor_funds (m : RecordMemory) (i : Nat) (st : SponsorState) : (m.setSponsor i st).funds = m.funds := rfl
@[simp] theorem RecordMemory.setSponsor_referralTime (m : RecordMemory) (i : Nat) (st : SponsorState) : (m.setSponsor i st).referralTime = m.referralTime := rfl
@[simp] theorem RecordMemory.setSponsor_nextReferral (m : RecordMemory) (i : Nat) (st : SponsorState) : (m.setSponsor i st).nextReferral = m.nextReferral := rfl
@[simp] theorem RecordMemory.setSponsor_clock (m : RecordMemory) (i : Nat) (st : SponsorState) : (m.setSponsor i st).clock = m.clock := rfl
@[simp] theorem RecordMemory.setSponsor_today (m : RecordMemory) (i : Nat) (st : SponsorState) : (m.setSponsor i st).today = m.today := rfl

/-! ### RecordMemory.setHoldSlot -/

@[simp] theorem RecordMemory.setHoldSlot_mainCards (m : RecordMemory) (i : Nat) (h : HoldSlot) : (m.setHoldSlot i h).mainCards = m.mainCards := rfl
@[simp] theorem RecordMemory.setHoldSlot_poolCards (m : RecordMemory) (i : Nat) (h : HoldSlot) : (m.setHoldSlot i h).poolCards = m.poolCards := rfl
@[simp] theorem RecordMemory.setHoldSlot_chains (m : RecordMemory) (i : Nat) (h : HoldSlot) : (m.setHoldSlot i h).chains = m.chains := rfl
@[simp] theorem RecordMemory.setHoldSlot_products (m : RecordMemory) (i : Nat) (h : HoldSlot) : (m.setHoldSlot i h).products = m.products := rfl
@[simp] theorem RecordMemory.setHoldSlot_merchants (m : RecordMemory) (i : Nat) (h : HoldSlot) : (m.setHoldSlot i h).merchants = m.merchants := rfl
@[simp] theorem RecordMemory.setHoldSlot_tiers (m : RecordMemory) (i : Nat) (h : HoldSlot) : (m.setHoldSlot i h).tiers = m.tiers := rfl
@[simp] theorem RecordMemory.setHoldSlot_sponsors (m : RecordMemory) (i : Nat) (h : HoldSlot) : (m.setHoldSlot i h).sponsors = m.sponsors := rfl
@[simp] theorem RecordMemory.setHoldSlot_holds (m : RecordMemory) (i : Nat) (h : HoldSlot) : (m.setHoldSlot i h).holds = m.holds.set HoldSlot.free i h := rfl
@[simp] theorem RecordMemory.setHoldSlot_watches (m : RecordMemory) (i : Nat) (h : HoldSlot) : (m.setHoldSlot i h).watches = m.watches := rfl
@[simp] theorem RecordMemory.setHoldSlot_descriptors (m : RecordMemory) (i : Nat) (h : HoldSlot) : (m.setHoldSlot i h).descriptors = m.descriptors := rfl
@[simp] theorem RecordMemory.setHoldSlot_sweep (m : RecordMemory) (i : Nat) (h : HoldSlot) : (m.setHoldSlot i h).sweep = m.sweep := rfl
@[simp] theorem RecordMemory.setHoldSlot_funds (m : RecordMemory) (i : Nat) (h : HoldSlot) : (m.setHoldSlot i h).funds = m.funds := rfl
@[simp] theorem RecordMemory.setHoldSlot_referralTime (m : RecordMemory) (i : Nat) (h : HoldSlot) : (m.setHoldSlot i h).referralTime = m.referralTime := rfl
@[simp] theorem RecordMemory.setHoldSlot_nextReferral (m : RecordMemory) (i : Nat) (h : HoldSlot) : (m.setHoldSlot i h).nextReferral = m.nextReferral := rfl
@[simp] theorem RecordMemory.setHoldSlot_clock (m : RecordMemory) (i : Nat) (h : HoldSlot) : (m.setHoldSlot i h).clock = m.clock := rfl
@[simp] theorem RecordMemory.setHoldSlot_today (m : RecordMemory) (i : Nat) (h : HoldSlot) : (m.setHoldSlot i h).today = m.today := rfl

/-! ### RecordMemory.setWatchEntry -/

@[simp] theorem RecordMemory.setWatchEntry_mainCards (m : RecordMemory) (i : Nat) (w : WatchEntry) : (m.setWatchEntry i w).mainCards = m.mainCards := rfl
@[simp] theorem RecordMemory.setWatchEntry_poolCards (m : RecordMemory) (i : Nat) (w : WatchEntry) : (m.setWatchEntry i w).poolCards = m.poolCards := rfl
@[simp] theorem RecordMemory.setWatchEntry_chains (m : RecordMemory) (i : Nat) (w : WatchEntry) : (m.setWatchEntry i w).chains = m.chains := rfl
@[simp] theorem RecordMemory.setWatchEntry_products (m : RecordMemory) (i : Nat) (w : WatchEntry) : (m.setWatchEntry i w).products = m.products := rfl
@[simp] theorem RecordMemory.setWatchEntry_merchants (m : RecordMemory) (i : Nat) (w : WatchEntry) : (m.setWatchEntry i w).merchants = m.merchants := rfl
@[simp] theorem RecordMemory.setWatchEntry_tiers (m : RecordMemory) (i : Nat) (w : WatchEntry) : (m.setWatchEntry i w).tiers = m.tiers := rfl
@[simp] theorem RecordMemory.setWatchEntry_sponsors (m : RecordMemory) (i : Nat) (w : WatchEntry) : (m.setWatchEntry i w).sponsors = m.sponsors := rfl
@[simp] theorem RecordMemory.setWatchEntry_holds (m : RecordMemory) (i : Nat) (w : WatchEntry) : (m.setWatchEntry i w).holds = m.holds := rfl
@[simp] theorem RecordMemory.setWatchEntry_watches (m : RecordMemory) (i : Nat) (w : WatchEntry) : (m.setWatchEntry i w).watches = m.watches.set WatchEntry.formatted i w := rfl
@[simp] theorem RecordMemory.setWatchEntry_descriptors (m : RecordMemory) (i : Nat) (w : WatchEntry) : (m.setWatchEntry i w).descriptors = m.descriptors := rfl
@[simp] theorem RecordMemory.setWatchEntry_sweep (m : RecordMemory) (i : Nat) (w : WatchEntry) : (m.setWatchEntry i w).sweep = m.sweep := rfl
@[simp] theorem RecordMemory.setWatchEntry_funds (m : RecordMemory) (i : Nat) (w : WatchEntry) : (m.setWatchEntry i w).funds = m.funds := rfl
@[simp] theorem RecordMemory.setWatchEntry_referralTime (m : RecordMemory) (i : Nat) (w : WatchEntry) : (m.setWatchEntry i w).referralTime = m.referralTime := rfl
@[simp] theorem RecordMemory.setWatchEntry_nextReferral (m : RecordMemory) (i : Nat) (w : WatchEntry) : (m.setWatchEntry i w).nextReferral = m.nextReferral := rfl
@[simp] theorem RecordMemory.setWatchEntry_clock (m : RecordMemory) (i : Nat) (w : WatchEntry) : (m.setWatchEntry i w).clock = m.clock := rfl
@[simp] theorem RecordMemory.setWatchEntry_today (m : RecordMemory) (i : Nat) (w : WatchEntry) : (m.setWatchEntry i w).today = m.today := rfl

/-! ### RecordMemory.setDescriptor -/

@[simp] theorem RecordMemory.setDescriptor_mainCards (m : RecordMemory) (i : Nat) (d : Descriptor) : (m.setDescriptor i d).mainCards = m.mainCards := rfl
@[simp] theorem RecordMemory.setDescriptor_poolCards (m : RecordMemory) (i : Nat) (d : Descriptor) : (m.setDescriptor i d).poolCards = m.poolCards := rfl
@[simp] theorem RecordMemory.setDescriptor_chains (m : RecordMemory) (i : Nat) (d : Descriptor) : (m.setDescriptor i d).chains = m.chains := rfl
@[simp] theorem RecordMemory.setDescriptor_products (m : RecordMemory) (i : Nat) (d : Descriptor) : (m.setDescriptor i d).products = m.products := rfl
@[simp] theorem RecordMemory.setDescriptor_merchants (m : RecordMemory) (i : Nat) (d : Descriptor) : (m.setDescriptor i d).merchants = m.merchants := rfl
@[simp] theorem RecordMemory.setDescriptor_tiers (m : RecordMemory) (i : Nat) (d : Descriptor) : (m.setDescriptor i d).tiers = m.tiers := rfl
@[simp] theorem RecordMemory.setDescriptor_sponsors (m : RecordMemory) (i : Nat) (d : Descriptor) : (m.setDescriptor i d).sponsors = m.sponsors := rfl
@[simp] theorem RecordMemory.setDescriptor_holds (m : RecordMemory) (i : Nat) (d : Descriptor) : (m.setDescriptor i d).holds = m.holds := rfl
@[simp] theorem RecordMemory.setDescriptor_watches (m : RecordMemory) (i : Nat) (d : Descriptor) : (m.setDescriptor i d).watches = m.watches := rfl
@[simp] theorem RecordMemory.setDescriptor_descriptors (m : RecordMemory) (i : Nat) (d : Descriptor) : (m.setDescriptor i d).descriptors = m.descriptors.set Descriptor.idle i d := rfl
@[simp] theorem RecordMemory.setDescriptor_sweep (m : RecordMemory) (i : Nat) (d : Descriptor) : (m.setDescriptor i d).sweep = m.sweep := rfl
@[simp] theorem RecordMemory.setDescriptor_funds (m : RecordMemory) (i : Nat) (d : Descriptor) : (m.setDescriptor i d).funds = m.funds := rfl
@[simp] theorem RecordMemory.setDescriptor_referralTime (m : RecordMemory) (i : Nat) (d : Descriptor) : (m.setDescriptor i d).referralTime = m.referralTime := rfl
@[simp] theorem RecordMemory.setDescriptor_nextReferral (m : RecordMemory) (i : Nat) (d : Descriptor) : (m.setDescriptor i d).nextReferral = m.nextReferral := rfl
@[simp] theorem RecordMemory.setDescriptor_clock (m : RecordMemory) (i : Nat) (d : Descriptor) : (m.setDescriptor i d).clock = m.clock := rfl
@[simp] theorem RecordMemory.setDescriptor_today (m : RecordMemory) (i : Nat) (d : Descriptor) : (m.setDescriptor i d).today = m.today := rfl

/-! ### RecordMemory.putCard: the card tables alone change -/

@[simp] theorem RecordMemory.putCard_chains (m : RecordMemory) (slot : Slot) (c : Card) :
    (m.putCard slot c).chains = m.chains := by cases slot <;> rfl
@[simp] theorem RecordMemory.putCard_products (m : RecordMemory) (slot : Slot) (c : Card) :
    (m.putCard slot c).products = m.products := by cases slot <;> rfl
@[simp] theorem RecordMemory.putCard_merchants (m : RecordMemory) (slot : Slot) (c : Card) :
    (m.putCard slot c).merchants = m.merchants := by cases slot <;> rfl
@[simp] theorem RecordMemory.putCard_tiers (m : RecordMemory) (slot : Slot) (c : Card) :
    (m.putCard slot c).tiers = m.tiers := by cases slot <;> rfl
@[simp] theorem RecordMemory.putCard_sponsors (m : RecordMemory) (slot : Slot) (c : Card) :
    (m.putCard slot c).sponsors = m.sponsors := by cases slot <;> rfl
@[simp] theorem RecordMemory.putCard_holds (m : RecordMemory) (slot : Slot) (c : Card) :
    (m.putCard slot c).holds = m.holds := by cases slot <;> rfl
@[simp] theorem RecordMemory.putCard_watches (m : RecordMemory) (slot : Slot) (c : Card) :
    (m.putCard slot c).watches = m.watches := by cases slot <;> rfl
@[simp] theorem RecordMemory.putCard_descriptors (m : RecordMemory) (slot : Slot) (c : Card) :
    (m.putCard slot c).descriptors = m.descriptors := by cases slot <;> rfl
@[simp] theorem RecordMemory.putCard_sweep (m : RecordMemory) (slot : Slot) (c : Card) :
    (m.putCard slot c).sweep = m.sweep := by cases slot <;> rfl
@[simp] theorem RecordMemory.putCard_funds (m : RecordMemory) (slot : Slot) (c : Card) :
    (m.putCard slot c).funds = m.funds := by cases slot <;> rfl
@[simp] theorem RecordMemory.putCard_referralTime (m : RecordMemory) (slot : Slot) (c : Card) :
    (m.putCard slot c).referralTime = m.referralTime := by cases slot <;> rfl
@[simp] theorem RecordMemory.putCard_nextReferral (m : RecordMemory) (slot : Slot) (c : Card) :
    (m.putCard slot c).nextReferral = m.nextReferral := by cases slot <;> rfl
@[simp] theorem RecordMemory.putCard_clock (m : RecordMemory) (slot : Slot) (c : Card) :
    (m.putCard slot c).clock = m.clock := by cases slot <;> rfl
@[simp] theorem RecordMemory.putCard_today (m : RecordMemory) (slot : Slot) (c : Card) :
    (m.putCard slot c).today = m.today := by cases slot <;> rfl

end Sys2Proof.Machine
end

