-- ==== Sys2Proof/Laws/Table.lean ====
section
/-! SUPPORT. The sparse tables: what an entry reads after a write, and the canonical form kept by every operation. -/

namespace Sys2Proof.Machine

variable {α : Type}

/-- Every index of a table is above a bound. -/
def Table.above (b : Nat) (t : Table α) : Prop := ∀ e ∈ t, b < e.1

theorem Table.rising_cons (j : Nat) (v : α) (t : Table α) :
    Table.rising ((j, v) :: t) = true ↔ Table.above j t ∧ t.rising = true := by
  induction t generalizing j v with
  | nil => simp [Table.rising, Table.above]
  | cons e t ih =>
    obtain ⟨k, w⟩ := e
    simp only [Table.rising, Bool.and_eq_true, decide_eq_true_eq]
    constructor
    · rintro ⟨hjk, hr⟩
      refine ⟨?_, hr⟩
      intro e he
      rcases List.mem_cons.mp he with rfl | he
      · exact hjk
      · exact Nat.lt_trans hjk (((ih k w).mp hr).1 e he)
    · rintro ⟨ha, hr⟩
      exact ⟨ha (k, w) (List.mem_cons_self ..), hr⟩

theorem Table.find_of_above {t : Table α} {k b : Nat} (h : Table.above b t) (hk : k ≤ b) : t.find k = none := by
  induction t with
  | nil => rfl
  | cons e t ih =>
    obtain ⟨j, v⟩ := e
    have hj : b < j := h (j, v) (List.mem_cons_self ..)
    have ht : Table.above b t := fun e he => h e (List.mem_cons_of_mem _ he)
    simp only [Table.find]
    rw [if_neg (by omega)]
    exact ih ht

theorem Table.find_insert_same (t : Table α) (k : Nat) (v : α) : (t.insert k v).find k = some v := by
  induction t with
  | nil => simp [Table.insert, Table.find]
  | cons e t ih =>
    obtain ⟨j, w⟩ := e
    simp only [Table.insert]
    split
    · simp [Table.find]
    · split
      · simp [Table.find]
      · rename_i h1 h2
        simp only [Table.find]
        rw [if_neg (by omega)]
        exact ih

theorem Table.find_insert_other (t : Table α) {k i : Nat} (v : α) (h : i ≠ k) :
    (t.insert k v).find i = t.find i := by
  induction t with
  | nil => simp [Table.insert, Table.find]; omega
  | cons e t ih =>
    obtain ⟨j, w⟩ := e
    simp only [Table.insert]
    split
    · rw [Table.find, if_neg (by omega)]
    · split
      · rename_i h2
        subst h2
        simp only [Table.find]
        rw [if_neg (by omega), if_neg (by omega)]
      · simp only [Table.find]
        split
        · rfl
        · exact ih

theorem Table.find_erase_other (t : Table α) {k i : Nat} (h : i ≠ k) : (t.erase k).find i = t.find i := by
  induction t with
  | nil => rfl
  | cons e t ih =>
    obtain ⟨j, w⟩ := e
    simp only [Table.erase]
    split
    · rename_i hj
      subst hj
      simp only [Table.find]
      rw [if_neg (by omega)]
    · simp only [Table.find]
      split
      · rfl
      · exact ih

theorem Table.find_erase_same {t : Table α} (k : Nat) (h : t.rising = true) : (t.erase k).find k = none := by
  induction t with
  | nil => rfl
  | cons e t ih =>
    obtain ⟨j, w⟩ := e
    have hr := (Table.rising_cons j w t).mp h
    simp only [Table.erase]
    split
    · rename_i hj
      exact Table.find_of_above hr.1 (by omega)
    · rename_i hj
      rw [Table.find, if_neg hj]
      exact ih hr.2

/-- A record just written reads as written. -/
theorem Table.get_set_same [DecidableEq α] {t : Table α} (d : α) (k : Nat) (v : α) (h : t.rising = true) :
    (t.set d k v).get d k = v := by
  unfold Table.set Table.get
  split
  · rename_i hv
    rw [Table.find_erase_same k h, hv]
    rfl
  · rw [Table.find_insert_same]
    rfl

/-- Every other record reads as before. -/
theorem Table.get_set_other [DecidableEq α] (t : Table α) (d : α) {k i : Nat} (v : α) (h : i ≠ k) :
    (t.set d k v).get d i = t.get d i := by
  unfold Table.set Table.get
  split
  · rw [Table.find_erase_other t h]
  · rw [Table.find_insert_other t v h]

/-! ### The canonical form -/

theorem Table.mem_insert {t : Table α} {k : Nat} {v : α} {e : Nat × α} (h : e ∈ t.insert k v) :
    e = (k, v) ∨ e ∈ t := by
  induction t with
  | nil => simp [Table.insert] at h; exact Or.inl h
  | cons f t ih =>
    obtain ⟨j, w⟩ := f
    simp only [Table.insert] at h
    split at h
    · rcases List.mem_cons.mp h with h | h
      · exact Or.inl h
      · exact Or.inr h
    · split at h
      · rcases List.mem_cons.mp h with h | h
        · exact Or.inl h
        · exact Or.inr (List.mem_cons_of_mem _ h)
      · rcases List.mem_cons.mp h with h | h
        · exact Or.inr (h ▸ List.mem_cons_self ..)
        · rcases ih h with h | h
          · exact Or.inl h
          · exact Or.inr (List.mem_cons_of_mem _ h)

theorem Table.mem_erase {t : Table α} {k : Nat} {e : Nat × α} (h : e ∈ t.erase k) : e ∈ t := by
  induction t with
  | nil => exact h
  | cons f t ih =>
    obtain ⟨j, w⟩ := f
    simp only [Table.erase] at h
    split at h
    · exact List.mem_cons_of_mem _ h
    · rcases List.mem_cons.mp h with h | h
      · exact h ▸ List.mem_cons_self ..
      · exact List.mem_cons_of_mem _ (ih h)

theorem Table.rising_insert {t : Table α} (k : Nat) (v : α) (h : t.rising = true) : (t.insert k v).rising = true := by
  induction t with
  | nil => rfl
  | cons e t ih =>
    obtain ⟨j, w⟩ := e
    have hr := (Table.rising_cons j w t).mp h
    simp only [Table.insert]
    split
    · rename_i hk
      refine (Table.rising_cons k v _).mpr ⟨?_, h⟩
      intro e he
      rcases List.mem_cons.mp he with rfl | he
      · exact hk
      · exact Nat.lt_trans hk (hr.1 e he)
    · split
      · rename_i h2
        subst h2
        exact (Table.rising_cons k v t).mpr hr
      · refine (Table.rising_cons j w _).mpr ⟨?_, ih hr.2⟩
        intro e he
        rcases Table.mem_insert he with rfl | he
        · simp only
          omega
        · exact hr.1 e he

theorem Table.rising_erase {t : Table α} (k : Nat) (h : t.rising = true) : (t.erase k).rising = true := by
  induction t with
  | nil => rfl
  | cons e t ih =>
    obtain ⟨j, w⟩ := e
    have hr := (Table.rising_cons j w t).mp h
    simp only [Table.erase]
    split
    · exact hr.2
    · exact (Table.rising_cons j w _).mpr ⟨fun e he => hr.1 e (Table.mem_erase he), ih hr.2⟩

theorem Table.rising_write {t : Table α} (k : Nat) (v : Option α) (h : t.rising = true) :
    (t.write k v).rising = true := by
  cases v with
  | none => exact Table.rising_erase k h
  | some w => exact Table.rising_insert k w h

/-- A function on the records alone keeps the indexes. -/
theorem Table.rising_map {β : Type} (f : Nat × α → β) {t : Table α} (h : t.rising = true) :
    Table.rising (t.map fun e => (e.1, f e)) = true := by
  induction t with
  | nil => rfl
  | cons e t ih =>
    obtain ⟨j, w⟩ := e
    have hr := (Table.rising_cons j w t).mp h
    refine (Table.rising_cons j _ _).mpr ⟨?_, ih hr.2⟩
    intro e he
    obtain ⟨x, hx, rfl⟩ := List.mem_map.mp he
    exact hr.1 x hx

theorem Table.rising_filter (p : Nat × α → Bool) {t : Table α} (h : t.rising = true) :
    Table.rising (List.filter p t) = true := by
  induction t with
  | nil => rfl
  | cons e t ih =>
    obtain ⟨j, w⟩ := e
    have hr := (Table.rising_cons j w t).mp h
    simp only [List.filter]
    split
    · refine (Table.rising_cons j w _).mpr ⟨?_, ih hr.2⟩
      intro e he
      exact hr.1 e (List.mem_of_mem_filter he)
    · exact ih hr.2

theorem Table.wf_iff [DecidableEq α] (d : α) (t : Table α) :
    t.wf d = true ↔ t.rising = true ∧ ∀ e ∈ t, e.2 ≠ d := by
  simp [Table.wf, List.all_eq_true]

theorem Table.wf_nil [DecidableEq α] (d : α) : Table.wf d ([] : Table α) = true := rfl

theorem Table.wf_set [DecidableEq α] {t : Table α} {d : α} (k : Nat) (v : α) (h : t.wf d = true) :
    (t.set d k v).wf d = true := by
  rw [Table.wf_iff] at h ⊢
  unfold Table.set
  split
  · exact ⟨Table.rising_erase k h.1, fun e he => h.2 e (Table.mem_erase he)⟩
  · rename_i hv
    refine ⟨Table.rising_insert k v h.1, fun e he => ?_⟩
    rcases Table.mem_insert he with rfl | he
    · exact hv
    · exact h.2 e he

theorem Table.wf_write [DecidableEq α] {t : Table α} {d : α} (k : Nat) {v : Option α} (hv : v ≠ some d)
    (h : t.wf d = true) : (t.write k v).wf d = true := by
  rw [Table.wf_iff] at h ⊢
  cases v with
  | none => exact ⟨Table.rising_erase k h.1, fun e he => h.2 e (Table.mem_erase he)⟩
  | some w =>
    refine ⟨Table.rising_insert k w h.1, fun e he => ?_⟩
    rcases Table.mem_insert he with rfl | he
    · exact fun hw => hv (congrArg some hw)
    · exact h.2 e he

theorem Table.wf_update [DecidableEq α] {t : Table α} (d : α) (f : α → α) (h : t.rising = true) :
    (t.update d f).wf d = true := by
  rw [Table.wf_iff]
  refine ⟨Table.rising_filter _ (Table.rising_map (fun e => f e.2) h), fun e he => ?_⟩
  simpa using (List.mem_filter.mp he).2

/-- What a table's difference lists: new contents that the second table holds, or removals. -/
theorem Table.mem_diff [DecidableEq α] {a b : Table α} {k : Nat} {v : Option α} (h : (k, v) ∈ a.diff b) :
    (∃ w, v = some w ∧ (k, w) ∈ b) ∨ v = none := by
  rcases List.mem_append.mp h with h | h
  · obtain ⟨e, he, heq⟩ := List.mem_map.mp h
    cases heq
    exact Or.inl ⟨e.2, rfl, (List.mem_filter.mp he).1⟩
  · obtain ⟨e, _, heq⟩ := List.mem_map.mp h
    cases heq
    exact Or.inr rfl

end Sys2Proof.Machine
end

