-- ==== Sys2Proof/Laws/Ops.lean ====
section
/-! SUPPORT. What each shared operation can do, said once: the port's take and answer, the touch, the bookkeeping of a
value change, and the records' reads after writes. -/

namespace Sys2Proof.Machine

/-! ### The port -/

/-- Everything a take can do (R187, R159). -/
theorem State.take_eq_some {s t : State} {i : Instr} :
    s.take i = some t ↔
      s.powered = true ∧ s.slotFree = true ∧ s.burstHeld = false ∧
        ∃ m rest, s.inbound = m :: rest ∧ readMessage m = i ∧
          t = { s with
            inbound := rest
            memory := { s.memory with
              descriptors := s.memory.descriptors.update Descriptor.idle Descriptor.credited } } := by
  unfold State.take
  cases h : s.inbound with
  | nil => simp
  | cons m rest =>
    by_cases hc : (s.powered && s.slotFree && !s.burstHeld && decide (readMessage m = i)) = true
    · simp only [hc]
      simp only [Bool.and_eq_true, Bool.not_eq_true', decide_eq_true_eq] at hc
      simp only [if_true, Option.some.injEq, List.cons.injEq]
      constructor
      · rintro rfl
        exact ⟨hc.1.1.1, hc.1.1.2, hc.1.2, m, rest, ⟨rfl, rfl⟩, hc.2, rfl⟩
      · rintro ⟨_, _, _, m', r', ⟨rfl, rfl⟩, _, rfl⟩
        rfl
    · simp only [hc]
      constructor
      · intro h
        cases h
      · rintro ⟨h1, h2, h3, m', r', h4, h5, _⟩
        obtain ⟨rfl, rfl⟩ := List.cons.inj h4
        simp [h1, h2, h3, h5] at hc

/-- A taken request: its change, then its answer (R187). -/
theorem answerRequest_taken {s t : State} {i : Instr} (h : s.take i = some t) (code tag : Nat) (change : Change) :
    answerRequest i code tag change s =
      .next ((change t).1.enter code (change t).2.outcome (change t).2.flags tag (change t).2.body) := by
  simp only [answerRequest, h]

/-- A request that the port cannot take: nothing happens (log 2). -/
theorem answerRequest_waits {s : State} {i : Instr} (h : s.take i = none) (code tag : Nat) (change : Change) :
    answerRequest i code tag change s = .next s := by
  simp only [answerRequest, h]

/-- A request's outcome is always a next state: the state itself, or the change of what the take gave. -/
theorem answerRequest_cases (i : Instr) (code tag : Nat) (change : Change) (s : State) :
    answerRequest i code tag change s = .next s ∨
      ∃ t, s.take i = some t ∧ answerRequest i code tag change s =
        .next ((change t).1.enter code (change t).2.outcome (change t).2.flags tag (change t).2.body) := by
  cases h : s.take i with
  | none => exact Or.inl (answerRequest_waits h ..)
  | some t => exact Or.inr ⟨t, rfl, answerRequest_taken h ..⟩

/-- A request that names cards, refused: its state is the change's, and its flags are those of the cards (R1). -/
theorem naming_refused {cards : List Nat} {change : Change} {s : State} {r : RefusalReason}
    (h : (change s).2.outcome = .refused r) :
    naming cards change s = ((change s).1, { (change s).2 with flags := refusalFlags (change s).1.memory cards }) := by
  simp only [naming, h]

/-- A request that names cards, not refused, is its change. -/
theorem naming_else {cards : List Nat} {change : Change} {s : State} (h : ∀ r, (change s).2.outcome ≠ .refused r) :
    naming cards change s = change s := by
  cases e : (change s).2.outcome
  case refused r => exact absurd e (h r)
  all_goals simp only [naming, e]

/-- The state, outcome and body of a request that names cards are its change's. -/
theorem naming_frame (cards : List Nat) (change : Change) (s : State) :
    (naming cards change s).1 = (change s).1 ∧ (naming cards change s).2.outcome = (change s).2.outcome ∧
      (naming cards change s).2.body = (change s).2.body := by
  cases e : (change s).2.outcome <;> simp only [naming, e, and_self]

theorem whenPowered_on {s : State} (h : s.powered = true) (f : State → State) : whenPowered s f = .next (f s) := by
  simp only [whenPowered, h, if_true]

theorem whenPowered_off {s : State} (h : s.powered = false) (f : State → State) : whenPowered s f = .next s := by
  simp [whenPowered, h]

theorem State.slotFree_iff (s : State) : s.slotFree = true ↔ s.answers.length < 64 := by
  unfold State.slotFree
  exact decide_eq_true_iff

theorem State.slotFree_of_lt {s : State} (h : s.answers.length < 64) : s.slotFree = true := s.slotFree_iff.mpr h

theorem State.slotFree_of_ge {s : State} (h : 64 ≤ s.answers.length) : s.slotFree = false := by
  unfold State.slotFree
  exact decide_eq_false (Nat.not_lt.mpr h)

/-! ### The touch and the bookkeeping of a value change (R29, R30, R37) -/

/-- Everything a sweep of a card does, when the card is behind the day (R37, R179). -/
theorem sweepCard_behind {day : Nat} {c : Card} (h : c.sweptThrough < day) :
    sweepCard day c =
      { card := { c with
          lots := c.lots.filter fun l => decide (day ≤ l.expiry)
          base := if c.expiry < day then .expired else c.base
          sweptThrough := day }
        written := c.lots.filter fun l => decide (l.expiry < day)
        expired := decide (c.expiry < day) && decide (c.base = .active) } := by
  simp only [sweepCard, h, if_true]

/-- A card already swept through the day is left as it is (R37). -/
theorem sweepCard_current {day : Nat} {c : Card} (h : day ≤ c.sweptThrough) : sweepCard day c = ⟨c, [], false⟩ := by
  simp only [sweepCard, Nat.not_lt.mpr h, if_false]

@[simp] theorem RecordMemory.touch_card (m : RecordMemory) (c : Card) : (m.touch c).card = (sweepCard m.today c).card :=
  rfl

@[simp] theorem RecordMemory.touch_today (m : RecordMemory) (c : Card) : (m.touch c).memory.today = m.today := rfl

@[simp] theorem RecordMemory.touch_clock (m : RecordMemory) (c : Card) : (m.touch c).memory.clock = m.clock := rfl

/-- What settling a touched card writes (R29, R30). -/
theorem RecordMemory.settle_eq (m : RecordMemory) (slot : Slot) (c : Card) (wrote : Bool) :
    m.settle slot c wrote =
      if wrote = true then
        (m.putCard slot (c.changed m.today none), some (c.changed m.today none).counter)
      else (m.putCard slot c, none) := by
  unfold RecordMemory.settle
  split <;> rfl

/-- A value change's bookkeeping (R29). -/
theorem Card.changed_eq (c : Card) (today : Nat) (moved : Option Moved) :
    c.changed today moved =
      { c with
        counter := (c.counter + 1) % 65536
        lastActivity := today
        last := moved.map fun v => ⟨v.1, (c.counter + 1) % 65536, today, v.2.1, v.2.2⟩ } := rfl

/-! ### Cards read after they are written -/

@[simp] theorem RecordMemory.cardAt_putCard_same (m : RecordMemory) (slot : Slot) (c : Card) :
    (m.putCard slot c).cardAt slot = some c := by
  cases slot <;> exact Table.find_insert_same ..

theorem RecordMemory.cardAt_putCard_other (m : RecordMemory) {slot other : Slot} (c : Card) (h : other ≠ slot) :
    (m.putCard slot c).cardAt other = m.cardAt other := by
  cases slot <;> cases other <;> first
    | rfl
    | exact Table.find_insert_other _ c (by rintro rfl; exact h rfl)

/-- A found card stands in the slot found, under the number asked. -/
theorem RecordMemory.findCard_spec {m : RecordMemory} {number : Nat} {slot : Slot} {c : Card}
    (h : m.findCard number = some (slot, c)) :
    c.number = number ∧ m.cardAt slot = some c ∧ slot ∈ m.slotsOf (bucketOf number) := by
  unfold RecordMemory.findCard at h
  obtain ⟨slot', hmem, h⟩ := List.exists_of_findSome?_eq_some h
  cases hc : m.cardAt slot' with
  | none => simp [hc] at h
  | some c' =>
    simp only [hc] at h
    split at h
    · rename_i hn
      cases h
      exact ⟨hn, hc, hmem⟩
    · cases h

/-- A found merchant is used and has the id asked. -/
theorem RecordMemory.findMerchant_spec {m : RecordMemory} {id i : Nat} {r : Merchant}
    (h : m.findMerchant id = some (i, r)) : r.used = true ∧ r.id = id ∧ (i, r) ∈ m.merchants := by
  unfold RecordMemory.findMerchant at h
  have hp := List.find?_some h
  have hm := List.mem_of_find?_eq_some h
  simp only [Bool.and_eq_true, beq_iff_eq] at hp
  exact ⟨hp.1, hp.2, hm⟩

/-! ### Updated tables -/

theorem Table.find_map {α : Type} (f : α → α) (t : Table α) (k : Nat) :
    Table.find (t.map fun e => (e.1, f e.2)) k = (t.find k).map f := by
  induction t with
  | nil => rfl
  | cons e t ih =>
    obtain ⟨j, v⟩ := e
    simp only [List.map_cons, Table.find]
    split
    · rfl
    · exact ih

theorem Table.get_filter_ne {α : Type} [DecidableEq α] (d : α) {t : Table α} (h : t.rising = true) (k : Nat) :
    Table.get d (List.filter (fun e => !decide (e.2 = d)) t) k = t.get d k := by
  induction t with
  | nil => rfl
  | cons e t ih =>
    obtain ⟨j, v⟩ := e
    have hr := (Table.rising_cons j v t).mp h
    have ih := ih hr.2
    simp only [Table.get] at ih ⊢
    simp only [List.filter]
    by_cases hv : v = d
    · simp only [hv, decide_true, Bool.not_true, Table.find]
      rw [ih]
      split
      · rename_i hj
        subst hj
        rw [Table.find_of_above hr.1 (Nat.le_refl _)]
        rfl
      · rfl
    · simp only [hv, decide_false, Bool.not_false, Table.find]
      split
      · rfl
      · exact ih

/-- A table's record after an update of every record, the unlisted record fixed by the function. -/
theorem Table.get_update {α : Type} [DecidableEq α] {d : α} {f : α → α} (hd : f d = d) {t : Table α}
    (h : t.rising = true) (k : Nat) : (t.update d f).get d k = f (t.get d k) := by
  have hm : Table.rising (t.map fun e => (e.1, f e.2)) = true := Table.rising_map (fun e => f e.2) h
  unfold Table.update
  rw [Table.get_filter_ne d hm k]
  simp only [Table.get, Table.find_map]
  cases t.find k with
  | none => exact hd.symm
  | some v => rfl

/-- Every record of an updated table is the unlisted record or one the function made. -/
theorem Table.get_update_cases {α : Type} [DecidableEq α] (d : α) (f : α → α) (t : Table α) (k : Nat) :
    (t.update d f).get d k = d ∨ ∃ v, (t.update d f).get d k = f v := by
  unfold Table.get
  cases h : (t.update d f).find k with
  | none => exact Or.inl rfl
  | some w =>
    right
    have : ∀ (l : Table α), l.find k = some w → (k, w) ∈ l := by
      intro l
      induction l with
      | nil => intro h; cases h
      | cons e l ih =>
        obtain ⟨j, v⟩ := e
        intro h
        simp only [Table.find] at h
        split at h
        · rename_i hj
          cases h
          subst hj
          exact List.mem_cons_self ..
        · exact List.mem_cons_of_mem _ (ih h)
    have hmem := List.mem_of_mem_filter (this _ h)
    obtain ⟨x, _, hx⟩ := List.mem_map.mp hmem
    have hx2 : f x.2 = w := congrArg Prod.snd hx
    exact ⟨x.2, hx2.symm⟩

end Sys2Proof.Machine
end

