-- ==== Sys2Proof/Laws/Canonical.lean ====
section
/-! SUPPORT. The canonical form of the tables is kept by every operation on Record Memory, and so is every invariant of
Record Memory that the updates of single records and balanced movements of the fund totals keep. -/

namespace Sys2Proof.Machine

/-! ### The canonical form, record by record -/

theorem RecordMemory.tablesWf_iff (m : RecordMemory) :
    m.tablesWf = true ↔ m.mainCards.rising = true ∧ m.poolCards.rising = true ∧ m.chains.wf [] = true ∧
      m.products.wf Product.unused = true ∧ m.merchants.wf Merchant.unused = true ∧ m.tiers.wf Tier.zero = true ∧
      m.sponsors.wf SponsorState.unused = true ∧ m.holds.wf HoldSlot.free = true ∧
      m.watches.wf WatchEntry.formatted = true ∧ m.descriptors.wf Descriptor.idle = true := by
  simp only [RecordMemory.tablesWf, Bool.and_eq_true, and_assoc]

variable {m : RecordMemory}

theorem RecordMemory.tablesWf_blank (a b c d : Nat) : (RecordMemory.blank a b c d).tablesWf = true := rfl

theorem State.reset_tablesWf : State.reset.tablesWf = true := rfl

theorem RecordMemory.tablesWf_setProduct (h : m.tablesWf = true) (i : Nat) (p : Product) :
    (m.setProduct i p).tablesWf = true := by
  rw [RecordMemory.tablesWf_iff] at h ⊢
  obtain ⟨h1, h2, h3, h4, h5, h6, h7, h8, h9, h10⟩ := h
  exact ⟨h1, h2, h3, Table.wf_set i p h4, h5, h6, h7, h8, h9, h10⟩

theorem RecordMemory.tablesWf_setMerchant (h : m.tablesWf = true) (i : Nat) (r : Merchant) :
    (m.setMerchant i r).tablesWf = true := by
  rw [RecordMemory.tablesWf_iff] at h ⊢
  obtain ⟨h1, h2, h3, h4, h5, h6, h7, h8, h9, h10⟩ := h
  exact ⟨h1, h2, h3, h4, Table.wf_set i r h5, h6, h7, h8, h9, h10⟩

theorem RecordMemory.tablesWf_setTier (h : m.tablesWf = true) (i : Nat) (t : Tier) :
    (m.setTier i t).tablesWf = true := by
  rw [RecordMemory.tablesWf_iff] at h ⊢
  obtain ⟨h1, h2, h3, h4, h5, h6, h7, h8, h9, h10⟩ := h
  exact ⟨h1, h2, h3, h4, h5, Table.wf_set i t h6, h7, h8, h9, h10⟩

theorem RecordMemory.tablesWf_setSponsor (h : m.tablesWf = true) (i : Nat) (st : SponsorState) :
    (m.setSponsor i st).tablesWf = true := by
  rw [RecordMemory.tablesWf_iff] at h ⊢
  obtain ⟨h1, h2, h3, h4, h5, h6, h7, h8, h9, h10⟩ := h
  exact ⟨h1, h2, h3, h4, h5, h6, Table.wf_set i st h7, h8, h9, h10⟩

theorem RecordMemory.tablesWf_setHoldSlot (h : m.tablesWf = true) (i : Nat) (x : HoldSlot) :
    (m.setHoldSlot i x).tablesWf = true := by
  rw [RecordMemory.tablesWf_iff] at h ⊢
  obtain ⟨h1, h2, h3, h4, h5, h6, h7, h8, h9, h10⟩ := h
  exact ⟨h1, h2, h3, h4, h5, h6, h7, Table.wf_set i x h8, h9, h10⟩

theorem RecordMemory.tablesWf_setWatchEntry (h : m.tablesWf = true) (i : Nat) (w : WatchEntry) :
    (m.setWatchEntry i w).tablesWf = true := by
  rw [RecordMemory.tablesWf_iff] at h ⊢
  obtain ⟨h1, h2, h3, h4, h5, h6, h7, h8, h9, h10⟩ := h
  exact ⟨h1, h2, h3, h4, h5, h6, h7, h8, Table.wf_set i w h9, h10⟩

theorem RecordMemory.tablesWf_setDescriptor (h : m.tablesWf = true) (i : Nat) (d : Descriptor) :
    (m.setDescriptor i d).tablesWf = true := by
  rw [RecordMemory.tablesWf_iff] at h ⊢
  obtain ⟨h1, h2, h3, h4, h5, h6, h7, h8, h9, h10⟩ := h
  exact ⟨h1, h2, h3, h4, h5, h6, h7, h8, h9, Table.wf_set i d h10⟩

theorem RecordMemory.tablesWf_putCard (h : m.tablesWf = true) (slot : Slot) (c : Card) :
    (m.putCard slot c).tablesWf = true := by
  rw [RecordMemory.tablesWf_iff] at h
  obtain ⟨h1, h2, h3, h4, h5, h6, h7, h8, h9, h10⟩ := h
  cases slot with
  | main n =>
    exact (RecordMemory.tablesWf_iff _).mpr ⟨Table.rising_insert n c h1, h2, h3, h4, h5, h6, h7, h8, h9, h10⟩
  | overflow n =>
    exact (RecordMemory.tablesWf_iff _).mpr ⟨h1, Table.rising_insert n c h2, h3, h4, h5, h6, h7, h8, h9, h10⟩

theorem RecordMemory.tablesWf_placeCard (h : m.tablesWf = true) (slot : Slot) (c : Card) :
    (m.placeCard slot c).tablesWf = true := by
  rw [RecordMemory.tablesWf_iff] at h
  obtain ⟨h1, h2, h3, h4, h5, h6, h7, h8, h9, h10⟩ := h
  cases slot with
  | main n =>
    exact (RecordMemory.tablesWf_iff _).mpr ⟨Table.rising_insert n c h1, h2, h3, h4, h5, h6, h7, h8, h9, h10⟩
  | overflow n =>
    exact (RecordMemory.tablesWf_iff _).mpr
      ⟨h1, Table.rising_insert n c h2, Table.wf_set _ _ h3, h4, h5, h6, h7, h8, h9, h10⟩

theorem RecordMemory.tablesWf_removeCard (h : m.tablesWf = true) (slot : Slot) (c : Card) :
    (m.removeCard slot c).tablesWf = true := by
  rw [RecordMemory.tablesWf_iff] at h
  obtain ⟨h1, h2, h3, h4, h5, h6, h7, h8, h9, h10⟩ := h
  cases slot with
  | main n =>
    exact (RecordMemory.tablesWf_iff _).mpr ⟨Table.rising_erase n h1, h2, h3, h4, h5, h6, h7, h8, h9, h10⟩
  | overflow n =>
    exact (RecordMemory.tablesWf_iff _).mpr
      ⟨h1, Table.rising_erase n h2, Table.wf_set _ _ h3, h4, h5, h6, h7, h8, h9, h10⟩

theorem RecordMemory.tablesWf_updateDescriptors (h : m.tablesWf = true) (f : Descriptor → Descriptor) :
    ({ m with descriptors := m.descriptors.update Descriptor.idle f } : RecordMemory).tablesWf = true := by
  rw [RecordMemory.tablesWf_iff] at h ⊢
  obtain ⟨h1, h2, h3, h4, h5, h6, h7, h8, h9, h10⟩ := h
  exact ⟨h1, h2, h3, h4, h5, h6, h7, h8, h9, Table.wf_update _ f ((Table.wf_iff _ _).mp h10).1⟩

theorem RecordMemory.tablesWf_updateWatches (h : m.tablesWf = true) (f : WatchEntry → WatchEntry) :
    ({ m with watches := m.watches.update WatchEntry.formatted f } : RecordMemory).tablesWf = true := by
  rw [RecordMemory.tablesWf_iff] at h ⊢
  obtain ⟨h1, h2, h3, h4, h5, h6, h7, h8, h9, h10⟩ := h
  exact ⟨h1, h2, h3, h4, h5, h6, h7, h8, Table.wf_update _ f ((Table.wf_iff _ _).mp h9).1, h10⟩

theorem RecordMemory.tablesWf_mapCards (h : m.tablesWf = true) (f : Card → Card) :
    (m.mapCards f).tablesWf = true := by
  rw [RecordMemory.tablesWf_iff] at h ⊢
  obtain ⟨h1, h2, h3, h4, h5, h6, h7, h8, h9, h10⟩ := h
  exact ⟨Table.rising_map (fun e => f e.2) h1, Table.rising_map (fun e => f e.2) h2, h3, h4, h5, h6, h7, h8, h9, h10⟩

/-- A write of an update slot keeps the canonical form when its contents are not an unlisted value spelt out (R193). -/
theorem RecordMemory.tablesWf_applyWrite (h : m.tablesWf = true) {w : RecordWrite} (hw : w.wf = true) :
    (m.applyWrite w).tablesWf = true := by
  rw [RecordMemory.tablesWf_iff] at h ⊢
  obtain ⟨h1, h2, h3, h4, h5, h6, h7, h8, h9, h10⟩ := h
  cases w with
  | mainCard i v => exact ⟨Table.rising_write i v h1, h2, h3, h4, h5, h6, h7, h8, h9, h10⟩
  | poolCard i v => exact ⟨h1, Table.rising_write i v h2, h3, h4, h5, h6, h7, h8, h9, h10⟩
  | chain i v =>
    refine ⟨h1, h2, Table.wf_write i ?_ h3, h4, h5, h6, h7, h8, h9, h10⟩
    rintro rfl
    simp [RecordWrite.wf] at hw
  | product i v =>
    refine ⟨h1, h2, h3, Table.wf_write i ?_ h4, h5, h6, h7, h8, h9, h10⟩
    rintro rfl
    simp [RecordWrite.wf] at hw
  | merchant i v =>
    refine ⟨h1, h2, h3, h4, Table.wf_write i ?_ h5, h6, h7, h8, h9, h10⟩
    rintro rfl
    simp [RecordWrite.wf] at hw
  | tier i v =>
    refine ⟨h1, h2, h3, h4, h5, Table.wf_write i ?_ h6, h7, h8, h9, h10⟩
    rintro rfl
    simp [RecordWrite.wf] at hw
  | sponsor i v =>
    refine ⟨h1, h2, h3, h4, h5, h6, Table.wf_write i ?_ h7, h8, h9, h10⟩
    rintro rfl
    simp [RecordWrite.wf] at hw
  | hold i v =>
    refine ⟨h1, h2, h3, h4, h5, h6, h7, Table.wf_write i ?_ h8, h9, h10⟩
    rintro rfl
    simp [RecordWrite.wf] at hw
  | watch i v =>
    refine ⟨h1, h2, h3, h4, h5, h6, h7, h8, Table.wf_write i ?_ h9, h10⟩
    rintro rfl
    simp [RecordWrite.wf] at hw
  | descriptor i v =>
    refine ⟨h1, h2, h3, h4, h5, h6, h7, h8, h9, Table.wf_write i ?_ h10⟩
    rintro rfl
    simp [RecordWrite.wf] at hw
  | sweep v => exact ⟨h1, h2, h3, h4, h5, h6, h7, h8, h9, h10⟩
  | referralTime v => exact ⟨h1, h2, h3, h4, h5, h6, h7, h8, h9, h10⟩
  | nextReferral v => exact ⟨h1, h2, h3, h4, h5, h6, h7, h8, h9, h10⟩
  | clock v => exact ⟨h1, h2, h3, h4, h5, h6, h7, h8, h9, h10⟩
  | today v => exact ⟨h1, h2, h3, h4, h5, h6, h7, h8, h9, h10⟩

theorem RecordMemory.tablesWf_applyAll {writes : List RecordWrite} (h : m.tablesWf = true)
    (hw : ∀ w ∈ writes, w.wf = true) : (m.applyAll writes).tablesWf = true := by
  induction writes generalizing m with
  | nil => exact h
  | cons w rest ih =>
    exact ih (RecordMemory.tablesWf_applyWrite h (hw w (List.mem_cons_self ..)))
      fun v hv => hw v (List.mem_cons_of_mem _ hv)

/-- Rolling a slot forward keeps the canonical form (R193). -/
theorem RecordMemory.tablesWf_rollSlot (h : m.tablesWf = true) {slot : UpdateSlot} (hs : slot.wf = true) :
    (m.rollSlot slot).tablesWf = true := by
  unfold RecordMemory.rollSlot
  split
  · rename_i records amounts applied
    have hr : (m.applyAll records).tablesWf = true :=
      RecordMemory.tablesWf_applyAll h (by simpa [UpdateSlot.wf, List.all_eq_true] using hs)
    dsimp only
    split
    · exact hr
    · exact hr
  · exact h

/-! ### Invariants of Record Memory that single updates keep -/

/-- An invariant of Record Memory kept by the update of any one record or setting, and by any movement of the fund totals
that keeps the two sides of the conservation law as far apart as they were. -/
structure RecordMemory.Kept (M : RecordMemory → Prop) : Prop where
  product : ∀ {m} i p, M m → M (RecordMemory.setProduct m i p)
  merchant : ∀ {m} i r, M m → M (RecordMemory.setMerchant m i r)
  tier : ∀ {m} i t, M m → M (RecordMemory.setTier m i t)
  sponsor : ∀ {m} i st, M m → M (RecordMemory.setSponsor m i st)
  hold : ∀ {m} i x, M m → M (RecordMemory.setHoldSlot m i x)
  watch : ∀ {m} i w, M m → M (RecordMemory.setWatchEntry m i w)
  descriptor : ∀ {m} i d, M m → M (RecordMemory.setDescriptor m i d)
  descriptors : ∀ {m : RecordMemory} f, M m →
    M { m with descriptors := m.descriptors.update Descriptor.idle f }
  put : ∀ {m} slot c, M m → M (RecordMemory.putCard m slot c)
  place : ∀ {m} slot c, M m → M (RecordMemory.placeCard m slot c)
  remove : ∀ {m} slot c, M m → M (RecordMemory.removeCard m slot c)
  sweep : ∀ {m : RecordMemory} u, M m → M { m with sweep := u }
  referralTime : ∀ {m : RecordMemory} n, M m → M { m with referralTime := n }
  nextReferral : ∀ {m : RecordMemory} n, M m → M { m with nextReferral := n }
  clock : ∀ {m : RecordMemory} n, M m → M { m with clock := n }
  today : ∀ {m : RecordMemory} n, M m → M { m with today := n }
  funds : ∀ {m : RecordMemory} f, f.imbalance = m.funds.imbalance → M m → M { m with funds := f }

/-- The canonical form is such an invariant. -/
theorem RecordMemory.tablesWf_kept : RecordMemory.Kept fun m => m.tablesWf = true where
  product i p h := RecordMemory.tablesWf_setProduct h i p
  merchant i r h := RecordMemory.tablesWf_setMerchant h i r
  tier i t h := RecordMemory.tablesWf_setTier h i t
  sponsor i st h := RecordMemory.tablesWf_setSponsor h i st
  hold i x h := RecordMemory.tablesWf_setHoldSlot h i x
  watch i w h := RecordMemory.tablesWf_setWatchEntry h i w
  descriptor i d h := RecordMemory.tablesWf_setDescriptor h i d
  descriptors f h := RecordMemory.tablesWf_updateDescriptors h f
  put slot c h := RecordMemory.tablesWf_putCard h slot c
  place slot c h := RecordMemory.tablesWf_placeCard h slot c
  remove slot c h := RecordMemory.tablesWf_removeCard h slot c
  sweep _ h := h
  referralTime _ h := h
  nextReferral _ h := h
  clock _ h := h
  today _ h := h
  funds _ _ h := h

/-- The conservation law is such an invariant (R19). -/
theorem RecordMemory.balanced_kept : RecordMemory.Kept fun m => m.funds.balanced where
  product _ _ h := h
  merchant _ _ h := h
  tier _ _ h := h
  sponsor _ _ h := h
  hold _ _ h := h
  watch _ _ h := h
  descriptor _ _ h := h
  descriptors _ h := h
  put slot _ h := by cases slot <;> exact h
  place slot _ h := by cases slot <;> exact h
  remove slot _ h := by cases slot <;> exact h
  sweep _ h := h
  referralTime _ h := h
  nextReferral _ h := h
  clock _ h := h
  today _ h := h
  funds _ hf h := hf.trans h

namespace RecordMemory.Kept

variable {M : RecordMemory → Prop} (k : RecordMemory.Kept M)
include k

theorem touch (c : Card) (h : M m) : M (m.touch c).memory := k.funds _ (Funds.imbalance_writeOffLots ..) h

theorem settle (slot : Slot) (c : Card) (wrote : Bool) (h : M m) : M (m.settle slot c wrote).1 := by
  rw [RecordMemory.settle_eq]
  split <;> exact k.put _ _ h

theorem commit (slot : Slot) (c : Card) (moved : Option Moved) (h : M m) : M (m.commit slot c moved).1 := k.put _ _ h

theorem mapCard (number : Nat) (f : Card → Card) (h : M m) : M (m.mapCard number f) := by
  unfold RecordMemory.mapCard
  split
  · exact k.put _ _ h
  · exact h

theorem payMerchant (i : Nat) (r : Merchant) (paid : Nat) (parts : List Lot) (h : M m) :
    M (m.payMerchant i r paid parts) :=
  k.merchant _ _ (k.funds _ (Funds.imbalance_spend ..) h)

theorem openHold (slot : Nat) (x : HoldRecord) (i : Nat) (r : Merchant) (h : M m) : M (m.openHold slot x i r) :=
  k.merchant _ _ (k.hold _ _ h)

theorem freeHold (slot : Nat) (x : HoldRecord) (cause : EndCause) (h : M m) : M (m.freeHold slot x cause) := by
  unfold RecordMemory.freeHold
  dsimp only
  split
  · exact k.merchant _ _ (k.hold _ _ h)
  · exact k.hold _ _ h

theorem returnValue (c : Card) (paid : Nat) (parts : List Lot) (h : M m) : M (m.returnValue c paid parts).1 :=
  k.funds _ (Funds.imbalance_returnParts ..) h

theorem redeem (slot : Slot) (c : Card) (i : Nat) (r : Merchant) (amount : Nat) (purse : Purse) (upTo : Bool)
    {d : Redeemed} (hd : m.redeem slot c i r amount purse upTo = .ok d) (h : M m) : M d.memory := by
  unfold RecordMemory.redeem at hd
  split at hd
  · cases hd
  · split at hd
    · cases hd
    · cases hd
      exact k.commit _ _ _ (k.payMerchant _ _ _ _ h)

theorem placeHold (c : Card) (i : Nat) (r : Merchant) (amount : Nat) (purse : Purse) (upTo : Bool) (origin : HoldOrigin)
    (expires : Nat) {d : Placed} (hd : m.place c i r amount purse upTo origin expires = .ok d) (h : M m) :
    M d.memory := by
  unfold RecordMemory.place at hd
  split at hd
  · cases hd
  · split at hd
    · cases hd
    · split at hd
      · cases hd
      · cases hd
        exact k.openHold _ _ _ _ h

theorem giveBack (n : Nat) (x : HoldRecord) (slot : Slot) (c : Card) (cause : EndCause) (h : M m) :
    M (m.giveBack n x slot c cause).1 :=
  k.commit _ _ _ (k.freeHold _ _ _ (k.returnValue _ _ _ (k.touch _ h)))

theorem expireHold (n : Nat) (x : HoldRecord) (h : M m) : M (m.expireHold n x) := by
  unfold RecordMemory.expireHold
  split
  · exact k.giveBack _ _ _ _ _ h
  · exact h

theorem expireDue (ties : List Nat) (fuel : Nat) (h : M m) : M (m.expireDue ties fuel) := by
  induction fuel generalizing m with
  | zero => exact h
  | succ fuel ih =>
    unfold RecordMemory.expireDue
    split
    · exact ih (k.expireHold _ _ h)
    · exact h

theorem examine (h : M m) : M m.examine := by
  unfold RecordMemory.examine
  split
  · exact h
  · split
    · exact k.sweep _ h
    · exact k.settle _ _ _ (k.sweep _ (k.funds _ (Funds.imbalance_writeOffLots ..) h))

theorem captureMember (merchant n : Nat) (x : HoldRecord) (h : M m) : M (captureMember merchant m n x) := by
  unfold Sys2Proof.Machine.captureMember
  split
  · exact k.put _ _ (k.freeHold _ _ _ (k.payMerchant _ _ _ _ h))
  · exact h

theorem releaseMember (n : Nat) (x : HoldRecord) (h : M m) : M (releaseMember m n x).1 := by
  unfold Sys2Proof.Machine.releaseMember
  split
  · exact k.put _ _ (k.freeHold _ _ _ (k.returnValue _ _ _ h))
  · exact h

end RecordMemory.Kept

end Sys2Proof.Machine
end

