-- ==== Sys2Proof/Laws/Records.lean ====
section
/-! SUPPORT. What the operations on single records give: the lowest index that passes a test, a merchant found again after
it is written, a card found again after it is put back, a hold slot freed, the frame of step 7, and the closed forms of the
operations that fold over a list. -/

namespace Sys2Proof.Machine

/-! ### The lowest index -/

/-- `firstIndex` gives an index that passes the test, in range, with none before it that does. -/
theorem firstIndex_spec {p : Nat → Bool} {fuel start n : Nat} (h : firstIndex p fuel start = some n) :
    start ≤ n ∧ n < start + fuel ∧ p n = true ∧ ∀ j, start ≤ j → j < n → p j = false := by
  induction fuel generalizing start with
  | zero => cases h
  | succ fuel ih =>
    unfold firstIndex at h
    split at h
    · cases h
      exact ⟨Nat.le_refl _, by omega, by assumption, fun j a b => by omega⟩
    · rename_i hp
      obtain ⟨a, b, c, d⟩ := ih h
      refine ⟨by omega, by omega, c, fun j g1 g2 => ?_⟩
      by_cases e : j = start
      · subst e
        simpa using hp
      · exact d j (by omega) g2

/-- The lowest index that passes the test is the one `firstIndex` gives. -/
theorem firstIndex_eq_some {p : Nat → Bool} {fuel start n : Nat} (h1 : start ≤ n) (h2 : n < start + fuel)
    (h3 : p n = true) (h4 : ∀ j, start ≤ j → j < n → p j = false) : firstIndex p fuel start = some n := by
  induction fuel generalizing start with
  | zero => omega
  | succ fuel ih =>
    unfold firstIndex
    by_cases e : start = n
    · subst e
      rw [if_pos h3]
    · rw [if_neg (by rw [h4 start (Nat.le_refl _) (by omega)]; simp)]
      exact ih (by omega) (by omega) fun j a b => h4 j (by omega) b

/-! ### Records written and found again -/

/-- The later of two insertions at one key stands. -/
theorem Table.insert_insert {α : Type} (t : Table α) (k : Nat) (v w : α) :
    (t.insert k v).insert k w = t.insert k w := by
  induction t with
  | nil => simp [Table.insert]
  | cons e t ih =>
    obtain ⟨j, x⟩ := e
    simp only [Table.insert]
    split
    · simp [Table.insert]
    · split
      · simp [Table.insert]
      · rename_i h1 h2
        simp only [Table.insert]
        rw [if_neg h1, if_neg h2, ih]

/-- The later of two writes of one card stands. -/
theorem RecordMemory.putCard_putCard (m : RecordMemory) (slot : Slot) (c d : Card) :
    (m.putCard slot c).putCard slot d = m.putCard slot d := by
  cases slot <;> simp [RecordMemory.putCard, Table.insert_insert]

/-- A card put back under its own number is found again, in the slot it had. -/
theorem RecordMemory.findCard_putCard {m : RecordMemory} {number : Nat} {slot : Slot} {c d : Card}
    (h : m.findCard number = some (slot, c)) (hd : d.number = number) :
    (m.putCard slot d).findCard number = some (slot, d) := by
  have hs : ∀ b, (m.putCard slot d).slotsOf b = m.slotsOf b := by
    intro b
    cases slot <;> rfl
  unfold RecordMemory.findCard at h ⊢
  rw [hs]
  generalize m.slotsOf (bucketOf number) = slots at h
  induction slots with
  | nil => simp at h
  | cons x l ih =>
    simp only [List.findSome?] at h ⊢
    by_cases hx : x = slot
    · subst hx
      rw [RecordMemory.cardAt_putCard_same]
      dsimp only
      rw [if_pos hd]
    · rw [RecordMemory.cardAt_putCard_other _ _ hx]
      cases hm : m.cardAt x with
      | none =>
        rw [hm] at h
        exact ih h
      | some c1 =>
        rw [hm] at h
        dsimp only at h ⊢
        by_cases g : c1.number = number
        · rw [if_pos g] at h
          simp only [Option.some.injEq, Prod.mk.injEq] at h
          exact absurd h.1 hx
        · rw [if_neg g] at h ⊢
          exact ih h

/-- A used merchant record is written into its table as it is. -/
theorem RecordMemory.setMerchant_used {m : RecordMemory} {i : Nat} {r : Merchant} (h : r.used = true) :
    m.setMerchant i r = { m with merchants := m.merchants.insert i r } := by
  unfold RecordMemory.setMerchant Table.set
  rw [if_neg (by rintro rfl; cases h)]

/-- A used record written over the one found for an id, with the same id, is the one found for it afterwards. -/
theorem RecordMemory.findMerchant_setMerchant {m : RecordMemory} {id i : Nat} {r r' : Merchant}
    (h : m.findMerchant id = some (i, r)) (hr : m.merchants.rising = true) (hu : r'.used = true) (hid : r'.id = id) :
    (m.setMerchant i r').findMerchant id = some (i, r') := by
  rw [RecordMemory.setMerchant_used hu]
  unfold RecordMemory.findMerchant at h ⊢
  dsimp only
  generalize m.merchants = t at h hr
  induction t with
  | nil => cases h
  | cons e t ih =>
    obtain ⟨j, x⟩ := e
    have hc := (Table.rising_cons j x t).mp hr
    simp only [List.find?_cons] at h
    split at h
    · cases h
      simp only [Table.insert]
      rw [if_neg (Nat.lt_irrefl _), if_pos trivial, List.find?_cons, show (r'.used && r'.id == id) = true by simp [hu, hid]]
    · rename_i hp
      have hlt : j < i := hc.1 _ (List.mem_of_find?_eq_some h)
      simp only [Table.insert]
      rw [if_neg (by omega), if_neg (by omega), List.find?_cons, hp]
      exact ih h hc.2

/-- Every lookup after a card is written back under its own number: the slots found are the same, and the slot written
holds the new card. -/
theorem RecordMemory.findCard_putCard_map {m : RecordMemory} {slot : Slot} {c d : Card} (hc : m.cardAt slot = some c)
    (hd : d.number = c.number) (number : Nat) :
    (m.putCard slot d).findCard number = (m.findCard number).map fun e => if e.1 = slot then (slot, d) else e := by
  have hs : ∀ b, (m.putCard slot d).slotsOf b = m.slotsOf b := by
    intro b
    cases slot <;> rfl
  unfold RecordMemory.findCard
  rw [hs]
  generalize m.slotsOf (bucketOf number) = slots
  induction slots with
  | nil => rfl
  | cons y l ih =>
    simp only [List.findSome?]
    by_cases hy : y = slot
    · subst hy
      rw [RecordMemory.cardAt_putCard_same, hc]
      dsimp only
      rw [hd]
      by_cases g : c.number = number
      · simp [g]
      · simp only [if_neg g]
        exact ih
    · rw [RecordMemory.cardAt_putCard_other _ _ hy]
      cases hm : m.cardAt y with
      | none => exact ih
      | some c1 =>
        dsimp only
        by_cases g : c1.number = number
        · simp [g, hy]
        · simp only [if_neg g]
          exact ih

/-- A slot of the Hold Pool read after a slot is written. -/
theorem RecordMemory.holdSlot_setHoldSlot {m : RecordMemory} (h : m.holds.rising = true) (n k : Nat) (x : HoldSlot) :
    (m.setHoldSlot n x).holdSlot k = if k = n then x else m.holdSlot k := by
  split
  · rename_i e
    subst e
    exact Table.get_set_same _ _ _ h
  · rename_i e
    exact Table.get_set_other _ _ _ e

/-- A merchant record read after a record is written. -/
theorem RecordMemory.merchant_setMerchant {m : RecordMemory} (h : m.merchants.rising = true) (i k : Nat) (r : Merchant) :
    (m.setMerchant i r).merchant k = if k = i then r else m.merchant k := by
  split
  · rename_i e
    subst e
    exact Table.get_set_same _ _ _ h
  · rename_i e
    exact Table.get_set_other _ _ _ e

/-- All that freeing a slot of a present merchant does (R78). -/
theorem RecordMemory.freeHold_eq {m : RecordMemory} {n generation index : Nat} {last : Option LastEnd}
    {record : Option HoldRecord} {h : HoldRecord} {cause : EndCause} {r : Merchant}
    (hn : m.holdSlot n = ⟨generation, last, record⟩) (hm : m.findMerchant h.merchant = some (index, r)) :
    m.freeHold n h cause = (m.setHoldSlot n
      ⟨(generation + 1) % 65536, some ⟨generation, h.merchant, cause⟩, none⟩).setMerchant index
        { r with openHolds := r.openHolds - 1 } := by
  unfold RecordMemory.freeHold
  dsimp only
  rw [hn]
  dsimp only
  rw [show RecordMemory.findMerchant (m.setHoldSlot n
    ⟨(generation + 1) % halfSpan, some ⟨generation, h.merchant, cause⟩, none⟩) h.merchant = some (index, r) from hm]
  rfl

/-- Step 7 changes the watch entries and the armed lists alone (R130). -/
theorem State.watchAttempt_frame (s : State) (a : WatchedAttempt) : ∃ watches armed,
    (s.watchAttempt a).1 = { s with memory := { s.memory with watches := watches }, armed := armed } := by
  have go : ∀ (l : List Nat) (acc : State × List (Nat × WatchAction)), ∃ watches armed,
      (l.foldl (State.watchOne a) acc).1 =
        { acc.1 with memory := { acc.1.memory with watches := watches }, armed := armed } := by
    intro l
    induction l with
    | nil => exact fun acc => ⟨acc.1.memory.watches, acc.1.armed, rfl⟩
    | cons i l ih =>
      intro acc
      obtain ⟨w, v, h⟩ := ih (State.watchOne a acc i)
      exact ⟨w, v, by rw [List.foldl_cons, h]; rfl⟩
  exact go _ _

/-- Parts placed in two runs are placed as in one. -/
theorem placeParts_append (today : Nat) (lots a b : List Lot) :
    placeParts today lots (a ++ b) =
      ((placeParts today (placeParts today lots a).1 b).1,
        (placeParts today lots a).2 ++ (placeParts today (placeParts today lots a).1 b).2) := by
  induction a generalizing lots with
  | nil => rfl
  | cons p a ih =>
    simp only [List.cons_append, placeParts]
    split
    · simp [ih]
    · split <;> simp [ih]

/-! ### Closed forms -/

/-- Every sponsor billed: the billed totals grow entry by entry. -/
theorem Funds.billAll_eq (f : Funds) (b : Vector Int 8) :
    f.billAll b = { f with billed := Vector.zipWith (fun x y => x + moneyInt y) f.billed b } := by
  obtain ⟨⟨l⟩, h⟩ := b
  match l, h with
  | [_, _, _, _, _, _, _, _], _ =>
    cases f with
    | mk _ _ _ _ _ _ _ _ _ _ billed =>
      obtain ⟨⟨l2⟩, h2⟩ := billed
      match l2, h2 with
      | [_, _, _, _, _, _, _, _], _ =>
        have hf : List.finRange 8 = [0, 1, 2, 3, 4, 5, 6, 7] := by decide
        unfold Funds.billAll
        rw [hf]
        simp [Funds.bill, addFor]

/-- At least one part joins a lot exactly when one of them is not written off. -/
theorem anyJoined_eq (fates : List (Lot × PartFate)) :
    anyJoined fates = decide (∃ f ∈ fates, f.2 ≠ .writtenOff) := by
  unfold anyJoined
  rw [Bool.eq_iff_iff, List.any_eq_true, decide_eq_true_iff]
  simp

/-- The zero flag says that the card's total value is 0. -/
theorem zeroFlag_eq (m : RecordMemory) (c : Card) : zeroFlag m c = decide (m.total c = 0) := by
  unfold zeroFlag
  by_cases h : m.total c = 0 <;> simp [h]

/-- The ZERO of a refusal that names one card: that card is present with total value 0 (R1). -/
theorem refusalFlags_one (m : RecordMemory) (number : Nat) :
    refusalFlags m [number] =
      { AnswerFlags.none with zero := (m.findCard number).any fun e => decide (m.total e.2 = 0) } := by
  cases h : m.findCard number with
  | none => simp [refusalFlags, RecordMemory.namedZero, h]
  | some e => simp [refusalFlags, RecordMemory.namedZero, h, zeroFlag_eq]

/-- A hold's life in seconds, and when it is clamped. -/
theorem Product.lifeOf_eq (p : Product) (life : Nat) :
    p.lifeOf life = (if life = 0 then p.holdLife else if life < 60 then 60 else min life p.maxHoldLife,
      decide (life ≠ 0 ∧ (life < 60 ∨ p.maxHoldLife < life))) := by
  unfold Product.lifeOf
  split
  · rename_i h
    simp [h]
  · rename_i h
    split
    · rename_i h2
      simp [h, h2]
    · rename_i h2
      split
      · rename_i h3
        simp [h, h2]
        omega
      · rename_i h3
        simp [h, h2]
        omega

/-- The merchant at a cursor is to be cut exactly when its record is used and in the labelled period. -/
theorem Descriptor.cuts_iff (d : Descriptor) (r : Merchant) :
    d.cuts r = true ↔ r.state ≠ .unused ∧ r.period = d.label := by
  unfold Descriptor.cuts Merchant.used
  simp

end Sys2Proof.Machine
end

