-- ==== Sys2Proof/Tests/Slice0.lean ====
section
/-! SUPPORT. Tests: the well-formedness smoke, message words of R197 to R199 written out byte by byte, one-step tests on the
manual's own worked examples, and for every statement with hypotheses a concrete state and operands that meet them, at a
boundary value of each clause. -/

namespace Sys2Proof.Tests

open Sys2Proof.Machine

-- One theorem at a time: each kernel evaluation otherwise holds a thread of its own.
set_option Elab.async false

/-! ### The test board -/

/-- A TRADING engine over a memory. -/
def board (m : RecordMemory) : State :=
  { State.reset with memory := m, retention := .valid, engine := .trading, startCause := .none }

/-- A state with one message in the inbound queue. -/
def posted (s : State) (i : Instr) : State := { s with inbound := [i.toMessage.getD []] }

/-- A request is taken, and the state it is judged on meets a test. -/
def taken (s : State) (i : Instr) (p : State → Bool) : Bool := ((posted s i).take i).any p

/-- A command answers a next state that meets a test. -/
def after (s : State) (i : Instr) (p : State → Bool) : Bool :=
  match exec i s with
  | .next u => p u
  | _ => false

/-- A posted request answers a next state that meets a test. -/
def answered (s : State) (i : Instr) (p : State → Bool) : Bool := after (posted s i) i p

/-- The newest answer's outcome. -/
def outcomeOf (u : State) : Option AnswerOutcome := u.answers.getLast?.map Answer.outcome

/-- The newest answer's flags. -/
def flagsOf (u : State) : Option AnswerFlags := u.answers.getLast?.map Answer.flags

/-- A card with some value and nothing else. -/
def card (number product paid : Nat) (lots : List Lot) (today : Nat) : Card where
  number := number
  product := product
  base := .active
  frozen := false
  softLocked := false
  attemptPending := false
  referralOpen := false
  awaitingLoad := false
  blockedCount := 0
  lastBlocked := none
  paid := paid
  lots := lots
  holds := []
  expiry := 700
  lastActivity := today
  sweptThrough := today
  counter := 22
  last := none

/-- A product's record: OPEN acceptance, the given order, tolerance and holds per card. -/
def product (order : DrawOrder) (tolerance holdsPerCard : Nat) : Product where
  state := .active
  mode := .opened
  categoryMap := 0
  order := order
  maxBalance := 60000
  minLoad := 1000
  maxLoad := 20000
  reload := true
  allowPartial := false
  cardLife := 365
  bonusLife := 30
  refundLife := 30
  holdLife := 7200
  maxHoldLife := 86400
  holdsPerCard := holdsPerCard
  tolerance := tolerance
  issued := 1

/-- A merchant's record: OPEN, nothing accrued. -/
def shop (id category trust period : Nat) : Merchant where
  state := .opened
  id := id
  category := category
  trust := trust
  tier := 4
  floor := 0
  allowance := 50000
  openHolds := 0
  period := period
  position := Position.zero

/-- The three card numbers of the tests and the main slots R32 gives them. -/
def numberQ : Nat := 4000001234567899
def numberR : Nat := 5000000000000017
def numberS : Nat := 5000000000000025
def slotQ : Nat := 210004
def slotR : Nat := 851972
def slotS : Nat := 851976

/-- The food court of chapter 4 on day 402: product 7, merchant 4,100 at index 0, card Q. -/
def foodCourt : RecordMemory :=
  { RecordMemory.blank 30 612 61200 402 with
    products := [(7, product .paidFirst 20 4)]
    sponsors := [(1, .active)]
    merchants := [(0, shop 4100 5 3 88)]
    holds := [(0, ⟨12, none, none⟩)]
    mainCards := [(slotQ, card numberQ 7 9000 [⟨0, 410, 2000⟩] 402)] }

/-- The food court with card Q changed. -/
def withQ (f : Card → Card) : RecordMemory := foodCourt.putCard (.main slotQ) (f (card numberQ 7 9000 [⟨0, 410, 2000⟩] 402))

/-- The food court with the hold of 5,000 of R89's example placed in slot 0. -/
def heldCourt (paid : Nat) (lots : List Lot) : RecordMemory :=
  { foodCourt with
    merchants := [(0, { shop 4100 5 3 88 with openHolds := 1 })]
    holds := [(0, ⟨12, none, some ⟨.hold, numberQ, 4100, 5000, [], 61200, 68400, 88⟩⟩)]
    mainCards := [(slotQ, { card numberQ 7 paid lots 402 with holds := [⟨0, 12⟩] })] }

def redeemQ (amount : Nat) : Instr := .redeem 7001 numberQ 4100 amount 0 0 0
def holdQ (amount life : Nat) : Instr := .hold 7001 numberQ 4100 amount 0 0 0 life

/-! ### Well-formedness: one ill-formed command for each check -/

theorem test_wf_window_offset : Instr.wellFormed (.windowWrite 0x119 0) = false := by decide
theorem test_wf_window_value : Instr.wellFormed (.windowWrite 0 4294967296) = false := by decide
theorem test_wf_post_value : Instr.wellFormed (.postWord 4294967296) = false := by decide
theorem test_wf_hold_slot : Instr.wellFormed (.holdExpiry 16384) = false := by decide
theorem test_wf_lapse_zero : Instr.wellFormed (.lapse 0) = false := by decide
theorem test_wf_lapse_high : Instr.wellFormed (.lapse 65536) = false := by decide
theorem test_wf_window_entry : Instr.wellFormed (.windowExpiry 16 0) = false := by decide
theorem test_wf_window_card : Instr.wellFormed (.windowExpiry 0 (2 ^ 64)) = false := by decide
theorem test_wf_badcode_fits : Instr.wellFormed (.badCode 1 16 0) = false := by decide
theorem test_wf_badcode_wide : Instr.wellFormed (.badCode 65536 8 0) = false := by decide
theorem test_wf_tag : Instr.wellFormed (.openTrading 4294967296) = false := by decide
theorem test_wf_product_index : Instr.wellFormed (.withdrawProduct 0 256) = false := by decide
theorem test_wf_tender_count : Instr.wellFormed (.tender 0 1 1 0 2 [⟨1, 0, 0, 0⟩]) = false := by decide
theorem test_wf_tender_listed : Instr.wellFormed (.tender 0 1 1 0 7 [⟨1, 0, 0, 0⟩]) = false := by decide
theorem test_wf_refund_count : Instr.wellFormed (.refund 0 1 1 0 5 [⟨0, 1⟩]) = false := by decide
theorem test_wf_good : Instr.wellFormed (.load 7 numberQ 500) = true := by decide

/-! ### Messages read as R197 to R199 lay them out -/

/-- A LOAD: code 8, length 20, tag 7, card number, amount 500. -/
theorem test_reads_load : readMessage (padMessage
    [8, 0, 20, 0, 7, 0, 0, 0, 0x9B, 0x0B, 0x9A, 0xB2, 0x06, 0x36, 0x0E, 0x00, 0xF4, 0x01, 0, 0]) =
    .load 7 0x000E3606B29A0B9B 500 := by decide +kernel

/-- A REDEEM: code 16, length 28; merchant at 16, amount at 20, selector at 24, sponsor at 25, allow-partial at 26. -/
theorem test_reads_redeem : readMessage (padMessage
    [16, 0, 28, 0, 1, 0, 0, 0, 2, 0, 0, 0, 0, 0, 0, 0, 3, 0, 0, 0, 4, 0, 0, 0, 3, 5, 1]) =
    .redeem 1 2 3 4 3 5 1 := by decide +kernel

/-- A CAPTURE: slot at 8, generation at 10, merchant at 12, amount at 16. -/
theorem test_reads_capture : readMessage (padMessage
    [18, 0, 20, 0, 1, 0, 0, 0, 37, 0, 12, 0, 4, 16, 0, 0, 0x76, 0x16, 0, 0]) =
    .capture 1 37 12 4100 5750 := by decide +kernel

/-- A REFUND of two parts: count at 24, part k at 28 + 8k. -/
theorem test_reads_refund : readMessage (padMessage
    [22, 0, 44, 0, 1, 0, 0, 0, 2, 0, 0, 0, 0, 0, 0, 0, 3, 0, 0, 0, 4, 0, 0, 0, 2, 0, 0, 0,
     0, 0, 0, 0, 0x84, 3, 0, 0, 2, 0, 0, 0, 0x58, 2, 0, 0]) =
    .refund 1 2 3 4 2 [⟨0, 900⟩, ⟨2, 600⟩] := by decide +kernel

/-- A TENDER of one member: member 0 at 20 (R199). -/
theorem test_reads_tender : readMessage (padMessage
    [21, 0, 32, 0, 1, 0, 0, 0, 2, 0, 0, 0, 3, 0, 0, 0, 1, 1, 0, 0, 9, 0, 0, 0, 0, 0, 0, 0, 1, 3, 7, 0]) =
    .tender 1 2 3 1 1 [⟨9, 1, 3, 7⟩] := by decide +kernel

/-- A DECIDE: number at 8, decision at 10. -/
theorem test_reads_decide : readMessage (padMessage [24, 0, 12, 0, 1, 0, 0, 0, 0x64, 2, 1]) =
    .decide 1 612 1 := by decide +kernel

/-- A DEFINE-MERCHANT: id at 8, category, trust and tier at 12 to 14, floor at 16, allowance at 20, period at 24. -/
theorem test_reads_merchant : readMessage (padMessage
    [35, 0, 28, 0, 1, 0, 0, 0, 2, 0, 0, 0, 3, 1, 4, 0, 5, 0, 0, 0, 6, 0, 0, 0, 7, 0, 0, 0]) =
    .defineMerchant 1 2 3 1 4 5 6 7 := by decide +kernel

/-- A DEFINE-PRODUCT of 52 bytes, field by field from R198. -/
theorem test_reads_product : readMessage (padMessage
    [27, 0, 52, 0, 1, 0, 0, 0, 12, 2, 1, 1, 0, 4, 20, 0, 0x20, 2, 0, 0, 0, 0, 0, 0, 10, 0, 0, 0, 11, 0, 0, 0,
     12, 0, 0, 0, 13, 0, 14, 0, 15, 0, 0, 0, 60, 0, 0, 0, 61, 0, 0, 0]) =
    .defineProduct 1 12 ⟨2, 1, 1, 0, 4, 20, 0x220, 10, 11, 12, 13, 14, 15, 60, 61⟩ := by decide +kernel

/-- A DEFINE-WATCH: the level-1 condition at 16, the level-2 condition at 32. -/
theorem test_reads_watch : readMessage (padMessage
    [42, 0, 48, 0, 1, 0, 0, 0, 3, 1, 1, 1, 0x58, 2, 0, 0, 255, 0, 14, 0, 1, 0, 0, 0, 0, 0, 0, 0, 0x20, 0x4E, 0, 0,
     0, 1, 14, 1, 0, 1, 2, 0, 9, 0, 0, 0, 8, 0, 0, 0]) =
    .defineWatch 1 3 ⟨1, 1, 1, 600, ⟨255, 0, 14, 0, 1, 0, 0, 0, 20000⟩, ⟨0, 1, 14, 1, 0, 1, 2, 9, 8⟩⟩ := by
  decide +kernel

/-- A START-PAYOUT: descriptor, mode and ratio at 8 to 10, first at 12, last at 14, label at 16. -/
theorem test_reads_payout : readMessage (padMessage
    [45, 0, 20, 0, 1, 0, 0, 0, 0, 0, 2, 0, 40, 0, 43, 0, 57, 0, 0, 0]) =
    .startPayout 1 0 0 2 40 43 57 := by decide +kernel

/-- FORMAT, ISSUE and VOID-LAST. -/
theorem test_reads_format : readMessage (padMessage [1, 0, 16, 0, 1, 0, 0, 0, 0x92, 1, 0, 0, 5, 0, 0, 0]) =
    .format 1 402 5 := by decide +kernel
theorem test_reads_issue : readMessage (padMessage
    [7, 0, 28, 0, 1, 0, 0, 0, 2, 0, 0, 0, 0, 0, 0, 0, 7, 255, 30, 0, 4, 0, 0, 0, 5, 0, 0, 0]) =
    .issue 1 2 7 255 30 4 5 := by decide +kernel
theorem test_reads_void : readMessage (padMessage
    [23, 0, 24, 0, 1, 0, 0, 0, 2, 0, 0, 0, 0, 0, 0, 0, 3, 0, 0, 0, 4, 0, 0, 0]) =
    .voidLast 1 2 3 4 := by decide +kernel

/-- A known code with another length, and an unknown code (R187, R198). -/
theorem test_reads_bad_length : readMessage (padMessage [3, 0, 12, 0, 1, 0, 0, 0]) = .badCode 3 12 1 := by decide +kernel
theorem test_reads_bad_code : readMessage (padMessage [49, 0, 8, 0, 1, 0, 0, 0]) = .badCode 49 8 1 := by decide +kernel

/-- A TENDER count of 7 is handed on with no member read (R199). -/
theorem test_reads_tender_seven : readMessage (padMessage
    [21, 0, 104, 0, 1, 0, 0, 0, 2, 0, 0, 0, 3, 0, 0, 0, 1, 7]) = .tender 1 2 3 1 7 [] := by decide +kernel

/-- The table gives no row any bits. -/
theorem test_table_word : decodeTableWord 16 8 = none := rfl

/-! ### Tables filled whole, for the hypotheses that no place is free -/

/-- The table with one record at each of so many indexes. -/
@[irreducible] def filled {α : Type} (n : Nat) (v : α) : Table α := (List.range n).map fun j => (j, v)
theorem find_filled {α : Type} (n k : Nat) (v : α) (h : k < n) : (filled n v).find k = some v := by
  have go : ∀ l : List Nat, k ∈ l → Table.find (l.map fun j => (j, v)) k = some v := by
    intro l
    induction l with
    | nil => intro g; cases g
    | cons j l ih =>
      intro g
      simp only [List.map_cons, Table.find]
      split
      · rfl
      · rename_i e
        exact ih ((List.mem_cons.mp g).resolve_left fun x => e x.symm)
  unfold filled
  exact go _ (List.mem_range.mpr h)
theorem firstIndex_none (p : Nat → Bool) (fuel start : Nat) (h : ∀ j, start ≤ j → j < start + fuel → p j = false) :
    firstIndex p fuel start = none := by
  induction fuel generalizing start with
  | zero => rfl
  | succ fuel ih =>
    unfold firstIndex
    rw [if_neg (by rw [h start (Nat.le_refl _) (by omega)]; simp)]
    exact ih (start + 1) fun j a b => h j (by omega) (by omega)

/-! ### The manual's worked examples -/

/-- Introduction: 4000 0012 3456 7899 passes its check, and R32 gives it bucket 52,501. -/
theorem test_check_digit : wellFormedNumber numberQ && !wellFormedNumber (numberQ + 1) = true := by decide +kernel
theorem test_bucket : bucketOf numberQ = 52501 := by decide +kernel

/-- Chapter 1, worked drawdown on day 390: PRO-RATA, 4,321 asked. -/
theorem test_drawdown_prorata :
    drawdown 390 (card numberQ 7 8000 [⟨2, 395, 700⟩, ⟨1, 410, 1500⟩] 390) 4321 .default .proRata false =
      some ⟨4321, 3390, [⟨2, 395, 700⟩, ⟨1, 410, 231⟩], [⟨1, 410, 1269⟩]⟩ := by decide +kernel

/-- Chapter 1, the same card: SPONSOR 1 with partial approval, and without. -/
theorem test_drawdown_sponsor :
    drawdown 390 (card numberQ 7 8000 [⟨2, 395, 700⟩, ⟨1, 410, 1500⟩] 390) 4321 (.sponsor 1) .proRata true =
      some ⟨1500, 0, [⟨1, 410, 1500⟩], [⟨2, 395, 700⟩]⟩ := by decide +kernel
theorem test_drawdown_short :
    drawdown 390 (card numberQ 7 8000 [⟨2, 395, 700⟩, ⟨1, 410, 1500⟩] 390) 4321 (.sponsor 1) .proRata false = none := by
  decide +kernel

/-- Chapter 1, four lots taking back a released hold on day 398. -/
theorem test_merge_example :
    placeParts 398 [⟨0, 400, 500⟩, ⟨3, 402, 300⟩, ⟨1, 405, 200⟩, ⟨3, 420, 100⟩]
        [⟨1, 412, 80⟩, ⟨5, 402, 60⟩, ⟨0, 396, 40⟩] =
      ([⟨0, 400, 500⟩, ⟨3, 402, 300⟩, ⟨1, 412, 280⟩, ⟨3, 420, 100⟩],
        [(⟨1, 412, 80⟩, .joined 3), (⟨5, 402, 60⟩, .writtenOff), (⟨0, 396, 40⟩, .writtenOff)]) := by decide +kernel

/-- Chapter 4: HOLD 5,000 on card Q. -/
theorem test_hold_example : answered (board foodCourt) (holdQ 5000 0) (fun u =>
    decide (outcomeOf u = some .done) &&
    decide ((u.memory.cardAt (.main slotQ)).map (fun c => (c.paid, c.lots, c.holds)) =
      some (4000, [⟨0, 410, 2000⟩], [⟨0, 12⟩])) &&
    decide (u.memory.holdSlot 0 = ⟨12, none, some ⟨.hold, numberQ, 4100, 5000, [], 61200, 68400, 88⟩⟩) &&
    decide ((u.memory.merchant 0).openHolds = 1) && decide (u.memory.funds = Funds.zero)) = true := by decide +kernel

/-- Chapter 4: CAPTURE 5,750 of that hold, with its excess of 750. -/
theorem test_capture_example : answered (board (heldCourt 4000 [⟨0, 410, 2000⟩])) (.capture 1 0 12 4100 5750) (fun u =>
    decide (outcomeOf u = some .done) &&
    decide ((u.memory.cardAt (.main slotQ)).map (fun c => (c.paid, c.lots, c.holds)) =
      some (3250, [⟨0, 410, 2000⟩], [])) &&
    decide (u.memory.holdSlot 0 = ⟨13, some ⟨12, 4100, .settled⟩, none⟩) &&
    decide ((u.memory.merchant 0).position.gross = 5750 ∧ (u.memory.merchant 0).position.items = 1 ∧
      (u.memory.merchant 0).openHolds = 0) && decide (u.memory.funds.due = 5750)) = true := by decide +kernel

/-- Chapter 4: CAPTURE 7,000 with 300 of free value: clamped to 6,000 and short by 700. -/
theorem test_capture_short : answered (board (heldCourt 300 [])) (.capture 1 0 12 4100 7000) (fun u =>
    decide (outcomeOf u = some .inPart ∧ flagsOf u = some ⟨true, true, true, false, false⟩) &&
    decide ((u.memory.merchant 0).position.gross = 5300)) = true := by decide +kernel

/-- Chapter 4: the expiry of the hold at 68,400, and the late CAPTURE of R87. -/
theorem test_expiry_example :
    after (board { heldCourt 4000 [⟨0, 410, 2000⟩] with clock := 68400 }) (.holdExpiry 0) (fun u =>
      decide ((u.memory.cardAt (.main slotQ)).map (fun c => (c.paid, c.holds)) = some (9000, [])) &&
      decide (u.memory.holdSlot 0 = ⟨13, some ⟨12, 4100, .expired⟩, none⟩)) = true := by decide +kernel
def lateCourt : State := board { foodCourt with holds := [(0, ⟨13, some ⟨12, 4100, .expired⟩, none⟩)] }
theorem test_late_capture :
    (answered lateCourt (.capture 1 0 12 4100 5750) (fun v => decide (outcomeOf v = some (.declined .tooLate))) &&
      answered lateCourt (.capture 1 0 12 5050 5750) (fun v => decide (outcomeOf v = some (.refused .unknownHold)))) =
    true := by decide +kernel

/-- Chapter 8, the worked cut, and a tie of the rate part with q odd. -/
theorem test_cut_example :
    (cutOf ⟨275, 5, 100, 0⟩ { Position.zero with gross := 1234567, refunded := 34500, items := 412, carryIn := -2000 }).fee =
      35007 := by decide +kernel
theorem test_fee_tie :
    ((cutOf ⟨25, 0, 0, 0⟩ { Position.zero with gross := 600, items := 1 }).fee,
      (cutOf ⟨25, 0, 0, 0⟩ { Position.zero with gross := 1000, items := 1 }).fee,
      (cutOf ⟨275, 5, 100, 0⟩ { Position.zero with gross := 60, items := 2 }).fee) = (2, 2, 60) := by decide +kernel

/-- Chapter 5: the refund on card Z, with its conversion and its lengthened lots. -/
def bistro : RecordMemory :=
  { RecordMemory.blank 30 612 61200 405 with
    products := [(12, product .paidFirst 20 4)]
    merchants := [(0, { shop 4210 5 3 88 with
      position := { Position.zero with
        gross := 80000
        refunded := 5000
        drawn := #v[6000, 0, 1500, 0, 0, 0, 0, 0]
        returned := #v[5800, 0, 0, 0, 0, 0, 0, 0] } })]
    mainCards := [(slotQ,
      card numberQ 12 10000 [⟨0, 420, 2000⟩, ⟨2, 430, 500⟩, ⟨3, 440, 800⟩, ⟨1, 450, 300⟩] 405)] }
theorem test_refund_example :
    answered (board bistro) (.refund 1 numberQ 4210 3000 2 [⟨0, 900⟩, ⟨2, 600⟩]) (fun u =>
      decide (outcomeOf u = some .done ∧ flagsOf u = some ⟨false, false, true, true, false⟩) &&
      decide ((u.memory.cardAt (.main slotQ)).map (fun c => (c.paid, c.lots)) =
        some (13700, [⟨0, 435, 2200⟩, ⟨2, 435, 1100⟩, ⟨3, 440, 800⟩, ⟨1, 450, 300⟩])) &&
      decide ((u.memory.merchant 0).position.due = 70500)) = true := by decide +kernel

/-- Chapter 5: the redemption of the worked drawdown voided the same day. -/
def cinema : RecordMemory :=
  { RecordMemory.blank 30 612 61200 390 with
    products := [(7, product .proRata 20 4)]
    merchants := [(0, shop 5050 9 3 44)]
    mainCards := [(slotQ, { card numberQ 7 8000 [⟨2, 395, 700⟩, ⟨1, 410, 1500⟩] 390 with counter := 17 })] }
theorem test_redeem_example : answered (board cinema) (.redeem 1 numberQ 5050 4321 0 0 0) (fun u =>
    decide ((u.memory.cardAt (.main slotQ)).map (fun c => (c.paid, c.lots, c.last)) =
      some (4610, [⟨1, 410, 1269⟩],
        some ⟨.redeem 5050 44, 18, 390, 3390, [⟨2, 395, 700⟩, ⟨1, 410, 231⟩]⟩)) &&
    decide ((u.memory.merchant 0).position.drawn = #v[0, 231, 700, 0, 0, 0, 0, 0])) = true := by decide +kernel
def redeemed : RecordMemory :=
  { cinema with
    merchants := [(0, { shop 5050 9 3 44 with
      position := { Position.zero with gross := 4321, items := 1, drawn := #v[0, 231, 700, 0, 0, 0, 0, 0] } })]
    mainCards := [(slotQ, { card numberQ 7 4610 [⟨1, 410, 1269⟩] 390 with
      counter := 18
      last := some ⟨.redeem 5050 44, 18, 390, 3390, [⟨2, 395, 700⟩, ⟨1, 410, 231⟩]⟩ })] }
theorem test_void_example : answered (board redeemed) (.voidLast 2 numberQ 5050 18) (fun v =>
    decide (outcomeOf v = some .done) &&
    decide ((v.memory.cardAt (.main slotQ)).map (fun c => (c.paid, c.lots, c.counter)) =
      some (8000, [⟨2, 395, 700⟩, ⟨1, 410, 1500⟩], 19)) &&
    decide ((v.memory.merchant 0).position = Position.zero)) = true := by decide +kernel

/-- Chapter 4: three cards at the food court, the bill covered. -/
def tables : RecordMemory :=
  { RecordMemory.blank 30 612 61200 402 with
    products := [(7, product .paidFirst 20 4), (11, product .paidFirst 20 2)]
    merchants := [(0, shop 4100 5 3 88)]
    holds := [(0, ⟨4, none, none⟩)]
    mainCards := [(slotQ, card numberQ 7 3500 [] 402), (slotR, { card numberR 7 4000 [] 402 with frozen := true }),
      (slotS, card numberS 11 9000 [⟨1, 430, 1000⟩] 402)] }
def bill : Instr := .tender 1 4100 10000 0 5
  [⟨numberQ, 0, 0, 0⟩, ⟨numberR, 0, 0, 0⟩, ⟨numberS, 1, 3, 1⟩, ⟨numberS, 1, 0, 0⟩, ⟨numberQ, 1, 0, 0⟩]
theorem test_tender_example : answered (board tables) bill (fun u =>
    decide (outcomeOf u = some .done ∧ flagsOf u = some ⟨false, false, false, true, false⟩) &&
    decide ((u.memory.cardAt (.main slotQ)).map (fun c => (c.paid, c.holds, c.counter)) = some (0, [], 23)) &&
    decide ((u.memory.cardAt (.main slotR)).map Card.counter = some 22) &&
    decide ((u.memory.cardAt (.main slotS)).map (fun c => (c.paid, c.lots, c.holds)) = some (3500, [], [])) &&
    decide ((List.range 3).map (fun n => (u.memory.holdSlot n).generation) = [5, 1, 1]) &&
    decide ((u.memory.merchant 0).position.gross = 10000 ∧ (u.memory.merchant 0).position.items = 3 ∧
      (u.memory.merchant 0).position.drawn[1] = 1000)) = true := by decide +kernel

/-- Chapter 6: the debit referral of card K2 approved at 50,025. -/
def board612 : State :=
  { board { RecordMemory.blank 30 612 50000 402 with
      products := [(7, product .paidFirst 20 4)]
      merchants := [(0, shop 4210 5 1 31)]
      mainCards := [(slotQ, card numberQ 7 6000 [] 402)] } with
    referrals := [⟨609, .unlock, 1, numberR, 49990, 50020, .opened⟩] }
theorem test_referral_example : answered board612 (.redeem 7001 numberQ 4210 2400 0 0 0) (fun u =>
    decide (outcomeOf u = some .referred) &&
    decide (u.referrals.getLast? =
      some ⟨612, .debit ⟨4210, 2400, .default, false, .b⟩, 7001, numberQ, 50000, 50030, .opened⟩) &&
    decide ((u.memory.cardAt (.main slotQ)).map (fun c => (c.paid, c.referralOpen, c.counter)) =
      some (6000, true, 22))) = true := by decide +kernel
def board613 : State :=
  { board612 with
    memory := board612.memory.putCard (.main slotQ) { card numberQ 7 6000 [] 402 with referralOpen := true }
    referrals := board612.referrals ++
      [⟨612, .debit ⟨4210, 2400, .default, false, .b⟩, 7001, numberQ, 50000, 50030, .opened⟩] }
theorem test_approve_example : answered board613 (.decide 7020 612 0) (fun v =>
    decide (outcomeOf v = some .done) && decide (v.referrals.map Referral.number = [609]) &&
    decide ((v.memory.cardAt (.main slotQ)).map (fun c => (c.paid, c.referralOpen, c.counter)) =
      some (3600, false, 23)) && decide ((v.memory.merchant 0).position.gross = 2400)) = true := by decide +kernel

/-- Chapter 7: entry 3 at 30,450 triggers, refers and is armed again. -/
def watch3 : WatchEntry :=
  ⟨.waitSecond, ⟨⟨none, false⟩, ⟨some 14, false⟩, ⟨none, false⟩, 20000⟩,
    ⟨⟨none, false⟩, ⟨some 14, false⟩, ⟨none, false⟩, 20000⟩, .other, 600, .refer, .rearm⟩
theorem test_watch_example :
    watch3.evaluate ⟨numberQ, 0, 14, 7520, 22000, 30450⟩ [⟨numberQ, 7410, 30000⟩] =
      ⟨.waitSecond, [⟨numberQ, 7520, 30450⟩], true⟩ := by decide +kernel
theorem test_watch_edge :
    (watch3.evaluate ⟨numberQ, 0, 14, 7520, 22000, 30600⟩ [⟨numberQ, 7410, 30000⟩]).triggered = true ∧
      (watch3.evaluate ⟨numberQ, 0, 14, 7520, 22000, 30601⟩ [⟨numberQ, 7410, 30000⟩]).triggered = false := by
  decide +kernel

/-- Chapter 9: the turn at index 40 cuts merchant 6,100. -/
def payday : State :=
  board { RecordMemory.blank 30 612 61200 402 with
    tiers := [(2, ⟨200, 0, 0, 0⟩)]
    merchants := [(40, { shop 6100 5 3 57 with
      tier := 2, position := { Position.zero with gross := 50000, items := 10 } })]
    descriptors := [(0, { startRun .step 2 40 43 57 with credit := 2 })] }
theorem test_turn_example : after { payday with inbound := [[]] } .turn (fun u =>
    decide (outcomeOf u = some .notice) && decide ((u.memory.merchant 40).period = 58) &&
    decide (((u.memory.descriptor 0).cursor, (u.memory.descriptor 0).credit, (u.memory.descriptor 0).payout,
      (u.memory.descriptor 0).fees) = (41, 0, 49000, 1000))) = true := by decide +kernel

/-- Chapter 10: the step at main slot 10 sweeps card A on day 391. -/
def nightfall (unit : SweepUnit) (c : Card) (slot : Nat) : State :=
  board { RecordMemory.blank 30 612 61200 391 with sweep := unit, mainCards := [(slot, c)] }
theorem test_sweep_example :
    after (nightfall ⟨.sweeping, 391, .main 10, 0, 0, 0, 0, 0⟩
      { card numberQ 7 0 [⟨2, 390, 300⟩] 390 with expiry := 800 } 10) .sweepStep (fun u =>
      decide (u.memory.sweep = ⟨.sweeping, 391, .main 11, 1, 0, 0, 1, 300⟩) &&
      decide (u.memory.funds.expired[2] = 300)) = true := by decide +kernel

/-- Chapter 3: the lost card's second blocked attempt, and its UNLOCK handed to the server. -/
def lostCard : RecordMemory :=
  withQ fun c => { c with softLocked := true, attemptPending := true, blockedCount := 1, lastBlocked := some 7300 }
theorem test_blocked_example : answered (board lostCard) (redeemQ 3000) (fun u =>
    decide (outcomeOf u = some (.declined .cardLocked)) &&
    decide ((u.memory.cardAt (.main slotQ)).map (fun c => (c.blockedCount, c.lastBlocked, c.paid)) =
      some (2, some 4100, 9000))) = true := by decide +kernel
theorem test_unlock_example : answered (board lostCard) (.unlock 5 numberQ) (fun u =>
    decide (u.answers.getLast?.map Answer.body =
      some (.attempt (.unlockReferred 612 61230 1 (some 7300) none)))) = true := by decide +kernel

/-! ### Witnesses: states and operands that meet a statement's hypotheses, clause by clause -/

/-- So many answers in the queue. -/
def full (s : State) (n : Nat) : State :=
  { s with answers := List.replicate n ⟨1, .done, AnswerFlags.none, 0, 1, .empty⟩ }

/-- The food court in an engine state. -/
def court (e : EngineState) : State := { board foodCourt with engine := e }

theorem witness_take : taken { court .setup with memory := { foodCourt with
    descriptors := [(1, { startRun .step 2 0 511 88 with credit := 64 }), (3, startRun .step 2 0 511 88)] } }
    (.inquireClock 1) (fun t => decide ((t.memory.descriptor 1).credit = 64 ∧ (t.memory.descriptor 3).credit = 1 ∧
      (t.memory.descriptor 0).credit = 0)) = true := by decide +kernel
theorem witness_take_burst : taken { court .setup with memory := { foodCourt with
    descriptors := [(3, { startRun .burst 1 0 511 88 with state := .stopped })] } } (.inquireClock 1) (fun _ => true) &&
    !taken { court .setup with memory := { foodCourt with
      descriptors := [(3, { startRun .burst 1 0 511 88 with state := .waiting })] } } (.inquireClock 1)
      (fun _ => true) = true := by decide +kernel
theorem witness_answered_once :
    (Instr.openTrading 1).fields ≠ none ∧ ((posted (court .setup) (.openTrading 1)).take (.openTrading 1)).isSome ∧
      ((court .setup).take (.openTrading 1)) = none := by decide +kernel
theorem witness_posting : (full (court .setup) 0).powered = true ∧
    ({ court .setup with inbound := List.replicate 31 [] } : State).inbound.length = 31 ∧
    ({ court .setup with inbound := List.replicate 32 [] } : State).inbound.length = 32 := by decide +kernel
theorem witness_release : (full (court .setup) 1).answers.length = 1 ∧ (full (court .setup) 2).powered = true ∧
    (court .setup).answers = [] := by decide +kernel
theorem witness_window : (court .setup).powered = true ∧ (court .setup).postArea.length = 128 ∧ 0x7C + 4 ≤ 0x80 ∧
    0x80 ≤ 0x104 ∧ 0x104 + 4 ≤ 0x108 ∧ 0x11C < 0x119 + 4 ∧ (2 : Nat).testBit 1 = true ∧ (1 : Nat).testBit 1 = false := by
  decide +kernel
/-- The board with one answer of a body pending. -/
def showing (b : AnswerBody) : State := { court .setup with answers := [⟨65533, .notice, AnswerFlags.none, 0, 1, b⟩] }
theorem witness_window_reads : 0x7F < 0x80 ∧ (court .setup).answers = [] ∧ (full (court .setup) 1).answers ≠ [] ∧
    (∃ d, d < 4 ∧ ((payday.memory.setDescriptor 3 (startRun .burst 1 0 511 57)).descriptor d).mode = .burst) ∧
    (payday.memory.descriptor 3).mode ≠ .burst ∧
    (showing (.payoutEnd 3 ⟨57, 0, 511, 512, 0, 0, 0, 0, 0, -1⟩)).answers.length = 1 ∧
    (showing (.payoutAdvice 3 511 6100 57 (cutOf Tier.zero Position.zero))).answers.length = 1 ∧
    (showing (.lapseNotice 65535 .watchHold 1 numberQ 4100 1)).answers.length = 1 ∧
    (showing (.sweepEnd 65535 0 0 0 0 0)).answers.length = 1 := by
  decide +kernel
/-- R201: a PAYOUT-END's range, its last index at offset 20 of the answer, and a LAPSE-NOTICE's reason. -/
theorem test_notice_bytes :
    ((showing (.payoutEnd 3 ⟨57, 40, 511, 512, 0, 0, 0, 0, 0, -1⟩)).readByte 0x94,
      (showing (.payoutEnd 3 ⟨57, 40, 511, 512, 0, 0, 0, 0, 0, -1⟩)).readByte 0x95,
      (showing (.lapseNotice 7 .watchHold 1 numberQ 4100 1)).readByte 0x93,
      (showing (.lapseNotice 7 .watchHold 1 numberQ 4100 1)).readByte 0xAA) =
      (some 0xFF, some 0x01, some 17, some 20) := by decide +kernel
theorem witness_undecoded : taken (court .setup) (.badCode 0 8 1) (fun _ => true) &&
    taken (court .setup) (.badCode 48 8 1) (fun _ => true) &&
    taken (court .setup) (.badCode 65532 8 1) (fun _ => true) = true := by decide +kernel
theorem witness_clock : (court .setup).engine ≠ .unformatted ∧ (court .unformatted).engine = .unformatted ∧
    taken (court .setup) (.setClock 1 61200) (fun t => decide (t.memory.clock ≤ 61200)) = true ∧
    taken (court .setup) (.setClock 1 61199) (fun t => decide (61199 < t.memory.clock)) = true := by decide +kernel

/-- A court on a day, its sweep unit in a state. -/
def night (day : Nat) (st : SweepState) : State :=
  { court .setup with memory := { foodCourt with today := day, sweep := ⟨st, day, .main 0, 0, 0, 0, 0, 0⟩ } }
theorem witness_close_day :
    taken (night 402 .ending) (.closeDay 1) (fun t => decide (t.memory.sweep.state ≠ .idle)) &&
    taken (night 65535 .idle) (.closeDay 1) (fun t => decide (t.memory.today = 65535)) &&
    taken (night 65534 .idle) (.closeDay 1) (fun t => decide (t.memory.today < 65535)) &&
    taken (night 402 .idle) (.inquireClock 1) (fun t => decide (t.engine ≠ .unformatted)) = true := by decide +kernel

/-- A walk whose cursor is at a slot. -/
def walking (cursor : Slot) (st : SweepState) (c : Card) (slot answers : Nat) : State :=
  full { nightfall ⟨st, 391, cursor, 0, 0, 0, 0, 0⟩ c slot with waiting := [.sweep] } answers
/-- The walk at its last slot, which holds a card. -/
def lastSlot (c : Card) (answers : Nat) : State :=
  let s := walking (.overflow 65535) .sweeping c 0 answers
  { s with memory := { s.memory with poolCards := [(65535, c)] } }
/-- R179, R181: the card in the last slot is swept in the step that ends the walk, and the SWEEP-END counts it. -/
theorem test_last_slot_swept :
    after (lastSlot (card numberQ 7 0 [⟨2, 390, 40⟩] 390) 63) .sweepStep (fun u =>
        decide (u.answers.getLast?.map Answer.body = some (.sweepEnd 391 1 0 0 1 40) ∧ u.memory.sweep.state = .idle ∧
          (u.memory.cardAt (.overflow 65535)).map Card.lots = some [])) &&
      after (lastSlot (card numberQ 7 0 [] 391) 64) .sweepStep (fun u =>
        decide (u.memory.sweep.passed = 1 ∧ u.memory.sweep.state = .ending ∧ u.memory.sweep.cursor = .overflow 65535)) =
      true := by decide +kernel
theorem witness_walk :
    (walking (.main 0) .sweeping (card numberQ 7 0 [] 390) 1 0).memory.cardAt (.main 0) = none ∧
    Slot.after (.main 1048575) = some (.overflow 0) ∧
    ((walking (.main 0) .sweeping (card numberQ 7 0 [] 391) 0 0).memory.cardAt (.main 0)).map Card.sweptThrough =
      some 391 ∧
    ((walking (.main 0) .sweeping (card numberQ 7 0 [⟨2, 390, 1⟩] 390) 0 0).memory.cardAt (.main 0)).map
      Card.sweptThrough = some 390 ∧
    (walking (.overflow 65535) .sweeping (card numberQ 7 0 [] 390) 0 63).answers.length = 63 ∧
    (walking (.overflow 65535) .sweeping (card numberQ 7 0 [] 390) 0 64).memory.cardAt (.overflow 65535) = none ∧
    ((lastSlot (card numberQ 7 0 [] 391) 63).memory.cardAt (.overflow 65535)).map Card.sweptThrough = some 391 ∧
    ((lastSlot (card numberQ 7 0 [⟨2, 390, 1⟩] 390) 64).memory.cardAt (.overflow 65535)).map Card.sweptThrough = some 390 ∧
    (walking (.overflow 65535) .ending (card numberQ 7 0 [] 390) 0 64).waiting = [.sweep] := by decide +kernel

theorem witness_cold : ({ court .setup with retention := .lost } : State).retention = .lost ∧
    ({ court .setup with indicatorCheck := false } : State).indicatorCheck = false ∧ (court .setup).powered = true ∧
    taken { court .unformatted with retention := .lost } (.setClock 1 61201) (fun t => decide (t.memory.clock = 61200)) ∧
    taken { court .unformatted with retention := .lost } (.setClock 1 61199) (fun _ => true) ∧
    taken (court .setup) (.format 1 402 5) (fun t => decide (t.engine ≠ .trading)) ∧
    Stage.filling ≠ Stage.sealed true 0 false := by
  decide +kernel
/-- R195: the reading after a reset that stops a SET-CLOCK of an UNFORMATTED engine, and a FORMAT past its step 5. -/
theorem test_reset_keeps_the_reading :
    after { posted (court .unformatted) (.setClock 1 70000) with retention := .lost }
        (.engineReset true ⟨some (.sealed true 0 false), none, none, none⟩ []) (fun u => decide (u.memory.clock = 70000)) &&
      after (posted (court .setup) (.format 1 402 5)) (.engineReset true ⟨some (.sealed true 0 false), none, none, none⟩ [])
        (fun u => decide (u.memory.clock = 5 ∧ u.engine = .unformatted)) = true := by decide +kernel
theorem witness_recovery : (court .trading).retention = .valid ∧ (court .trading).indicatorCheck = true ∧
    (court .trading).slots = UpdateSlots.empty ∧ (court .trading).powered = true := by decide
theorem witness_recovery_expires :
    (heldCourt 4000 []).holds.rising = true ∧ ((heldCourt 4000 []).findCard numberQ).isSome = true ∧
    (({ heldCourt 4000 [] with clock := 68399 } : RecordMemory).recovered [] |>.holdSlot 0).record.isSome = true ∧
    (({ heldCourt 4000 [] with clock := 68400 } : RecordMemory).recovered [] |>.holdSlot 0).record = none := by
  decide +kernel
theorem witness_power_loss : (court .setup).powered = true ∧
    ({ court .setup with powered := false } : State).powered = false ∧ 0x118 + 4 ≤ 0x11C := by decide
theorem witness_roll_forward : foodCourt.tablesWf = true ∧ (heldCourt 4000 []).tablesWf = true ∧
    (foodCourt.writesTo (heldCourt 4000 [])).length = 3 := by decide +kernel
/-- A board that a stop meets: retention intact, and the command answers a next state. -/
def stops (s : State) (i : Instr) : Bool :=
  after s i fun _ => decide (s.powered = true ∧ s.retention = .valid ∧ s.indicatorCheck = true ∧ s.tablesWf = true)
theorem witness_stopped_writers : stops (posted (board foodCourt) (redeemQ 9000)) (redeemQ 9000) &&
    decide (readMessage ((redeemQ 9000).toMessage.getD []) = redeemQ 9000) && stops payday .turn &&
    stops { payday with waiting := [.descriptor 0] } .descriptorService &&
    stops (walking (.main 0) .sweeping (card numberQ 7 0 [⟨2, 390, 1⟩] 390) 0 0) .sweepStep &&
    stops (walking (.overflow 65535) .ending (card numberQ 7 0 [] 390) 0 63) .sweepEnd &&
    stops (board { heldCourt 4000 [] with clock := 68400 }) (.holdExpiry 0) && stops board613 (.lapse 609) &&
    stops { board613 with waiting := [.entry 609] } .lapseNotice = true := by decide +kernel
/-- R193: a REDEEM stopped by a power loss, its slot SEALED: the next start has the whole change; FILLING: none of it. -/
theorem test_stopped_redeem :
    (match exec (.powerLoss true true ⟨some (.sealed true 1 false), none, none, none⟩)
        (posted (board foodCourt) (redeemQ 9000)) with
      | .next p => after p (.powerOn []) fun u =>
        decide ((u.memory.cardAt (.main slotQ)).map Card.paid = some 0 ∧ (u.memory.merchant 0).position.gross = 9000)
      | _ => false) = true := by decide +kernel
theorem witness_format : taken (court .setup) (.format 1 65535 4294967295) (fun t => decide (t.engine ≠ .trading)) &&
    taken (court .trading) (.format 1 0 0) (fun t => decide (t.engine = .trading)) = true := by decide +kernel
theorem witness_open : taken (court .setup) (.openTrading 1) (fun t =>
    decide (t.engine = .setup ∧ (∃ p ∈ t.memory.products, p.2.state = .active) ∧
      ∃ r ∈ t.memory.merchants, r.2.state ≠ .unused)) &&
    taken (board (RecordMemory.blank 30 1 0 0)) (.openTrading 1) (fun t => decide (t.engine ≠ .setup)) = true := by
  decide +kernel

/-- The referral board with two OPEN entries and so many answers. -/
def referring (answers : Nat) : State := full board613 answers
theorem witness_close_trading :
    taken (referring 62) (.closeTrading 1) (fun t => decide (t.engine = .trading ∧ t.referrals.length = 2)) &&
    taken (referring 63) (.closeTrading 1) (fun t => decide (t.answers.length = 63)) &&
    taken { referring 0 with waiting := [.entry 600] } (.closeTrading 1) (fun t => decide (t.waiting = [.entry 600])) &&
    taken (referring 62) (.closeTrading 1) (fun t => decide ((t.referrals.map Referral.card).Nodup ∧
      (t.memory.findCard numberQ).isSome = true ∧ (t.memory.findCard numberR).isSome = false)) &&
    taken (court .setup) (.closeTrading 1) (fun t => decide (t.engine ≠ .trading)) = true := by decide +kernel
theorem witness_unformatted : taken (court .unformatted) (.inquireFunds 1) (fun t => decide (t.engine = .unformatted)) &&
    decide ((posted (court .unformatted) (.inquireFunds 1)).inbound.head?.isSome) = true := by decide +kernel

/-- The front command's step changes the engine state. -/
def moves (s : State) (i : Instr) (e : EngineState) : Bool :=
  match step { s with pending := [i] } with
  | .next u => decide (u.engine = e ∧ u.engine ≠ s.engine)
  | _ => false
theorem witness_engine_moves : moves (posted { court .unformatted with retention := .lost } (.format 1 402 5)) (.format 1 402 5) .setup &&
    moves (posted (court .setup) (.openTrading 1)) (.openTrading 1) .trading &&
    moves (posted (court .trading) (.closeTrading 1)) (.closeTrading 1) .setup &&
    moves (court .trading) (.powerOn []) .setup &&
    moves { court .trading with retention := .lost } (.engineReset true ⟨none, none, none, none⟩ []) .unformatted &&
    moves (court .trading) (.windowWrite 0x10C 2) .setup = true := by decide +kernel

theorem witness_touch : foodCourt.today ≤ (card numberQ 7 1 [] 402).sweptThrough ∧
    (card numberQ 7 1 [⟨2, 401, 1⟩, ⟨2, 402, 1⟩] 401).sweptThrough < foodCourt.today ∧
    (foodCourt.touch (card numberQ 7 1 [⟨2, 401, 1⟩, ⟨2, 402, 1⟩] 401)).wrote = true := by decide +kernel
theorem witness_issue : taken (court .trading) (.issue 1 numberR 7 1 730 10000 50000) (fun t =>
    decide (t.engine = .trading ∧ issueBonusOf 1 730 50000 = some (some (1, 730, 50000)) ∧
      wellFormedNumber numberR = true ∧ (t.memory.product 7).state = .active ∧ t.memory.sponsor 1 = .active ∧
      t.memory.findCard numberR = none ∧ t.memory.freePlace (bucketOf numberR) = some (.main slotR) ∧
      10000 + 50000 ≤ (t.memory.product 7).maxBalance)) &&
    taken (court .trading) (.issue 1 numberR 7 255 0 0 0) (fun _ => decide (issueBonusOf 255 0 0 = some none)) = true := by
  decide +kernel
/-- The Card Table with no free place for card R: its bucket's main slots and the overflow pool are used. -/
def packed : RecordMemory :=
  { foodCourt with
    mainCards := (List.range 4).map fun j => (slotR / 4 * 4 + j, card numberS 7 1 [] 402)
    poolCards := filled 65536 (card numberS 7 1 [] 402) }
theorem witness_issue_refused : taken (court .setup) (.issue 1 numberR 7 255 0 0 0) (fun t => decide (t.engine ≠ .trading)) &&
    taken (court .trading) (.issue 1 numberR 64 255 0 0 0) (fun _ => true) &&
    taken (court .trading) (.issue 1 numberR 7 255 0 10000001 0) (fun _ => true) &&
    taken (court .trading) (.issue 1 numberR 7 8 0 0 1) (fun _ => true) &&
    taken (court .trading) (.issue 1 numberR 7 0 731 0 1) (fun _ => true) &&
    taken (court .trading) (.issue 1 (numberR + 1) 7 255 0 0 0) (fun _ => !wellFormedNumber (numberR + 1)) &&
    taken (court .trading) (.issue 1 numberR 63 255 0 0 0) (fun t => decide ((t.memory.product 63).state ≠ .active)) &&
    taken (court .trading) (.issue 1 numberR 7 7 0 0 1) (fun t => decide (t.memory.sponsor 7 ≠ .active)) &&
    taken (court .trading) (.issue 1 numberQ 7 255 0 0 0) (fun t => (t.memory.findCard numberQ).isSome) &&
    taken (court .trading) (.issue 1 numberR 7 1 0 60000 1) (fun t =>
      decide ((t.memory.product 7).maxBalance < 60000 + 1)) = true := by decide +kernel
theorem witness_issue_full : taken (board packed) (.issue 1 numberR 7 255 0 0 0) (fun t => decide (t.engine = .trading)) = true ∧
    packed.freePlace (bucketOf numberR) = none := by
  refine ⟨by decide +kernel, ?_⟩
  unfold RecordMemory.freePlace
  rw [show firstIndex (fun n => (packed.mainCards.find n).isNone) 4 (4 * bucketOf numberR) = none by decide +kernel]
  simp only
  rw [firstIndex_none _ _ _ fun j _ h => by
    show ((filled 65536 (card numberS 7 1 [] 402)).find j).isNone = false
    rw [find_filled 65536 j _ (by simpa [overflowSlots] using h)]; rfl]
  rfl

/-- A request on card Q is taken in TRADING and finds the card. -/
def onQ (m : RecordMemory) (i : Instr) (p : RecordMemory → Card → Bool) : Bool :=
  taken (board m) i fun t =>
    decide (t.engine = .trading) && wellFormedNumber numberQ &&
      match t.memory.findCard numberQ with
      | some (_, c) => p t.memory c
      | none => false

/-- R1, R94: ZERO on a refusal, by the cards its request names: present with total value 0, present with value, absent. -/
theorem test_zero_on_refusal :
    answered (board (withQ fun c => { c with paid := 0, lots := [] })) (.issue 1 numberQ 7 255 0 0 0) (fun u =>
      decide (outcomeOf u = some (.refused .duplicate) ∧ (flagsOf u).map AnswerFlags.zero = some true)) &&
    answered (board foodCourt) (.issue 1 numberQ 7 255 0 0 0) (fun u =>
      decide (outcomeOf u = some (.refused .duplicate) ∧ (flagsOf u).map AnswerFlags.zero = some false)) &&
    answered (court .setup) (.issue 1 numberR 7 255 0 0 0) (fun u =>
      decide (outcomeOf u = some (.refused .wrongState) ∧ (flagsOf u).map AnswerFlags.zero = some false)) = true := by
  decide +kernel
theorem test_zero_on_unlock_refusal :
    answered { board (withQ fun c => { c with paid := 0, lots := [], softLocked := true, attemptPending := true }) with
      engine := .setup } (.unlock 1 numberQ) (fun u =>
      decide (outcomeOf u = some (.refused .wrongState) ∧ (flagsOf u).map AnswerFlags.zero = some true)) = true := by
  decide +kernel

theorem witness_load : onQ foodCourt (.load 1 numberQ 999) (fun m c => decide (999 < (m.product c.product).minLoad)) &&
    onQ foodCourt (.load 1 numberQ 20000) (fun m c => decide (m.total c + 20000 ≤ (m.product c.product).maxBalance)) &&
    onQ (withQ fun c => { c with paid := 40001 }) (.load 1 numberQ 20000) (fun m c =>
      decide ((m.product c.product).maxBalance < m.total c + 20000)) &&
    onQ { foodCourt with products := [(7, { product .paidFirst 20 4 with reload := false })] } (.load 1 numberQ 1000)
      (fun m c => decide ((m.product c.product).reload = false ∧ c.awaitingLoad = false)) = true := by decide +kernel
theorem witness_grant :
    onQ foodCourt (.grantBonus 1 numberQ 1 0 49000) (fun m _ => decide (sponsorOf 1 = some 1 ∧ m.sponsor 1 = .active)) &&
    onQ foodCourt (.grantBonus 1 numberQ 1 730 49001) (fun m c =>
      decide ((m.product c.product).maxBalance < m.total c + 49001)) &&
    onQ (withQ fun c => { c with base := .expired }) (.grantBonus 1 numberQ 1 1 1) (fun _ c => decide (c.base = .expired)) &&
    onQ (withQ fun c => { c with lots := [⟨0, 410, 1⟩, ⟨1, 410, 1⟩, ⟨2, 410, 1⟩, ⟨3, 410, 1⟩] })
      (.grantBonus 1 numberQ 1 1 1) (fun _ c => decide (4 ≤ c.lots.length)) = true := by decide +kernel
theorem witness_inquiries : onQ foodCourt (.inquire 1 numberQ) (fun _ _ => true) &&
    taken (court .setup) (.inquire 1 numberR) (fun t =>
      decide (wellFormedNumber numberR = true ∧ t.memory.findCard numberR = none)) &&
    taken (board (heldCourt 1 [])) (.inquireHold 1 0 12) (fun t =>
      decide ((t.memory.holdSlot 0).generation = 12 ∧ (t.memory.holdSlot 0).record.isSome)) &&
    taken lateCourt (.inquireHold 1 0 12) (fun t => decide ((t.memory.holdSlot 0).resolve 12 = .tooLate 4100)) = true := by
  decide +kernel
theorem witness_staff : onQ foodCourt (.freeze 1 numberQ) (fun _ _ => true) &&
    onQ foodCourt (.thaw 1 numberQ) (fun _ _ => true) && onQ foodCourt (.lock 1 numberQ) (fun _ _ => true) = true := by
  decide +kernel
theorem witness_unlock :
    onQ (withQ fun c => { c with referralOpen := true }) (.unlock 1 numberQ) (fun m c => decide (m.today ≤ c.sweptThrough)) &&
    onQ foodCourt (.unlock 1 numberQ) (fun _ c => decide (c.softLocked = false)) &&
    onQ (withQ fun c => { c with softLocked := true }) (.unlock 1 numberQ) (fun _ c =>
      decide (c.attemptPending = false)) &&
    onQ lostCard (.unlock 1 numberQ) (fun _ c => c.attemptPending) &&
    taken { board lostCard with referrals := List.replicate 32 ⟨1, .unlock, 1, 1, 1, 1, .opened⟩ } (.unlock 1 numberQ)
      (fun t => decide (32 ≤ t.referrals.length)) &&
    taken { board lostCard with engine := .setup } (.unlock 1 numberQ) (fun t => decide (t.engine = .setup)) &&
    taken { board (withQ fun c => { c with softLocked := true, attemptPending := true, referralOpen := true }) with
      engine := .setup } (.unlock 1 numberQ) (fun t => decide (t.engine = .setup)) &&
    taken (court .setup) (.unlock 1 numberQ) (fun t => (t.memory.findCard numberQ).isSome) = true := by decide +kernel
/-- Log 21: an UNLOCK in SETUP on a card whose LAPSE-NOTICE waits is declined CARD-BUSY, with attempt-pending set too. -/
theorem test_unlock_notice_waits :
    answered { board (withQ fun c => { c with softLocked := true, attemptPending := true, referralOpen := true }) with
      engine := .setup } (.unlock 1 numberQ) (fun u => decide (outcomeOf u = some (.declined .cardBusy))) = true := by
  decide +kernel
/-- R47: the lots that the touch sweep wrote off stand in CLOSE-CARD's answer (log 36). -/
theorem test_close_lists_swept_lots :
    answered (board (withQ fun c => { c with lots := [⟨0, 401, 5⟩, ⟨0, 410, 7⟩], sweptThrough := 401 })) (.closeCard 1 numberQ)
      (fun u => decide (u.answers.getLast?.map Answer.body = some (.cardClosed 9000 [⟨0, 401, 5⟩, ⟨0, 410, 7⟩]))) = true := by
  decide +kernel
theorem witness_close_card : onQ foodCourt (.closeCard 1 numberQ) (fun _ c => decide (c.holds = [])) &&
    onQ (heldCourt 1 []) (.closeCard 1 numberQ) (fun _ c => decide (c.holds ≠ [])) &&
    onQ (withQ fun c => { c with referralOpen := true }) (.closeCard 1 numberQ) (fun _ c => c.referralOpen) = true := by
  decide +kernel

/-- Four lots in order. -/
def fourLots : List Lot := [⟨0, 400, 500⟩, ⟨3, 402, 300⟩, ⟨1, 405, 200⟩, ⟨3, 420, 100⟩]
theorem witness_merge : fourLots.Pairwise (fun a b => lotBefore a b = true) ∧
    (∃ l ∈ fourLots, sameLot ⟨1, 405, 7⟩ l = true) ∧ (∀ l ∈ fourLots.drop 1, sameLot ⟨0, 401, 7⟩ l = false) ∧
    (fourLots.drop 1).length < 4 ∧ (∃ l ∈ fourLots, l.sponsor = (⟨3, 421, 7⟩ : Lot).sponsor) ∧
    (∀ k ∈ fourLots, k.sponsor = 3 → k.expiry ≤ 420) ∧ fourLots = fourLots.take 3 ++ ⟨3, 420, 100⟩ :: [] ∧
    (∀ l ∈ fourLots, l.sponsor ≠ (⟨5, 402, 60⟩ : Lot).sponsor) := by decide +kernel
theorem witness_returned : fourLots.Pairwise (fun a b => lotBefore a b = true) ∧
    ((placeParts 398 fourLots [⟨1, 397, 80⟩, ⟨1, 398, 1⟩]).2.map Prod.snd) = [.writtenOff, .joined 3] := by
  decide +kernel
theorem witness_drawdown : (∀ l ∈ fourLots, 1 ≤ l.amount) ∧
    (drawdown 398 (card 1 7 10 fourLots 398) 1110 .default .bonusFirst false).isSome = true ∧
    drawdown 398 (card 1 7 10 fourLots 398) 1111 .default .bonusFirst false = none ∧
    (drawdown 398 (card 1 7 10 fourLots 398) 1111 .default .bonusFirst true).map Split.granted = some 1110 := by
  decide +kernel

/-- The hypotheses of the statements on a REDEEM or HOLD of card Q, with the card as touched. -/
def attempt (m : RecordMemory) (i : Instr) (amount : Nat) (p : RecordMemory → Card → Merchant → Bool) : Bool :=
  onQ m i fun m c =>
    (debitOf amount 0 0 0).isSome &&
      match m.findMerchant 4100 with
      | some (_, r) => p m c r
      | none => false

theorem witness_steps :
    attempt (withQ fun c => { c with base := .expired }) (redeemQ 1) 1 (fun m c _ =>
      decide ((m.touch c).card.base = .expired)) &&
    attempt (withQ fun c => { c with sweptThrough := 401, expiry := 401 }) (holdQ 1 0) 1 (fun m c _ =>
      decide ((m.touch c).card.base = .expired)) &&
    attempt (withQ fun c => { c with frozen := true }) (redeemQ 1) 1 (fun _ c _ => c.frozen) &&
    attempt (withQ fun c => { c with softLocked := true, blockedCount := 255 }) (holdQ 1 0) 1 (fun _ c _ => c.softLocked) &&
    attempt { foodCourt with merchants := [(0, { shop 4100 5 3 88 with state := .suspended })] } (redeemQ 1) 1
      (fun _ _ r => decide (r.state = .suspended)) &&
    attempt (withQ fun c => { c with referralOpen := true }) (redeemQ 1) 1 (fun _ c _ => c.referralOpen) &&
    attempt { foodCourt with products := [(7, { product .paidFirst 20 4 with mode := .mapped })] } (holdQ 1 0) 1
      (fun m c r => decide ((acceptance (m.product c.product) r 1).2 = .category)) = true := by decide +kernel

/-- The watch results of an attempt of card Q. -/
def watched (m : RecordMemory) (armed : Table (List Armed)) (amount : Nat) : List (Nat × WatchAction) :=
  (State.watchAttempt { board m with armed := armed } ⟨numberQ, 7, 5, 4100, amount, m.clock⟩).2

theorem witness_redeem : attempt foodCourt (redeemQ 9000) 9000 (fun m c r =>
    decide (standing (m.touch c).card (some r) = none ∧ c.referralOpen = false ∧
      acceptance (m.product c.product) r 9000 = (.a, .locally) ∧ watched m [] 9000 = [] ∧
      drawdown m.today c 9000 .default .paidFirst false = some ⟨9000, 9000, [], c.lots⟩ ∧
      r.position.gross + 9000 ≤ 999999999999)) &&
    attempt foodCourt (redeemQ 11001) 11001 (fun m c _ =>
      decide (drawdown m.today c 11001 .default .paidFirst false = none)) &&
    attempt { foodCourt with merchants := [(0, { shop 4100 5 3 88 with
        position := { Position.zero with gross := 999999991000 } })] } (redeemQ 9000) 9000 (fun _ _ r =>
      decide (999999999999 < r.position.gross + 9000)) = true := by decide +kernel
theorem witness_hold : attempt foodCourt (holdQ 11000 60) 11000 (fun m c r =>
    decide (standing (m.touch c).card (some r) = none ∧ watched m [] 11000 = [] ∧
      (m.touch c).card.holds.length < (m.product c.product).holdsPerCard ∧ (m.holdSlot 0).record = none ∧
      (drawdown m.today c 11000 .default .paidFirst false).isSome)) &&
    attempt (withQ fun c => { c with holds := List.replicate 4 ⟨0, 0⟩ }) (holdQ 1 59) 1 (fun m c _ =>
      decide ((m.product c.product).holdsPerCard ≤ c.holds.length)) &&
    attempt foodCourt (holdQ 11001 86401) 11001 (fun m c _ =>
      decide ((m.holdSlot 0).record = none ∧ drawdown m.today c 11001 .default .paidFirst false = none)) = true := by
  decide +kernel
/-- The food court with every slot of the Hold Pool OPEN. -/
def crowded : RecordMemory :=
  { foodCourt with holds := filled 16384 ⟨0, none, some ⟨.hold, numberR, 4100, 1, [], 0, 9, 88⟩⟩ }
theorem witness_hold_pool_full : attempt crowded (holdQ 1 0) 1 (fun m c _ =>
      decide (c.holds.length < (m.product c.product).holdsPerCard)) = true ∧
    ∀ j, j < 16384 → (crowded.holdSlot j).record ≠ none := by
  refine ⟨by decide +kernel, fun j h => ?_⟩
  rw [show crowded.holdSlot j = ⟨0, none, some ⟨.hold, numberR, 4100, 1, [], 0, 9, 88⟩⟩ from
    congrArg (Option.getD · HoldSlot.free) (find_filled 16384 j _ h)]
  simp

/-- An entry that triggers on a second attempt at another merchant, with an action. -/
def trap (action : WatchAction) (mode : WatchMode) : WatchEntry :=
  { watch3 with level1 := Condition.any, level2 := Condition.any, action := action, mode := mode }
theorem witness_watch :
    (trap .mark .rearm).state = .waitSecond ∧ WatchEntry.formatted.state = .disabled ∧
    ((trap .mark .oneShot).evaluate ⟨1, 0, 14, 7, 1, 1600⟩ [⟨1, 8, 1000⟩]).state = .triggered ∧
    ((trap .mark .rearm).evaluate ⟨9, 0, 14, 7, 1, 3⟩ [⟨1, 8, 0⟩, ⟨2, 8, 1⟩, ⟨3, 8, 2⟩]).list.map Armed.card = [1, 2, 3, 9] ∧
    ((trap .mark .rearm).evaluate ⟨9, 0, 14, 7, 1, 3⟩ [⟨1, 8, 0⟩, ⟨2, 8, 1⟩, ⟨3, 8, 2⟩, ⟨4, 8, 2⟩]).list.map Armed.card =
      [2, 3, 4, 9] ∧
    ((trap .mark .rearm).evaluate ⟨2, 0, 14, 8, 1, 603⟩ [⟨1, 8, 2⟩, ⟨2, 8, 3⟩, ⟨3, 8, 3⟩]).list.map Armed.card = [2, 3] ∧
    ((trap .mark .rearm).evaluate ⟨1, 0, 14, 7, 1, 1601⟩ [⟨1, 8, 1000⟩]).triggered = false ∧
    watch3.level1.meets ⟨1, 0, 14, 7, 19999, 1600⟩ = false ∧ watch3.level1.meets ⟨1, 0, 14, 7, 20000, 1600⟩ = true ∧
    (foodCourt.watches.rising = true ∧ (board foodCourt).armed.rising = true) := by decide +kernel

/-- The food court with that entry enabled as number 15 and card Q armed on it. -/
def trapped (action : WatchAction) : State :=
  { board { foodCourt with watches := [(15, trap action .oneShot)] } with armed := [(15, [⟨numberQ, 8, 61200⟩])] }
theorem witness_watch_results :
    decide ((State.watchAttempt (trapped .freeze) ⟨numberQ, 7, 5, 4100, 1, 61200⟩).2 = [(15, .freeze)]) &&
    decide ((State.watchAttempt (trapped .refer) ⟨numberQ, 7, 5, 4100, 1, 61200⟩).2 = [(15, .refer)]) &&
    taken (trapped .freeze) (redeemQ 1) (fun t => decide (t.engine = .trading)) &&
    taken { trapped .refer with referrals := List.replicate 32 ⟨1, .unlock, 1, 1, 1, 1, .opened⟩ } (holdQ 1 0)
      (fun t => decide (32 ≤ t.referrals.length)) &&
    taken (trapped .refer) (redeemQ 1) (fun t => decide (t.referrals.length < 32 ∧ 1 ≤ t.memory.nextReferral)) &&
    taken board612 (.redeem 7001 numberQ 4210 1 0 0 0) (fun t =>
      decide ((acceptance (t.memory.product 7) (t.memory.merchant 0) 1) = (.b, .refer))) = true := by decide +kernel
/-- R114: after 65,535 the next number is 1, and 65,535 itself is passed over while an entry holds it. -/
theorem test_referral_numbers :
    (let s := { board612 with memory := { board612.memory with nextReferral := 65535 } }
     let t := { s with referrals := [⟨65535, .unlock, 1, numberR, 1, 2, .lapsed⟩] }
     ((s.makeReferral numberQ 1 .unlock).map fun x => (x.2.number, x.1.memory.nextReferral)) = some (65535, 1) ∧
       ((t.makeReferral numberQ 1 .unlock).map fun x => (x.2.number, x.1.memory.nextReferral)) = some (1, 2)) := by
  decide +kernel

theorem witness_capture_amount :
    let h : HoldRecord := ⟨.hold, 1, 4100, 5000, [⟨0, 410, 10⟩], 0, 9, 88⟩
    h.parts.Pairwise (fun a b => sameLot a b = false) ∧ (∀ l ∈ h.parts, 1 ≤ l.amount) ∧
      (∀ l ∈ fourLots, 1 ≤ l.amount) ∧ fourLots.Pairwise (fun a b => lotBefore a b = true) ∧
      1 ≤ h.total ∧ captureLimit h.total 20 = 6012 ∧
      (drawdown 400 (card 1 7 0 fourLots 400) 1002 .default .paidFirst true).map Split.granted = some 1002 ∧
      drawdown 402 (card 1 7 0 [] 402) 1 .default .paidFirst true = none ∧
      (planCapture 402 (product .paidFirst 20 4) (card 1 7 900 [] 402) h 5010).shortfall = 0 ∧
      (planCapture 402 (product .paidFirst 20 4) (card 1 7 900 [] 402) h 6012).shortfall = 102 ∧
      (planCapture 402 (product .paidFirst 20 4) (card 1 7 900 [] 402) h 6013).clamped = true := by decide +kernel
theorem witness_capture : taken (board (heldCourt 4000 [])) (.capture 1 0 12 4100 10000000) (fun t =>
      decide (t.memory.merchants.rising = true ∧ (t.memory.holdSlot 0).generation = 12 ∧
        (t.memory.holdSlot 0).record.map HoldRecord.merchant = some 4100 ∧ (t.memory.findMerchant 4100).isSome ∧
        (t.memory.findCard numberQ).isSome)) &&
    taken (board (heldCourt 4000 [])) (.capture 1 0 12 4200 1) (fun t =>
      decide ((t.memory.holdSlot 0).record.map HoldRecord.merchant ≠ some 4200)) &&
    taken lateCourt (.capture 1 16383 12 4100 1) (fun t => decide ((t.memory.holdSlot 16383).record = none)) &&
    taken lateCourt (.capture 1 0 12 4100 1) (fun t => decide ((t.memory.holdSlot 0).generation ≠ 12)) &&
    taken (board { heldCourt 4000 [] with merchants := [(0, { shop 4100 5 3 88 with
      openHolds := 1, position := { Position.zero with gross := 999999999999 } })] }) (.capture 1 0 12 4100 1)
      (fun t => decide ((t.memory.merchant 0).position.gross = 999999999999)) = true := by decide +kernel
theorem witness_given_back : taken (board (heldCourt 4000 [])) (.release 1 0 12 4100) (fun t =>
      decide ((t.memory.holdSlot 0).generation = 12 ∧ (t.memory.findMerchant 4100).isSome ∧
        (t.memory.findCard numberQ).isSome ∧ t.memory.clock < 68400)) &&
    decide ((board { heldCourt 4000 [] with clock := 68400 }).powered = true ∧
      (heldCourt 4000 []).holds.rising = true) = true := by decide +kernel
theorem witness_tender : taken (board tables) bill (fun t =>
    decide (t.engine = .trading ∧ (convertAll memberOf [⟨numberQ, 0, 0, 0⟩, ⟨numberS, 1, 3, 1⟩]).isSome ∧
      (t.memory.findMerchant 4100).isSome ∧ (t.memory.findCard numberQ).isSome ∧ (t.memory.findCard numberR).isSome ∧
      (t.memory.findCard numberS).isSome ∧ t.memory.merchants.rising = true ∧ t.memory.holds.rising = true)) &&
    wellFormedNumber numberQ && wellFormedNumber numberR && wellFormedNumber numberS = true := by decide +kernel

/-- The outcome of a TENDER of card Q alone, or of other members, with each member's status and amount. -/
def tendered (m : RecordMemory) (armed : Table (List Armed)) (amount settle : Nat) (members : List MemberOperands)
    (outcome : AnswerOutcome) (result : List (MemberStatus × Nat)) : Bool :=
  answered { board m with armed := armed } (.tender 1 4100 amount settle members.length members) fun u =>
    match u.answers.getLast?.map Answer.body with
    | some (.tendered answers ..) =>
      decide (outcomeOf u = some outcome ∧ answers.map (fun a => (a.status, a.amount)) = result)
    | _ => false
/-- The tables with card Q changed. -/
def seated (f : Card → Card) : RecordMemory := tables.putCard (.main slotQ) (f (card numberQ 7 3500 [] 402))
/-- The tables with a merchant's record changed. -/
def hosted (f : Merchant → Merchant) : RecordMemory :=
  { tables with merchants := tables.merchants.map fun e => (e.1, f e.2) }
/-- R93: each row of the settlement, at the amount where it begins and ends; card Q has 3,500. -/
theorem test_tender_settlement :
    tendered tables [] 3500 0 [⟨numberQ, 0, 0, 0⟩] .done [(.taken, 3500)] &&
    tendered tables [] 3501 1 [⟨numberQ, 0, 0, 0⟩] .inPart [(.taken, 3500)] &&
    tendered tables [] 3501 0 [⟨numberQ, 0, 0, 0⟩] (.declined .short) [(.returned, 3500)] &&
    tendered tables [] 1 1 [⟨numberR, 0, 0, 0⟩] (.declined .short) [(.declined .cardFrozen, 0)] &&
    tendered (hosted fun r => { r with position := { Position.zero with gross := 999999996499 } }) [] 3500 0
      [⟨numberQ, 0, 0, 0⟩] .done [(.taken, 3500)] &&
    tendered (hosted fun r => { r with position := { Position.zero with gross := 999999996500 } }) [] 3501 1
      [⟨numberQ, 0, 0, 0⟩] (.declined .positionLimit) [(.returned, 3500)] = true := by decide +kernel
/-- R91, R94: how a member ends at each step, alone or after a member that leaves no remainder. -/
theorem test_tender_members :
    tendered tables [] 3500 0 [⟨numberQ, 0, 0, 0⟩, ⟨numberS, 1, 0, 0⟩, ⟨numberS, 0, 0, 0⟩] .done
      [(.taken, 3500), (.skipped, 0), (.declined .short, 0)] &&
    tendered tables [] 12000 1 [⟨numberS, 0, 0, 0⟩, ⟨numberS, 0, 0, 0⟩, ⟨numberQ, 0, 2, 0⟩] .inPart
      [(.taken, 10000), (.declined .short, 0), (.declined .short, 0)] &&
    tendered (hosted fun r => { r with trust := 1, floor := 0 }) [] 1 1 [⟨numberQ, 0, 0, 0⟩] (.declined .short)
      [(.declined .needsReferral, 0)] &&
    (let ends := fun m reason =>
      tendered m [(15, [⟨numberQ, 8, 61200⟩])] 1 1 [⟨numberQ, 1, 0, 0⟩] (.declined .short) [(.declined reason, 0)]
    ends (seated fun c => { c with expiry := 401, sweptThrough := 401 }) .cardExpired &&
    ends (seated fun c => { c with frozen := true }) .cardFrozen &&
    ends (seated fun c => { c with softLocked := true, blockedCount := 255 }) .cardLocked &&
    ends (hosted fun r => { r with state := .suspended }) .merchantSuspended &&
    ends (seated fun c => { c with referralOpen := true }) .cardBusy &&
    ends { tables with products := [(7, { product .paidFirst 20 4 with mode := .mapped })] } .category &&
    ends { tables with watches := [(15, trap .freeze .oneShot)] } .watchFrozen &&
    ends { tables with watches := [(15, trap .refer .oneShot)] } .needsReferral &&
    ends (seated fun c => { c with holds := List.replicate 4 ⟨9, 0⟩ }) .holdsFull) = true := by decide +kernel

/-- A refund of card Z is taken with its merchant and card found, the merchant changed. -/
def refunding (f : Merchant → Merchant) (paid : Nat) (p : RecordMemory → Card → Merchant → Bool) : Bool :=
  taken (board { bistro with merchants := bistro.merchants.map fun e => (e.1, f e.2) })
    (.refund 1 numberQ 4210 paid 1 [⟨4, 600⟩]) fun t =>
    (refundOf paid 1 [⟨4, 600⟩]).isSome &&
      match t.memory.findMerchant 4210, t.memory.findCard numberQ with
      | some (_, r), some (_, c) => p t.memory c r
      | _, _ => false
theorem witness_refund : refunding id 3000 (fun m c r => decide (r.state = .opened ∧ m.total c + 3600 ≤ 60000)) &&
    refunding (fun r => { r with position := { r.position with drawn := #v[0, 0, 0, 0, 0, 0, 0, 0] } }) 0 (fun _ _ r =>
      decide ((capPart r.position (4, 600)).restored = 0)) &&
    refunding (fun r => { r with state := .suspended }) 0 (fun _ _ r => decide (r.state = .suspended)) &&
    refunding (fun r => { r with position := { r.position with refunded := 999999996400 } }) 3000
      (fun _ _ r => decide (999999999999 < r.position.refunded + 3600)) &&
    refunding (fun r => { r with position := { r.position with refunded := 130000 } }) 0
      (fun _ _ r => decide (r.position.due - 600 < -50000)) &&
    refunding id 45801 (fun m c _ => decide (60000 < m.total c + 46401)) &&
    refunding (fun r => { r with position := { r.position with drawn := #v[0, 0, 0, 0, 600, 0, 0, 0] } }) 0
      (fun _ c r => decide (restoreLots c.lots (restoredParts 435 [capPart r.position (4, 600)]) = none)) = true := by
  decide +kernel

theorem witness_void :
    onQ redeemed (.voidLast 1 numberQ 5050 18) (fun m c => decide (c.last.map Movement.stamp = some 18 ∧
      c.last.map Movement.day = some m.today ∧ (m.findMerchant 5050).isSome)) &&
    onQ redeemed (.voidLast 1 numberQ 5051 18) (fun _ c => decide (c.last ≠ none)) &&
    onQ redeemed (.voidLast 1 numberQ 5050 19) (fun _ c => decide (c.last.map Movement.stamp ≠ some 19)) &&
    onQ foodCourt (.voidLast 1 numberQ 5050 65535) (fun _ c => decide (c.last = none)) &&
    onQ { redeemed with merchants := [(0, shop 5050 9 3 45)] } (.voidLast 1 numberQ 5050 18) (fun m _ =>
      decide ((m.findMerchant 5050).map (fun e => e.2.period) = some 45)) &&
    onQ (redeemed.setMerchant 0 { redeemed.merchant 0 with
        position := { (redeemed.merchant 0).position with refunded := 50001 } }) (.voidLast 1 numberQ 5050 18)
      (fun m _ => decide ((m.merchant 0).position.due - 4321 < -50000)) &&
    onQ (withQ fun c => { c with last := some ⟨.load, 7, 402, 9000, []⟩ }) (.voidLast 1 numberQ 0 7) (fun _ c =>
      decide (c.last.map Movement.kind = some .load)) = true := by decide +kernel
theorem witness_void_back : fourLots.Pairwise (fun a b => lotBefore a b = true) ∧ fourLots.length ≤ 4 ∧
    (∀ l ∈ fourLots, 1 ≤ l.amount) ∧
    (drawdown 400 (card 1 7 10 fourLots 398) 501 .bonusOnly .bonusFirst false).map Split.lotsLeft =
      some [⟨3, 402, 299⟩, ⟨1, 405, 200⟩, ⟨3, 420, 100⟩] := by decide +kernel

/-- The referral board with entry 612 of a kind. -/
def entry612 (kind : ReferralKind) (st : ReferralState) : State :=
  { board613 with referrals := [⟨612, kind, 7001, numberQ, 50000, 50030, st⟩] }
/-- The terms of the entry of chapter 6's example. -/
def terms612 : Terms := ⟨4210, 2400, .default, false, .b⟩
theorem witness_decide :
    taken (entry612 (.debit terms612) .opened) (.decide 1 612 1) (fun t => (t.findReferral 612).isSome) &&
    taken (entry612 .unlock .opened) (.decide 1 612 0) (fun t => (t.memory.findCard numberQ).isSome) &&
    taken (entry612 (.watch .redeem terms612 3) .opened) (.decide 1 612 0) (fun t =>
      decide ((t.memory.findMerchant 4210).map Prod.fst = some 0 ∧
        (drawdown 402 (card numberQ 7 6000 [] 402) 2400 .default .paidFirst false).isSome)) &&
    taken (entry612 (.hold terms612 59) .opened) (.decide 1 612 0) (fun t =>
      decide ((t.memory.holdSlot 0).record = none ∧
        standing (card numberQ 7 6000 [] 402) (some (t.memory.merchant 0)) = none)) &&
    taken (entry612 .unlock .lapsed) (.decide 1 612 1) (fun t =>
      decide ((t.findReferral 612).map Referral.state = some .lapsed)) &&
    taken { entry612 .unlock .opened with lapseRecord := [65535] } (.decide 1 65535 0) (fun t =>
      decide (t.findReferral 65535 = none ∧ 65535 ∈ t.lapseRecord)) &&
    taken board612 (.decide 1 1 0) (fun t => decide (t.findReferral 1 = none ∧ 1 ∉ t.lapseRecord)) = true := by
  decide +kernel
/-- Card Q changed on the board of an OPEN redemption or hold entry, whose approval step 1, 2, 3, 4 or 8 then declines. -/
def approving (kind : ReferralKind) (f : Card → Card) (g : RecordMemory → RecordMemory) : State :=
  { entry612 kind .opened with
    memory := g ((entry612 kind .opened).memory.putCard (.main slotQ) (f (card numberQ 7 6000 [] 402))) }
/-- An approval on card Q meets a test of the touched card, its memory and its merchant. -/
def approves (s : State) (p : RecordMemory → Card → Option (Nat × Merchant) → Bool) : Bool :=
  taken s (.decide 1 612 0) fun t =>
    match t.memory.findCard numberQ with
    | some (_, c) => p t.memory (t.memory.touch c).card (t.memory.findMerchant 4210)
    | none => false
theorem witness_decide_declines :
    approves (approving (.debit terms612) (fun c => { c with expiry := 401, sweptThrough := 401 }) id) (fun _ c _ =>
      decide (c.base = .expired)) &&
    approves (approving (.hold terms612 0) (fun c => { c with frozen := true }) id) (fun _ c _ => c.frozen) &&
    approves (approving (.watch .redeem terms612 15) (fun c => { c with softLocked := true, blockedCount := 255 }) id)
      (fun _ c _ => decide (c.softLocked = true ∧ 255 ≤ c.blockedCount)) &&
    approves (approving (.debit terms612) id fun m => { m with merchants := [] }) (fun _ _ r => decide (r = none)) &&
    approves (approving (.watch (.hold 60) terms612 0) id fun m =>
        { m with merchants := [(0, { shop 4210 5 1 31 with state := .suspended })] }) (fun _ _ r =>
      decide (r.map (fun e => e.2.state) = some .suspended)) &&
    approves (approving (.debit terms612) (fun c => { c with paid := 2399 }) id) (fun m c _ =>
      decide (drawdown m.today c 2400 .default .paidFirst false = none)) &&
    approves (approving (.debit terms612) id fun m => { m with merchants := [(0, { shop 4210 5 1 31 with
        position := { Position.zero with gross := 999999997600 } })] }) (fun _ _ r =>
      decide (r.map (fun e => e.2.position.gross + 2400) = some 1000000000000)) &&
    approves (approving (.hold terms612 60) (fun c => { c with holds := List.replicate 4 ⟨0, 0⟩ }) id) (fun m c _ =>
      decide ((m.product c.product).holdsPerCard ≤ c.holds.length)) &&
    approves (approving (.hold terms612 86400) (fun c => { c with paid := 0 }) id) (fun m c _ =>
      decide ((m.holdSlot 0).record = none ∧ drawdown m.today c 2400 .default .paidFirst false = none)) &&
    approves (approving (.hold terms612 60) id fun m => { m with holds := crowded.holds }) (fun m c _ =>
      decide (c.holds.length < (m.product c.product).holdsPerCard)) = true := by decide +kernel
theorem witness_referral_setting : taken (court .setup) (.setReferralTime 1 5) (fun t => decide (t.engine ≠ .unformatted)) &&
    taken (court .setup) (.setReferralTime 1 300) (fun _ => true) &&
    taken (court .setup) (.setReferralTime 1 301) (fun _ => true) &&
    taken (court .unformatted) (.setReferralTime 1 4) (fun t => decide (t.engine = .unformatted)) &&
    taken (court .unformatted) (.inquireReferral 1 0) (fun t => decide (t.engine = .unformatted)) &&
    taken board612 (.inquireReferral 1 0) (fun t => (t.makeReferral numberQ 1 .unlock).isSome) &&
    taken board612 (.inquireReferral 1 609) (fun t => (t.findReferral 609).isSome) &&
    taken { board612 with lapseRecord := [65535] } (.inquireReferral 1 65535) (fun t =>
      decide (t.findReferral 65535 = none ∧ 65535 ∈ t.lapseRecord)) &&
    taken board612 (.inquireReferral 1 1) (fun t => decide (t.findReferral 1 = none ∧ 1 ∉ t.lapseRecord)) = true := by
  decide +kernel
theorem witness_lapse :
    let s := { entry612 (.debit terms612) .opened with
      memory := { (entry612 (.debit terms612) .opened).memory with clock := 50030 } }
    s.powered = true ∧ (s.findReferral 612).isSome ∧ (s.memory.findCard numberQ).isSome ∧
      (full s 63).answers.length = 63 ∧ (full s 64).answers.length = 64 ∧ s.waiting = [] ∧
      (full { s with waiting := [.entry 612] } 64).waiting = [.entry 612] ∧
      (s.referrals.map Referral.deadline) = [s.memory.clock] := by decide +kernel

/-- The operands of product 7's definition. -/
def productFields : ProductOperands := ⟨0, 1, 1, 0, 4, 20, 0, 60000, 1000, 20000, 365, 30, 30, 7200, 86400⟩
theorem witness_products :
    taken (court .setup) (.defineProduct 1 63 productFields) (fun t =>
      decide ((productOf productFields).isSome ∧ (t.memory.product 63).state = .unused)) &&
    taken (court .setup) (.defineProduct 1 7 { productFields with maxBalance := 59999 }) (fun t =>
      decide (0 < (t.memory.product 7).issued)) &&
    taken (court .setup) (.defineProduct 1 63 { productFields with tolerance := 26 }) (fun _ =>
      decide (productOf { productFields with tolerance := 26 } = none)) &&
    taken (court .setup) (.withdrawProduct 1 7) (fun t => decide ((t.memory.product 7).state = .active)) &&
    taken (court .setup) (.reinstateProduct 1 0) (fun t => decide ((t.memory.product 0).state = .unused)) &&
    taken (court .setup) (.inquireProduct 1 63) (fun _ => true) &&
    taken (court .setup) (.defineSponsor 1 7) (fun t => decide (t.memory.sponsor 7 = .unused)) &&
    taken (court .setup) (.retireSponsor 1 1) (fun t => decide (t.memory.sponsor 1 = .active)) &&
    taken (court .setup) (.inquireSponsor 1 0) (fun _ => true) &&
    taken (court .setup) (.inquireFunds 1) (fun t => decide (t.engine ≠ .unformatted)) = true := by decide +kernel
theorem witness_merchants :
    taken (court .setup) (.defineMerchant 1 4100 63 3 15 10000000 100000000 1) (fun t =>
      (t.memory.findMerchant 4100).isSome) &&
    taken (court .setup) (.defineMerchant 1 5 0 0 0 0 0 1) (fun t =>
      decide (t.memory.findMerchant 5 = none ∧ (t.memory.merchant 1).state = .unused ∧
        (t.memory.merchant 0).state ≠ .unused)) &&
    taken (court .setup) (.suspendMerchant 1 4100) (fun t => (t.memory.findMerchant 4100).isSome) &&
    taken (court .setup) (.reinstateMerchant 1 5) (fun t => decide (t.memory.findMerchant 5 = none)) &&
    taken (court .setup) (.closeMerchant 1 4100) (fun t =>
      decide ((t.memory.merchant 0).openHolds = 0 ∧ (t.memory.merchant 0).position.due ≤ 0)) &&
    taken (board bistro) (.closeMerchant 1 4210) (fun t => decide (0 < (t.memory.merchant 0).position.due)) &&
    taken (court .setup) (.inquireMerchant 1 1 2 0 5) (fun t => decide ((t.memory.merchant 0).state ≠ .unused)) &&
    taken (court .setup) (.inquireMerchant 1 1 0 511 5) (fun t => decide ((t.memory.merchant 511).state = .unused)) &&
    taken (court .setup) (.inquireMerchant 1 0 2 0 4100) (fun t => (t.memory.findMerchant 4100).isSome) &&
    taken (court .setup) (.inquireMerchant 1 0 2 0 5) (fun t => decide (t.memory.findMerchant 5 = none)) = true := by
  decide +kernel
/-- Every merchant index used. -/
def fullMall : RecordMemory := { foodCourt with merchants := filled 512 (shop 4100 5 3 88) }
theorem witness_merchant_table_full : taken (board fullMall) (.defineMerchant 1 5 0 0 0 0 0 1) (fun _ => true) = true ∧
    fullMall.findMerchant 5 = none ∧ ∀ i, i < 512 → (fullMall.merchant i).state ≠ .unused := by
  refine ⟨by decide +kernel, by decide +kernel, fun i h => ?_⟩
  rw [show fullMall.merchant i = shop 4100 5 3 88 from
    congrArg (Option.getD · Merchant.unused) (find_filled 512 i _ h)]
  decide
theorem witness_tiers : taken (court .setup) (.defineTier 1 15 1000 1000 100000 100000) (fun _ => true) &&
    taken (court .setup) (.defineTier 1 0 1001 0 0 0) (fun t => decide (t.engine ≠ .unformatted)) &&
    taken (court .setup) (.inquireTier 1 15) (fun _ => true) &&
    decide ((cutOf Tier.zero Position.zero).net = 0 ∧ (cutOf Tier.zero { Position.zero with gross := 1 }).net = 1) =
    true := by decide +kernel

/-- The operands of the entry of chapter 7's example. -/
def watchFields : WatchOperands :=
  ⟨1, 1, 1, 86400, ⟨255, 0, 63, 0, 1, 0, 0, 0, 10000000⟩, ⟨255, 0, 63, 1, 1, 0, 2, 0, 0⟩⟩
theorem witness_watch_requests :
    taken (court .setup) (.defineWatch 1 15 watchFields) (fun t =>
      decide ((watchOf watchFields).isSome ∧ t.engine ≠ .unformatted)) &&
    taken { court .setup with memory := { foodCourt with watches := [(15, { trap .mark .oneShot with state := .triggered })] } }
      (.rearmWatch 1 15) (fun t => decide ((t.memory.watchEntry 15).state = .triggered)) &&
    taken (court .setup) (.inquireWatch 1 0) (fun _ => true) &&
    decide (let s := { trapped .mark with memory := { (trapped .mark).memory with clock := 61801 } }
      s.powered = true ∧ s.dueWindows = [(61800, 15, numberQ)]) = true := by decide +kernel

/-- A board with one descriptor. -/
def paying (d : Descriptor) : State :=
  { court .setup with memory := { payday.memory with descriptors := [(3, d)] } }
theorem witness_payouts :
    taken (paying Descriptor.idle) (.startPayout 1 3 1 64 511 511 57) (fun t =>
      decide ((t.memory.descriptor 3).state = .idle)) &&
    taken (paying { startRun .step 1 0 511 57 with state := .stopped }) (.startPayout 1 3 0 1 0 511 57) (fun t =>
      decide ((t.memory.descriptor 3).state = .stopped)) &&
    taken (paying (startRun .step 1 0 511 57)) (.stopPayout 1 3 0) (fun t =>
      decide ((t.memory.descriptor 3).state = .running)) &&
    taken (paying { startRun .step 1 0 511 57 with state := .done }) (.stopPayout 1 3 1) (fun t =>
      decide ((t.memory.descriptor 3).state = .done)) &&
    taken (paying { startRun .step 1 0 511 57 with state := .waiting }) (.resumePayout 1 3) (fun t =>
      decide ((t.memory.descriptor 3).state = .waiting)) &&
    taken (paying Descriptor.idle) (.inquirePayout 1 3) (fun t => decide (t.engine ≠ .unformatted)) = true := by
  decide +kernel
theorem witness_turn :
    (paying (startRun .burst 1 40 43 57)).nextTurn = some 3 ∧ (paying Descriptor.idle).nextTurn = none ∧
    (paying { startRun .step 2 40 43 57 with cursor := 44 }).nextTurn = some 3 ∧
    (let s := { full (paying { startRun .step 1 40 43 57 with state := .waiting }) 63 with waiting := [.descriptor 3] }
     s.powered = true ∧ s.answers.length = 63 ∧ (s.memory.descriptor 3).state = .waiting) := by decide +kernel

theorem witness_invariants :
    (let s := { posted (court .trading) (redeemQ 1) with pending := [redeemQ 1] }
     s.memory.funds.imbalance = 0 ∧ s.slots = UpdateSlots.empty ∧ s.tablesWf = true ∧ s.inbound.length ≤ 32 ∧
       s.armed = [] ∧ (match step s with | .next _ => true | _ => false) = true) := by decide +kernel
/-- The food court with its open hold, and the fund totals that go with them. -/
def audited : RecordMemory :=
  { heldCourt 4000 [⟨0, 410, 2000⟩] with
    funds := { Funds.zero with
      cashIn := 9000, paidLiability := 9000, granted := #v[2000, 0, 0, 0, 0, 0, 0, 0]
      liability := #v[2000, 0, 0, 0, 0, 0, 0, 0] }
    watches := [(3, watch3)] }
theorem audited_cardAt (slot : Slot) (c : Card) (h : audited.cardAt slot = some c) : slot = .main slotQ := by
  cases slot with
  | main n =>
    by_cases e : slotQ = n
    · rw [e]
    · simp [audited, heldCourt, RecordMemory.cardAt, Table.find, e] at h
  | overflow n => simp [audited, heldCourt, foodCourt, RecordMemory.blank, RecordMemory.cardAt, Table.find] at h
theorem audited_holdSlot (n : Nat) (h : HoldRecord) (e : (audited.holdSlot n).record = some h) : n = 0 := by
  by_cases g : 0 = n
  · exact g.symm
  · simp [audited, heldCourt, RecordMemory.holdSlot, Table.get, Table.find, g, HoldSlot.free] at e
/-- The board with its hold OPEN and card Q armed on entry 3 meets the agreement of the records. -/
theorem witness_agreement :
    let s := { board audited with armed := [(3, [⟨numberQ, 4100, 61200⟩])] }
    s.tablesWf = true ∧ s.Agrees ∧ s.watchesAgree := by
  have cards : ∀ c, c ∈ audited.cards →
      c = { card numberQ 7 4000 [⟨0, 410, 2000⟩] 402 with holds := [⟨0, 12⟩] } := fun c h => by
    simpa [RecordMemory.cards, audited, heldCourt, foodCourt, RecordMemory.blank] using h
  have holds : ∀ h, h ∈ audited.openHolds → h = ⟨.hold, numberQ, 4100, 5000, [], 61200, 68400, 88⟩ := fun h e => by
    simpa [RecordMemory.openHolds, audited, heldCourt] using e
  refine ⟨by decide +kernel, ⟨fun _ => rfl, ⟨⟨by decide +kernel, by decide +kernel, by decide +kernel⟩,
    ⟨?_, ?_, ?_, by decide +kernel, ?_⟩, ⟨?_, ?_, by decide +kernel, ?_, by decide +kernel, by decide +kernel⟩⟩,
    fun _ => ⟨by decide +kernel, by decide +kernel, (fun e h => by cases h), by decide +kernel⟩⟩, fun _ => by decide +kernel⟩
  · intro slot c h
    have e := audited_cardAt slot c h
    subst e
    cases (show some _ = some c from h)
    decide +kernel
  · intro i
    show (audited.product i).issued = audited.cards.countP fun c => c.product = i
    by_cases e : i = 7
    · subst e; decide +kernel
    · rw [List.countP_eq_zero.mpr fun c h => by rw [cards c h]; simp [card, Ne.symm e]]
      simp [audited, heldCourt, foodCourt, RecordMemory.product, Table.get, Table.find, Ne.symm e, Product.unused]
  · intro i h
    by_cases e : i = 7
    · subst e; revert h; decide +kernel
    · show (audited.product i).issued = 0
      simp [audited, heldCourt, foodCourt, RecordMemory.product, Table.get, Table.find, Ne.symm e, Product.unused]
  · intro c h v hv
    rw [cards c h] at hv
    cases hv
  · intro n h e
    have g := audited_holdSlot n h e
    subst g
    rw [holds h (by cases (show some _ = some h from e); decide +kernel)]
    exact ⟨.main slotQ, { card numberQ 7 4000 [⟨0, 410, 2000⟩] 402 with holds := [⟨0, 12⟩] }, by decide +kernel, by decide +kernel⟩
  · intro c h
    rw [cards c h]
    refine ⟨by decide +kernel, fun k hk => ?_⟩
    cases List.mem_singleton.mp hk
    exact ⟨by decide +kernel, ⟨.hold, numberQ, 4100, 5000, [], 61200, 68400, 88⟩, by decide +kernel, rfl⟩
  · intro h e
    rw [holds h e]
    exact ⟨(0, { shop 4100 5 3 88 with openHolds := 1 }), by decide +kernel⟩
theorem witness_reads_back : (redeemQ 1).wellFormed = true ∧ (redeemQ 1).toMessage.isSome = true ∧
    (Instr.tender 0 1 1 0 6 (List.replicate 6 ⟨2 ^ 64 - 1, 255, 255, 255⟩)).wellFormed = true ∧
    (Instr.badCode 21 32 0).wellFormed = true ∧ (Instr.badCode 22 28 4294967295).wellFormed = true := by decide +kernel

end Sys2Proof.Tests
end

section
/-! The rules for lists of bonus lots: the lot order, the lot-merge rule and returned parts (R2, R4, R5). -/

namespace Sys2Proof.Machine

/-! ### The lot order (R2) -/

/-- Lots in lot order (R2). -/
abbrev LotsOrdered (lots : List Lot) : Prop := lots.Pairwise fun a b => lotBefore a b = true

/-- No two lots of one sponsor and expiry day. -/
abbrev LotsApart (lots : List Lot) : Prop := lots.Pairwise fun a b => sameLot a b = false

theorem lotBefore_iff (a b : Lot) :
    lotBefore a b = true ↔ a.expiry < b.expiry ∨ a.expiry = b.expiry ∧ a.sponsor.val < b.sponsor.val := by
  simp [lotBefore]

theorem sameLot_iff (p l : Lot) : sameLot p l = true ↔ l.sponsor = p.sponsor ∧ l.expiry = p.expiry := by
  simp [sameLot]

theorem sameLot_eq_false_iff (p l : Lot) : sameLot p l = false ↔ ¬(l.sponsor = p.sponsor ∧ l.expiry = p.expiry) := by
  rw [← sameLot_iff, Bool.not_eq_true]

theorem sameLot_comm (p l : Lot) : sameLot p l = sameLot l p := by
  rw [Bool.eq_iff_iff, sameLot_iff, sameLot_iff]
  exact ⟨fun h => ⟨h.1.symm, h.2.symm⟩, fun h => ⟨h.1.symm, h.2.symm⟩⟩

theorem lotBefore_trans {a b c : Lot} (h : lotBefore a b = true) (k : lotBefore b c = true) :
    lotBefore a c = true := by
  rw [lotBefore_iff] at *
  omega

/-- Of two lots that differ in sponsor or day, one comes before the other. -/
theorem lotBefore_of_not {a b : Lot} (hs : sameLot a b = false) (h : lotBefore a b ≠ true) : lotBefore b a = true := by
  rw [ne_eq, lotBefore_iff] at h
  rw [sameLot_eq_false_iff] at hs
  rw [lotBefore_iff]
  by_contra hn
  exact hs ⟨Fin.ext (by omega), by omega⟩

theorem sameLot_of_lotBefore {a b : Lot} (h : lotBefore a b = true) : sameLot a b = false := by
  rw [sameLot_eq_false_iff]
  rintro ⟨hs, he⟩
  rw [lotBefore_iff, he, hs] at h
  omega

theorem LotsOrdered.apart {lots : List Lot} (h : LotsOrdered lots) : LotsApart lots :=
  h.imp fun hab => sameLot_of_lotBefore hab

/-- Two different lots of a list of lots apart differ in sponsor or day. -/
theorem LotsApart.of_mem {lots : List Lot} (h : LotsApart lots) {a b : Lot} (ha : a ∈ lots) (hb : b ∈ lots)
    (hne : a ≠ b) : sameLot a b = false :=
  have : Std.Symm fun a b : Lot => sameLot a b = false := ⟨fun a b e => by rwa [sameLot_comm]⟩
  h.forall ha hb hne

/-- The lot order looks at sponsor and day alone. -/
theorem lotBefore_congr {a b a' b' : Lot} (ha : sameLot a a' = true) (hb : sameLot b b' = true) :
    lotBefore a' b' = lotBefore a b := by
  rw [sameLot_iff] at ha hb
  simp [lotBefore, ha, hb]

/-- A list of lots apart holds at most one of a sponsor and day: around it no lot is the same. -/
theorem LotsApart.around {before after : List Lot} {l p : Lot} (h : LotsApart (before ++ l :: after))
    (hl : sameLot p l = true) : ∀ k ∈ before ++ after, sameLot p k = false := by
  obtain ⟨_, hafter, hcross⟩ := List.pairwise_append.mp h
  have key : ∀ k, sameLot l k = false → sameLot p k = false := by
    intro k hk
    rw [sameLot_iff] at hl
    rw [sameLot_eq_false_iff] at hk ⊢
    rintro ⟨h1, h2⟩
    exact hk ⟨h1.trans hl.1.symm, h2.trans hl.2.symm⟩
  intro k hk
  apply key
  rcases List.mem_append.mp hk with hk | hk
  · rw [sameLot_comm]
    exact hcross k hk l (List.mem_cons_self ..)
  · exact (List.pairwise_cons.mp hafter).1 k hk

/-! ### Where a lot is inserted (R2) -/

/-- An inserted lot stands between the lots before it and the lots after it. -/
theorem insertLot_split (p : Lot) (lots : List Lot) :
    ∃ before after, lots = before ++ after ∧ insertLot p lots = before ++ p :: after := by
  induction lots with
  | nil => exact ⟨[], [], rfl, rfl⟩
  | cons l rest ih =>
    unfold insertLot
    split
    · exact ⟨[], l :: rest, rfl, rfl⟩
    · obtain ⟨before, after, hr, hi⟩ := ih
      exact ⟨l :: before, after, by rw [hr]; rfl, by rw [hi]; rfl⟩

theorem insertLot_perm (p : Lot) (lots : List Lot) : (insertLot p lots).Perm (p :: lots) := by
  obtain ⟨before, after, h, hi⟩ := insertLot_split p lots
  rw [hi, h]
  exact List.perm_middle

/-- A lot of a new sponsor and day keeps the lot order where it is inserted. -/
theorem insertLot_ordered {p : Lot} {lots : List Lot} (h : LotsOrdered lots)
    (hp : ∀ l ∈ lots, sameLot p l = false) : LotsOrdered (insertLot p lots) := by
  induction lots with
  | nil => exact List.pairwise_singleton ..
  | cons l rest ih =>
    obtain ⟨hl, hrest⟩ := List.pairwise_cons.mp h
    unfold insertLot
    split
    · rename_i hb
      exact List.pairwise_cons.mpr ⟨fun k hk => (List.mem_cons.mp hk).elim (fun e => e ▸ hb)
        fun hk => lotBefore_trans hb (hl k hk), h⟩
    · rename_i hb
      refine List.pairwise_cons.mpr ⟨fun k hk => ?_, ih hrest fun k hk => hp k (List.mem_cons_of_mem _ hk)⟩
      rcases List.mem_cons.mp ((insertLot_perm p rest).mem_iff.mp hk) with rfl | hk
      · exact lotBefore_of_not (hp l (List.mem_cons_self ..)) hb
      · exact hl k hk

/-! ### A part joined to the lot of its sponsor and day (R4, step 1) -/

theorem joinLot_of_apart {p : Lot} {lots : List Lot} (h : ∀ l ∈ lots, sameLot p l = false) : joinLot p lots = lots := by
  unfold joinLot
  rw [List.map_congr_left (g := id) fun l hl => by rw [if_neg (by rw [h l hl]; simp)]; rfl, List.map_id]

/-- The one lot of the part's sponsor and day grows; the others stay. -/
theorem joinLot_split {p l : Lot} {before after : List Lot} (h : LotsApart (before ++ l :: after))
    (hl : sameLot p l = true) :
    joinLot p (before ++ l :: after) = before ++ { l with amount := l.amount + p.amount } :: after := by
  have hb : joinLot p before = before :=
    joinLot_of_apart fun k hk => h.around hl k (List.mem_append_left _ hk)
  have ha : joinLot p after = after :=
    joinLot_of_apart fun k hk => h.around hl k (List.mem_append_right _ hk)
  unfold joinLot at hb ha ⊢
  rw [List.map_append, hb, List.map_cons, ha, if_pos hl]

/-- Joining a part changes no lot's sponsor or day. -/
theorem joinLot_keys (p l : Lot) :
    sameLot l (if sameLot p l then { l with amount := l.amount + p.amount } else l) = true := by
  rw [sameLot_iff]
  split <;> exact ⟨rfl, rfl⟩

theorem joinLot_ordered {p : Lot} {lots : List Lot} (h : LotsOrdered lots) : LotsOrdered (joinLot p lots) :=
  List.pairwise_map.mpr (h.imp fun {a b} hab => by rw [lotBefore_congr (joinLot_keys p a) (joinLot_keys p b)]; exact hab)

/-! ### The sponsor's lot of the latest day (R4, step 3) -/

theorem latestLot_eq_none {s : Fin 8} {lots : List Lot} (h : latestLot s lots = none) : ∀ l ∈ lots, l.sponsor ≠ s := by
  induction lots with
  | nil => exact fun l hl => absurd hl (List.not_mem_nil)
  | cons x rest ih =>
    unfold latestLot at h
    cases hr : latestLot s rest with
    | some k =>
      rw [hr] at h
      dsimp only at h
      split at h <;> cases h
    | none =>
      rw [hr] at h
      dsimp only at h
      split at h
      · cases h
      · intro l hl
        rcases List.mem_cons.mp hl with rfl | hl
        · assumption
        · exact ih hr l hl

/-- The lot found is one of the sponsor's, and none of them has a later day. -/
theorem latestLot_some {s : Fin 8} {lots : List Lot} {l : Lot} (h : latestLot s lots = some l) :
    l ∈ lots ∧ l.sponsor = s ∧ ∀ k ∈ lots, k.sponsor = s → k.expiry ≤ l.expiry := by
  induction lots generalizing l with
  | nil => cases h
  | cons x rest ih =>
    unfold latestLot at h
    cases hr : latestLot s rest with
    | none =>
      rw [hr] at h
      dsimp only at h
      split at h
      · cases h
        rename_i hx
        refine ⟨List.mem_cons_self .., hx, fun k hk hks => ?_⟩
        rcases List.mem_cons.mp hk with rfl | hk
        · exact Nat.le_refl _
        · exact absurd hks (latestLot_eq_none hr k hk)
      · cases h
    | some m =>
      obtain ⟨hm, hms, hmax⟩ := ih hr
      rw [hr] at h
      dsimp only at h
      split at h <;> cases h
      · rename_i hx
        refine ⟨List.mem_cons_self .., hx.1, fun k hk hks => ?_⟩
        rcases List.mem_cons.mp hk with rfl | hk
        · exact Nat.le_refl _
        · exact (hmax k hk hks).trans hx.2.le
      · rename_i hx
        refine ⟨List.mem_cons_of_mem _ hm, hms, fun k hk hks => ?_⟩
        rcases List.mem_cons.mp hk with rfl | hk
        · exact not_lt.mp fun hlt => hx ⟨hks, hlt⟩
        · exact hmax k hk hks

/-- Of lots apart, the lot found is the sponsor's one of that day, so any other of no earlier day is it. -/
theorem latestLot_eq {s : Fin 8} {lots : List Lot} {l : Lot} (h : LotsApart lots) (hl : l ∈ lots) (hs : l.sponsor = s)
    (hmax : ∀ k ∈ lots, k.sponsor = s → k.expiry ≤ l.expiry) : latestLot s lots = some l := by
  cases hk : latestLot s lots with
  | none => exact absurd hs (latestLot_eq_none hk l hl)
  | some k =>
    obtain ⟨hmem, hks, hkmax⟩ := latestLot_some hk
    by_contra hne
    have hd : sameLot k l = true :=
      (sameLot_iff k l).mpr ⟨hs.trans hks.symm, Nat.le_antisymm (hkmax l hl hs) (hmax k hmem hks)⟩
    have hap := h.of_mem hmem hl (by rintro rfl; exact hne rfl)
    rw [hd] at hap
    cases hap

/-! ### The lot-merge rule (R4) -/

/-- The latest lot of a part's sponsor, grown by the part. -/
def Lot.grown (l p : Lot) : Lot := { l with amount := l.amount + p.amount, expiry := max l.expiry p.expiry }

/-- Step 1: the lot of the part's sponsor and day grows. -/
theorem mergeLot_same {lots : List Lot} {p : Lot} (h : lots.any (sameLot p) = true) :
    mergeLot lots p = some (joinLot p lots, 1) := by
  rw [mergeLot, if_pos h]

/-- Step 2: the part takes a free place. -/
theorem mergeLot_room {lots : List Lot} {p : Lot} (h : ∀ l ∈ lots, sameLot p l = false) (hr : lots.length < 4) :
    mergeLot lots p = some (insertLot p lots, 2) := by
  rw [mergeLot, if_neg (by simpa using h), if_pos (show _ < lotPlaces from hr)]

/-- Step 3: on a full list the sponsor's lot of the latest day grows, and moves to its place. -/
theorem mergeLot_latest {lots : List Lot} {p l : Lot} (h : ∀ l ∈ lots, sameLot p l = false) (hr : 4 ≤ lots.length)
    (hl : latestLot p.sponsor lots = some l) :
    mergeLot lots p = some (insertLot (l.grown p) (lots.erase l), 3) := by
  rw [mergeLot, if_neg (by simpa using h), if_neg (show ¬_ < lotPlaces from Nat.not_lt.mpr hr), hl]
  rfl

/-- Step 4: on a full list without the sponsor nothing is placed. -/
theorem mergeLot_full {lots : List Lot} {p : Lot} (h : ∀ l ∈ lots, sameLot p l = false) (hr : 4 ≤ lots.length)
    (hl : latestLot p.sponsor lots = none) : mergeLot lots p = none := by
  rw [mergeLot, if_neg (by simpa using h), if_neg (show ¬_ < lotPlaces from Nat.not_lt.mpr hr), hl]

/-- The four steps of the rule, of which one applies. -/
theorem mergeLot_cases (lots : List Lot) (p : Lot) :
    (lots.any (sameLot p) = true ∧ mergeLot lots p = some (joinLot p lots, 1)) ∨
    (∀ l ∈ lots, sameLot p l = false) ∧ ((lots.length < 4 ∧ mergeLot lots p = some (insertLot p lots, 2)) ∨
      (4 ≤ lots.length ∧ ∃ l, latestLot p.sponsor lots = some l ∧
        mergeLot lots p = some (insertLot (l.grown p) (lots.erase l), 3)) ∨
      (4 ≤ lots.length ∧ latestLot p.sponsor lots = none ∧ mergeLot lots p = none)) := by
  by_cases h : lots.any (sameLot p) = true
  · exact .inl ⟨h, mergeLot_same h⟩
  · have hs : ∀ l ∈ lots, sameLot p l = false := by simpa using h
    refine .inr ⟨hs, ?_⟩
    rcases Nat.lt_or_ge lots.length 4 with hr | hr
    · exact .inl ⟨hr, mergeLot_room hs hr⟩
    · cases hl : latestLot p.sponsor lots with
      | some l => exact .inr (.inl ⟨hr, l, rfl, mergeLot_latest hs hr hl⟩)
      | none => exact .inr (.inr ⟨hr, rfl, mergeLot_full hs hr hl⟩)

/-- The grown lot has a sponsor and day of its own among the other lots: the sponsor's other lots have earlier days. -/
theorem grown_apart {lots : List Lot} {p l : Lot} (ho : LotsOrdered lots) (hs : ∀ k ∈ lots, sameLot p k = false)
    (hl : latestLot p.sponsor lots = some l) : ∀ k ∈ lots.erase l, sameLot (l.grown p) k = false := by
  obtain ⟨hmem, hls, hmax⟩ := latestLot_some hl
  have hnd : lots.Nodup := ho.imp fun {a b} hab => by
    rintro rfl
    rw [lotBefore_iff] at hab
    omega
  intro k hk
  obtain ⟨hkl, hk⟩ := hnd.mem_erase_iff.mp hk
  rw [sameLot_eq_false_iff]
  rintro ⟨hks, hke⟩
  replace hks : k.sponsor = p.sponsor := hks.trans hls
  have hp := (sameLot_eq_false_iff p k).mp (hs k hk)
  have hd := (LotsOrdered.apart ho).of_mem hmem hk hkl.symm
  rw [sameLot_eq_false_iff] at hd
  replace hke : k.expiry = max l.expiry p.expiry := hke
  have := hmax k hk hks
  rcases Nat.le_total l.expiry p.expiry with h | h
  · exact hp ⟨hks, by omega⟩
  · exact hd ⟨hks.trans hls.symm, by omega⟩

/-- The rule keeps the lot order. -/
theorem mergeLot_ordered {lots lots' : List Lot} {p : Lot} {step : Nat} (h : LotsOrdered lots)
    (hm : mergeLot lots p = some (lots', step)) : LotsOrdered lots' := by
  rcases mergeLot_cases lots p with ⟨_, e⟩ | ⟨hs, ⟨_, e⟩ | ⟨_, l, hl, e⟩ | ⟨_, _, e⟩⟩ <;> rw [e] at hm <;> cases hm
  · exact joinLot_ordered h
  · exact insertLot_ordered h hs
  · exact insertLot_ordered (h.sublist List.erase_sublist) (grown_apart h hs hl)

/-- Settles O31, by the four steps of `mergeLot`. -/
theorem lotMergeFollowsItsSteps : Obligations.LotMergeFollowsItsSteps := by
  intro lots p (ho : LotsOrdered lots)
  refine ⟨?_, fun hs => ?_, fun _ _ => mergeLot_ordered ho⟩
  · rintro before l after rfl hsp hex
    have hl : sameLot p l = true := (sameLot_iff p l).mpr ⟨hsp, hex⟩
    rw [mergeLot_same (by simp [hl]), joinLot_split (LotsOrdered.apart ho) hl]
  replace hs : ∀ l ∈ lots, sameLot p l = false := fun l hl => (sameLot_eq_false_iff p l).mpr (hs l hl)
  refine ⟨fun hr => ?_, fun hr before l after e hsp hmax => ?_, fun hr hnone => ?_⟩
  · obtain ⟨before, after, hb, ha⟩ := insertLot_split p lots
    exact ⟨before, after, hb, by rw [mergeLot_room hs hr, ha]⟩
  · have hl := latestLot_eq (LotsOrdered.apart ho) (by rw [e]; simp) hsp hmax
    have he : lots.erase l = before ++ after := by
      have hnot : l ∉ before := fun hb => by
        have := (LotsOrdered.apart ho)
        rw [e] at this
        have := this.around ((sameLot_iff l l).mpr ⟨rfl, rfl⟩) l (List.mem_append_left _ hb)
        simp [sameLot] at this
      rw [e, List.erase_append_right _ hnot, List.erase_cons_head]
    obtain ⟨b', a', hb, ha⟩ := insertLot_split (l.grown p) (lots.erase l)
    refine ⟨b', a', he ▸ hb, ?_⟩
    rw [mergeLot_latest hs hr hl, ha]
    rfl
  · refine mergeLot_full hs hr ?_
    cases hl : latestLot p.sponsor lots with
    | none => rfl
    | some l => exact absurd (latestLot_some hl).2.1 (hnone l (latestLot_some hl).1)

end Sys2Proof.Machine
end

section
/-! What lots weigh: a quantity that adds up over lots and over the amounts of one sponsor, and what the rules for lists of
lots keep of it (R4, R5, R10, R15, R20). -/

namespace Sys2Proof.Machine

/-! ### Sums over lots -/

section
variable {M : Type} [AddCommMonoid M]

/-- The sum of a weight over lots; the weight adds up over the amounts of each sponsor. -/
def weigh (v : Fin 8 → ℕ →+ M) (lots : List Lot) : M := (lots.map fun l => v l.sponsor l.amount).sum

variable (v : Fin 8 → ℕ →+ M)

@[simp] theorem weigh_nil : weigh v [] = 0 := rfl

@[simp] theorem weigh_cons (l : Lot) (lots : List Lot) : weigh v (l :: lots) = v l.sponsor l.amount + weigh v lots := by
  simp [weigh]

@[simp] theorem weigh_append (a b : List Lot) : weigh v (a ++ b) = weigh v a + weigh v b := by
  simp [weigh]

theorem weigh_perm {a b : List Lot} (h : a.Perm b) : weigh v a = weigh v b := (h.map _).sum_eq

theorem weigh_insertLot (p : Lot) (lots : List Lot) :
    weigh v (insertLot p lots) = v p.sponsor p.amount + weigh v lots := by
  rw [weigh_perm v (insertLot_perm p lots), weigh_cons]

/-- A part joined to the one lot of its sponsor and day adds its weight. -/
theorem weigh_joinLot {p : Lot} {lots : List Lot} (h : LotsApart lots) (hp : lots.any (sameLot p) = true) :
    weigh v (joinLot p lots) = weigh v lots + v p.sponsor p.amount := by
  obtain ⟨l, hmem, hl⟩ := List.any_eq_true.mp hp
  obtain ⟨before, after, rfl⟩ := List.append_of_mem hmem
  rw [joinLot_split h hl]
  simp only [weigh_append, weigh_cons, map_add, ((sameLot_iff p l).mp hl).1]
  abel

/-- A part placed by the lot-merge rule adds its weight (R4). -/
theorem weigh_mergeLot {lots lots' : List Lot} {p : Lot} {step : Nat} (h : LotsApart lots)
    (hm : mergeLot lots p = some (lots', step)) : weigh v lots' = weigh v lots + v p.sponsor p.amount := by
  rcases mergeLot_cases lots p with ⟨hp, e⟩ | ⟨_, ⟨_, e⟩ | ⟨_, l, hl, e⟩ | ⟨_, _, e⟩⟩ <;> rw [e] at hm <;> cases hm
  · exact weigh_joinLot v h hp
  · rw [weigh_insertLot, add_comm]
  · obtain ⟨hmem, hls, _⟩ := latestLot_some hl
    rw [weigh_insertLot, weigh_perm v (List.perm_cons_erase hmem), weigh_cons, ← hls]
    simp only [Lot.grown, map_add]
    abel

/-- The parts that a placing wrote off. -/
def writtenParts (fates : List (Lot × PartFate)) : List Lot := (fates.filter fun f => f.2 = .writtenOff).map Prod.fst

@[simp] theorem writtenParts_nil : writtenParts [] = [] := rfl

@[simp] theorem writtenParts_written (p : Lot) (fates : List (Lot × PartFate)) :
    writtenParts ((p, .writtenOff) :: fates) = p :: writtenParts fates := by
  simp [writtenParts]

@[simp] theorem writtenParts_joined (p : Lot) (step : Nat) (fates : List (Lot × PartFate)) :
    writtenParts ((p, .joined step) :: fates) = writtenParts fates := by
  simp [writtenParts]

/-- Parts placed keep the lot order, and nothing is lost: what the lots gained and what was written off weigh what the
parts do (R5). -/
theorem placeParts_spec (today : Nat) {lots : List Lot} (parts : List Lot) (h : LotsOrdered lots) :
    LotsOrdered (placeParts today lots parts).1 ∧
      weigh v (placeParts today lots parts).1 + weigh v (writtenParts (placeParts today lots parts).2) =
        weigh v lots + weigh v parts := by
  induction parts generalizing lots with
  | nil => exact ⟨h, rfl⟩
  | cons p rest ih =>
    unfold placeParts
    split
    · obtain ⟨ho, hw⟩ := ih h
      refine ⟨ho, ?_⟩
      rw [writtenParts_written, weigh_cons, weigh_cons, add_left_comm, hw]
      abel
    · split
      · rename_i lots' step hm
        obtain ⟨ho, hw⟩ := ih (mergeLot_ordered h hm)
        refine ⟨ho, ?_⟩
        rw [writtenParts_joined, hw, weigh_mergeLot v (LotsOrdered.apart h) hm, weigh_cons]
        abel
      · obtain ⟨ho, hw⟩ := ih h
        refine ⟨ho, ?_⟩
        rw [writtenParts_written, weigh_cons, weigh_cons, add_left_comm, hw]
        abel

end

/-! ### Returned parts (R5, R15) -/

/-- Each part has one fate, in order. -/
theorem placeParts_fst (today : Nat) (lots parts : List Lot) : (placeParts today lots parts).2.map Prod.fst = parts := by
  induction parts generalizing lots with
  | nil => rfl
  | cons p rest ih =>
    unfold placeParts
    split
    · simp [ih]
    · split <;> simp [ih]

/-- A part past its day is written off. -/
theorem placeParts_expired (today : Nat) (lots parts : List Lot) :
    ∀ f ∈ (placeParts today lots parts).2, f.1.expiry < today → f.2 = .writtenOff := by
  induction parts generalizing lots with
  | nil => exact fun f hf => absurd hf List.not_mem_nil
  | cons p rest ih =>
    unfold placeParts
    split
    · rintro f (_ | ⟨_, hf⟩) he
      · rfl
      · exact ih _ f hf he
    · rename_i hp
      split <;> rintro f (_ | ⟨_, hf⟩) he
      · exact absurd he hp
      · exact ih _ f hf he
      · exact absurd he hp
      · exact ih _ f hf he

/-- One part placed. -/
theorem placeParts_one (today : Nat) (lots : List Lot) (p : Lot) :
    placeParts today lots [p] =
      if p.expiry < today then (lots, [(p, .writtenOff)])
      else
        match mergeLot lots p with
        | some (lots', step) => (lots', [(p, .joined step)])
        | none => (lots, [(p, .writtenOff)]) := rfl

/-- Settles O32: the parts are placed one after another (`placeParts_append`), and nothing is lost (`placeParts_spec`). -/
theorem returnedPartsJoinOrAreWrittenOff : Obligations.ReturnedPartsJoinOrAreWrittenOff := by
  intro today lots parts ho
  obtain ⟨hord, hsum⟩ := placeParts_spec (fun _ => AddMonoidHom.id ℕ) today parts ho
  refine ⟨rfl, fun p => ?_, placeParts_fst .., placeParts_expired today lots parts, hsum, hord⟩
  rw [placeParts_append, placeParts_one]
  split
  · rfl
  · cases mergeLot (placeParts today lots parts).1 p <;> rfl

end Sys2Proof.Machine
end

section
/-! The Drawdown Unit's split and the capture's division of a hold (R8 to R14, R83). -/

namespace Sys2Proof.Machine

/-! ### The bonus share (R9) -/

/-- An amount's share of the bonus, in proportion, leaves no more for the paid value than there is. -/
theorem sub_share_le {amount paid bonus : Nat} (h : amount ≤ paid + bonus) :
    amount - amount * bonus / (paid + bonus) ≤ paid := by
  rcases Nat.eq_zero_or_pos (paid + bonus) with h0 | h0
  · simp [show amount = 0 by omega]
  · have hle : amount - paid ≤ amount * bonus / (paid + bonus) := by
      rw [Nat.le_div_iff_mul_le h0]
      rcases Nat.le_total amount paid with ha | ha
      · simp [Nat.sub_eq_zero_of_le ha]
      · obtain ⟨x, rfl⟩ := Nat.exists_eq_add_of_le ha
        rw [Nat.add_sub_cancel_left]
        have hx : x * paid ≤ bonus * paid := Nat.mul_le_mul_right _ (by omega)
        calc x * (paid + bonus) = x * paid + x * bonus := Nat.mul_add ..
          _ ≤ bonus * paid + x * bonus := by omega
          _ = (paid + x) * bonus := by ring
    omega

/-- The bonus share of an amount that there is: within the amount and the bonus, the rest within the paid value. -/
theorem bonusShare_spec (order : DrawOrder) {amount paid bonus : Nat} (h : amount ≤ paid + bonus) :
    bonusShare order amount paid bonus ≤ amount ∧ bonusShare order amount paid bonus ≤ bonus ∧
      amount - bonusShare order amount paid bonus ≤ paid := by
  cases order with
  | bonusFirst =>
    simp only [bonusShare]
    omega
  | paidFirst =>
    simp only [bonusShare]
    omega
  | proRata =>
    refine ⟨?_, ?_, sub_share_le h⟩
    · exact Nat.div_le_of_le_mul (by rw [Nat.mul_comm]; exact Nat.mul_le_mul_right _ (Nat.le_add_left ..))
    · exact Nat.div_le_of_le_mul (Nat.mul_le_mul_right _ h)

/-- The share a selector gives, over what the selector reaches (R9). -/
theorem share_spec (purse : Purse) (order : DrawOrder) (today : Nat) (c : Card) {amount : Nat}
    (h : amount ≤ reachedPaid purse c + reachedBonus purse today c) :
    purse.share order amount (reachedPaid purse c) (reachedBonus purse today c) ≤ amount ∧
      purse.share order amount (reachedPaid purse c) (reachedBonus purse today c) ≤ reachedBonus purse today c ∧
      amount - purse.share order amount (reachedPaid purse c) (reachedBonus purse today c) ≤ reachedPaid purse c := by
  cases purse with
  | default => exact bonusShare_spec order h
  | paidOnly =>
    have hb : reachedBonus .paidOnly today c = 0 := by
      have hr : Purse.reachesLot .paidOnly today = fun _ => false := funext fun l => Bool.and_false _
      simp [reachedBonus, hr, sumLots]
    simp only [Purse.share]
    omega
  | bonusOnly =>
    simp only [Purse.share, reachedPaid, Purse.reachesPaid] at h ⊢
    simp only [Bool.false_eq_true, if_false] at h ⊢
    omega
  | sponsor s =>
    simp only [Purse.share, reachedPaid, Purse.reachesPaid] at h ⊢
    simp only [Bool.false_eq_true, if_false] at h ⊢
    omega

theorem reachedPaid_le (purse : Purse) (c : Card) : reachedPaid purse c ≤ c.paid := by
  unfold reachedPaid
  split <;> omega

/-! ### Value taken from lots in list order (R10) -/

/-- What a lot at a place of the list gives of a share: the smaller of its amount and what the reached lots before it left. -/
def givenBy (reach : Lot → Bool) (share : Nat) (lots : List Lot) (x : Lot × Nat) : Nat :=
  if reach x.1 = true then min x.1.amount (share - sumLots ((lots.take x.2).filter reach)) else 0

@[simp] theorem sumLots_nil : sumLots [] = 0 := rfl

@[simp] theorem sumLots_cons (l : Lot) (lots : List Lot) : sumLots (l :: lots) = l.amount + sumLots lots := by
  simp [sumLots]

@[simp] theorem sumLots_append (a b : List Lot) : sumLots (a ++ b) = sumLots a + sumLots b := by
  simp [sumLots]

theorem givenBy_head (reach : Lot → Bool) (share : Nat) (l : Lot) (rest : List Lot) :
    givenBy reach share (l :: rest) (l, 0) = if reach l = true then min l.amount share else 0 := by
  simp [givenBy]

/-- After the first lot the rest give of what it left. -/
theorem givenBy_succ (reach : Lot → Bool) (share : Nat) (l : Lot) (rest : List Lot) (x : Lot × Nat) :
    givenBy reach share (l :: rest) (x.1, x.2 + 1) =
      givenBy reach (share - givenBy reach share (l :: rest) (l, 0)) rest x := by
  rw [givenBy_head]
  unfold givenBy
  simp only [List.take_succ_cons, List.filter_cons]
  split
  · split
    · rw [sumLots_cons]
      omega
    · rfl
  · rfl

/-- A taking, one lot at a time: the first gives its part, the rest give of what it left. -/
theorem takeLots_cons (reach : Lot → Bool) (share : Nat) {l : Lot} (rest : List Lot) (hl : 1 ≤ l.amount) {g : Nat}
    (hg : g = givenBy reach share (l :: rest) (l, 0)) :
    takeLots reach share (l :: rest) =
      ((if 0 < g then some { l with amount := g } else none).toList ++ (takeLots reach (share - g) rest).1,
        (if g < l.amount then some { l with amount := l.amount - g } else none).toList ++
          (takeLots reach (share - g) rest).2) := by
  rw [givenBy_head] at hg
  rw [takeLots]
  by_cases hr : reach l = true
  · rw [if_pos hr] at hg
    by_cases hpos : 0 < min l.amount share
    · rw [if_pos (by simp [hr, hpos]), if_pos (by omega), ← hg]
      by_cases he : g = l.amount
      · simp [he]
      · simp [he, show g < l.amount by omega]
    · rw [if_neg (by simp [hpos])]
      simp [show g = 0 by omega, show 0 < l.amount from hl]
  · rw [if_neg hr] at hg
    simp [hr, hg, show 0 < l.amount from hl]

theorem filterMap_cons_toList {α β : Type} (f : α → Option β) (a : α) (l : List α) :
    (a :: l).filterMap f = (f a).toList ++ l.filterMap f := by
  rw [List.filterMap_cons]
  cases f a <;> rfl

/-- A list numbered from 0: the first element, then the rest numbered from 1. -/
theorem zipIdx_cons_zero {α : Type} (a : α) (l : List α) :
    (a :: l).zipIdx = (a, 0) :: l.zipIdx.map fun x => (x.1, x.2 + 1) := by
  rw [List.zipIdx_cons, List.zipIdx_succ]

/-- The parts and the lots left of a taking, lot by lot (R10). -/
theorem takeLots_eq (reach : Lot → Bool) (share : Nat) (lots : List Lot) (hl : ∀ l ∈ lots, 1 ≤ l.amount) :
    (takeLots reach share lots).1 = lots.zipIdx.filterMap (fun x =>
      if 0 < givenBy reach share lots x then some { x.1 with amount := givenBy reach share lots x } else none) ∧
    (takeLots reach share lots).2 = lots.zipIdx.filterMap (fun x =>
      if givenBy reach share lots x < x.1.amount then
        some { x.1 with amount := x.1.amount - givenBy reach share lots x }
      else none) := by
  induction lots generalizing share with
  | nil => exact ⟨rfl, rfl⟩
  | cons l rest ih =>
    obtain ⟨ih1, ih2⟩ := ih (share - givenBy reach share (l :: rest) (l, 0)) fun k hk => hl k (List.mem_cons_of_mem _ hk)
    rw [takeLots_cons reach share rest (hl l (List.mem_cons_self ..)) rfl, zipIdx_cons_zero, filterMap_cons_toList,
      filterMap_cons_toList, List.filterMap_map, List.filterMap_map, ih1, ih2]
    simp only [Function.comp_def, givenBy_succ, and_self]

/-- The parts of a taking sum up to the share, as far as the reached lots go. -/
theorem sumLots_takeLots (reach : Lot → Bool) (share : Nat) (lots : List Lot) :
    sumLots (takeLots reach share lots).1 = min share (sumLots (lots.filter reach)) := by
  induction lots generalizing share with
  | nil => simp [takeLots]
  | cons l rest ih =>
    rw [takeLots]
    split
    · rename_i h
      simp only [Bool.and_eq_true, decide_eq_true_eq] at h
      simp only [sumLots_cons, ih, List.filter_cons, h.1, if_true]
      omega
    · rename_i h
      simp only [Bool.and_eq_true, decide_eq_true_eq, not_and] at h
      simp only [ih, List.filter_cons]
      split
      · rename_i hr
        have := h hr
        rw [sumLots_cons]
        omega
      · rfl

/-- What is taken and what is left weigh what was there (R10). -/
theorem weigh_takeLots {M : Type} [AddCommMonoid M] (v : Fin 8 → ℕ →+ M) (reach : Lot → Bool) (share : Nat)
    (lots : List Lot) :
    weigh v (takeLots reach share lots).1 + weigh v (takeLots reach share lots).2 = weigh v lots := by
  induction lots generalizing share with
  | nil => simp [takeLots]
  | cons l rest ih =>
    rw [takeLots]
    split
    · dsimp only
      have hsplit : v l.sponsor l.amount =
          v l.sponsor (min l.amount share) + v l.sponsor (l.amount - min l.amount share) := by
        rw [← map_add]
        congr 1
        omega
      split
      · rename_i he
        rw [weigh_cons, weigh_cons, add_assoc, ih, he]
      · rw [weigh_cons, weigh_cons, weigh_cons, ← ih (share - min l.amount share), hsplit]
        dsimp only
        abel
    · rw [weigh_cons, weigh_cons, add_left_comm, ih]

/-- A lot's sponsor and expiry day. -/
def Lot.key (l : Lot) : Fin 8 × Nat := (l.sponsor, l.expiry)

/-- The parts, and the lots left, stand for lots of the list, each of its lot's sponsor and day, in the list's order. -/
theorem takeLots_keys (reach : Lot → Bool) (share : Nat) (lots : List Lot) :
    ((takeLots reach share lots).1.map Lot.key).Sublist (lots.map Lot.key) ∧
      ((takeLots reach share lots).2.map Lot.key).Sublist (lots.map Lot.key) := by
  induction lots generalizing share with
  | nil => exact ⟨.slnil, .slnil⟩
  | cons l rest ih =>
    rw [takeLots]
    split
    · obtain ⟨h1, h2⟩ := ih (share - min l.amount share)
      refine ⟨h1.cons_cons _, ?_⟩
      dsimp only
      split
      · exact h2.cons _
      · exact h2.cons_cons _
    · obtain ⟨h1, h2⟩ := ih share
      exact ⟨h1.cons _, h2.cons_cons _⟩

/-- The lot order of a list is one of sponsors and days. -/
theorem lotsOrdered_of_keys {a b : List Lot} (h : LotsOrdered a) (hk : (b.map Lot.key).Sublist (a.map Lot.key)) :
    LotsOrdered b := by
  have hkeys : ∀ lots, LotsOrdered lots ↔
      (lots.map Lot.key).Pairwise fun x y => x.2 < y.2 ∨ x.2 = y.2 ∧ x.1.val < y.1.val := by
    intro lots
    rw [List.pairwise_map]
    exact ⟨fun h => h.imp fun {a b} => (lotBefore_iff a b).mp, fun h => h.imp fun {a b} => (lotBefore_iff a b).mpr⟩
  exact (hkeys b).mpr (((hkeys a).mp h).sublist hk)

theorem takeLots_ordered (reach : Lot → Bool) (share : Nat) {lots : List Lot} (h : LotsOrdered lots) :
    LotsOrdered (takeLots reach share lots).1 ∧ LotsOrdered (takeLots reach share lots).2 :=
  ⟨lotsOrdered_of_keys h (takeLots_keys ..).1, lotsOrdered_of_keys h (takeLots_keys ..).2⟩

/-! ### The drawdown (R7 to R10) -/

theorem grantedAmount_le (asked available : Nat) (upTo : Bool) : grantedAmount asked available upTo ≤ available := by
  unfold grantedAmount
  split
  · assumption
  · split <;> omega

/-- The split of a drawdown that grants (R8 to R10). -/
theorem drawdown_eq_some {today : Nat} {c : Card} {asked : Nat} {purse : Purse} {order : DrawOrder} {upTo : Bool}
    {d : Split} (h : drawdown today c asked purse order upTo = some d) :
    ∃ share, share = purse.share order d.granted (reachedPaid purse c) (reachedBonus purse today c) ∧
      d.granted = grantedAmount asked (reachedPaid purse c + reachedBonus purse today c) upTo ∧ d.granted ≠ 0 ∧
      d.paid = d.granted - share ∧ share ≤ d.granted ∧ share ≤ reachedBonus purse today c ∧
      d.paid ≤ reachedPaid purse c ∧ sumLots d.parts = share ∧
      d.parts = (takeLots (purse.reachesLot today) share c.lots).1 ∧
      d.lotsLeft = (takeLots (purse.reachesLot today) share c.lots).2 := by
  unfold drawdown at h
  dsimp only at h
  split at h
  · cases h
  · rename_i hne
    cases h
    obtain ⟨h1, h2, h3⟩ := share_spec purse order today c (grantedAmount_le asked _ upTo)
    refine ⟨_, rfl, rfl, hne, rfl, h1, h2, h3, ?_, rfl, rfl⟩
    rw [sumLots_takeLots]
    exact Nat.min_eq_left h2

/-- A drawdown answers none exactly when nothing is granted (R8). -/
theorem drawdown_eq_none {today : Nat} {c : Card} {asked : Nat} {purse : Purse} {order : DrawOrder} {upTo : Bool} :
    drawdown today c asked purse order upTo = none ↔
      grantedAmount asked (reachedPaid purse c + reachedBonus purse today c) upTo = 0 := by
  unfold drawdown
  dsimp only
  split <;> simp_all

/-- A granted amount of at least 1 asked: the lesser of what is asked and what there is (R8). -/
theorem grantedAmount_of_ne {asked available : Nat} {upTo : Bool} (h : grantedAmount asked available upTo ≠ 0) :
    grantedAmount asked available upTo = min asked available := by
  unfold grantedAmount at h ⊢
  split at h
  · rw [if_pos ‹_›]
    omega
  · rw [if_neg ‹_›]
    split at h
    · rw [if_pos ‹_›]
      omega
    · exact absurd rfl h

theorem grantedAmount_eq_zero {asked available : Nat} {upTo : Bool} (h : 1 ≤ asked) :
    grantedAmount asked available upTo = 0 ↔ available = 0 ∨ upTo = false ∧ available < asked := by
  unfold grantedAmount
  cases upTo <;> split <;> simp <;> omega

/-- Settles O33, by the drawdown's split (`drawdown_eq_some`) and the taking lot by lot (`takeLots_eq`). -/
theorem drawdownGrantsAndSplits : Obligations.DrawdownGrantsAndSplits := by
  intro today c asked purse order upTo hasked hlots reach paid bonus
  have hreach : reach = purse.reachesLot today := by
    funext l
    cases purse <;> rfl
  have hpaid : paid = reachedPaid purse c := by cases purse <;> rfl
  have hbonus : bonus = reachedBonus purse today c := by
    show sumLots (c.lots.filter reach) = _
    rw [hreach]
    rfl
  clear_value bonus paid reach
  subst hreach hpaid hbonus
  refine ⟨by rw [drawdown_eq_none, grantedAmount_eq_zero hasked], ?_⟩
  intro d hd share' gives
  obtain ⟨share, hshare, hg, hne, hdp, hle, hbonus, hpaid, hsum, hparts, hleft⟩ := drawdown_eq_some hd
  have hs : share' = share := by
    rw [hshare]
    cases purse <;> rfl
  have hgives : gives = givenBy (purse.reachesLot today) share c.lots := by
    rw [← hs]
    rfl
  clear_value gives share'
  subst hgives hs
  obtain ⟨htaken, hkept⟩ := takeLots_eq (purse.reachesLot today) share' c.lots hlots
  exact ⟨hg.trans (grantedAmount_of_ne (hg ▸ hne)), hsum, by omega, hpaid, hbonus, hparts.trans htaken,
    hleft.trans hkept, rfl⟩

/-! ### The capture's parts (R13, R14) -/

/-- A part grown by the parts of another list of its sponsor and day. -/
def Lot.joined (extra : List Lot) (l : Lot) : Lot := { l with amount := l.amount + sumLots (extra.filter (sameLot l)) }

theorem joined_of_apart {extra : List Lot} {l : Lot} (h : ∀ q ∈ extra, sameLot l q = false) : l.joined extra = l := by
  have : extra.filter (sameLot l) = [] := List.filter_eq_nil_iff.mpr fun q hq => by simp [h q hq]
  simp [Lot.joined, this]

theorem sameLot_trans {a b c : Lot} (h : sameLot a b = true) : sameLot b c = sameLot a c := by
  rw [sameLot_iff] at h
  simp [sameLot, h]

/-- Joining a part keeps lots apart, and keeps which parts match a lot. -/
theorem joinLot_apart {p : Lot} {lots : List Lot} (h : LotsApart lots) : LotsApart (joinLot p lots) :=
  List.pairwise_map.mpr (h.imp fun {a b} hab => by
    rw [sameLot_trans (joinLot_keys p a), sameLot_comm, sameLot_trans (joinLot_keys p b), sameLot_comm]
    exact hab)

theorem any_joinLot (p q : Lot) (lots : List Lot) :
    (joinLot p lots).any (fun l => sameLot l q) = lots.any fun l => sameLot l q := by
  rw [joinLot, List.any_map]
  congr 1
  funext l
  exact sameLot_trans (joinLot_keys p l)

/-- Parts joined into parts apart, in closed form: each part grows by those of its sponsor and day, and the parts that match
none follow (R14). -/
theorem combineParts_eq {parts extra : List Lot} (hp : LotsApart parts) (he : LotsApart extra) :
    combineParts parts extra =
      parts.map (Lot.joined extra) ++ extra.filter fun q => !parts.any fun l => sameLot l q := by
  induction extra generalizing parts with
  | nil => simp [combineParts, show Lot.joined [] = id from rfl]
  | cons q rest ih =>
    obtain ⟨hq, hrest⟩ := List.pairwise_cons.mp he
    rw [combineParts, List.foldl_cons, ← combineParts]
    by_cases h : parts.any (sameLot q) = true
    · have hany : parts.any (fun l => sameLot l q) = true := by simpa only [sameLot_comm] using h
      rw [if_pos h, ih (joinLot_apart hp) hrest, List.filter_cons, hany]
      simp only [any_joinLot, Bool.not_true, Bool.false_eq_true, if_false]
      congr 1
      rw [joinLot, List.map_map]
      refine List.map_congr_left fun l _ => ?_
      by_cases hl : sameLot q l = true
      · have hkeys : sameLot { l with amount := l.amount + q.amount } = sameLot l :=
          funext fun k => sameLot_trans ((sameLot_iff ..).mpr ⟨rfl, rfl⟩)
        simp only [Function.comp_apply, hl, if_true, Lot.joined, hkeys, List.filter_cons, sameLot_comm l q, sumLots_cons]
        rw [Nat.add_assoc]
      · simp [hl, Lot.joined, sameLot_comm l q]
    · have hany : parts.any (fun l => sameLot l q) = false := by simpa only [sameLot_comm, Bool.not_eq_true] using h
      have hnot : ∀ l ∈ parts, sameLot l q = false := by simpa using hany
      have happ : LotsApart (parts ++ [q]) := List.pairwise_append.mpr
        ⟨hp, List.pairwise_singleton .., fun l hl k hk => List.mem_singleton.mp hk ▸ hnot l hl⟩
      have hparts : parts.map (Lot.joined (q :: rest)) = parts.map (Lot.joined rest) :=
        List.map_congr_left fun l hl => by simp [Lot.joined, hnot l hl]
      have hfilter : (rest.filter fun k => !(parts ++ [q]).any fun l => sameLot l k) =
          rest.filter fun k => !parts.any fun l => sameLot l k :=
        List.filter_congr fun k hk => by simp [hq k hk]
      rw [if_neg h, ih happ hrest, List.map_append, List.map_singleton, joined_of_apart hq, hfilter, hparts,
        List.filter_cons, hany]
      simp

/-- Combined parts weigh what the parts and the excess's parts do (R14). -/
theorem weigh_combineParts {M : Type} [AddCommMonoid M] (v : Fin 8 → ℕ →+ M) (parts extra : List Lot)
    (hp : LotsApart parts) : weigh v (combineParts parts extra) = weigh v parts + weigh v extra := by
  induction extra generalizing parts with
  | nil => simp [combineParts]
  | cons q rest ih =>
    rw [combineParts, List.foldl_cons, ← combineParts, weigh_cons, ← add_assoc]
    split
    · rename_i h
      rw [ih _ (joinLot_apart hp), weigh_joinLot v hp h]
    · rename_i h
      have hq : ∀ l ∈ parts, sameLot l q = false := by
        simpa only [sameLot_comm, Bool.not_eq_true, List.any_eq_false] using h
      rw [ih _ (List.pairwise_append.mpr
        ⟨hp, List.pairwise_singleton .., fun l hl k hk => List.mem_singleton.mp hk ▸ hq l hl⟩), weigh_append]
      simp

/-! ### The capture's plan (R12 to R14, R83) -/

theorem le_captureLimit (held tolerance : Nat) : held ≤ captureLimit held tolerance := by
  rw [captureLimit, Nat.le_div_iff_mul_le (by decide)]
  exact Nat.mul_le_mul_left _ (Nat.le_add_right ..)

/-- The plan of a capture within the limit of its hold. -/
theorem planCapture_within {today : Nat} {p : Product} {c : Card} {h : HoldRecord} {asked : Nat}
    (hle : asked ≤ h.total) :
    planCapture today p c h asked =
      ⟨(splitHold h asked p.order).paid, (splitHold h asked p.order).parts, c, (splitHold h asked p.order).paidLeft,
        (splitHold h asked p.order).partsLeft, 0, false⟩ := by
  have hlimit := le_captureLimit h.total p.tolerance
  simp only [planCapture]
  rw [Nat.min_eq_left (hle.trans hlimit), if_pos hle, decide_eq_false (Nat.not_lt.mpr (hle.trans hlimit))]

/-- The plan of a capture above the held total and within the limit takes the whole hold; nothing is drawn. -/
theorem planCapture_excess_none {today : Nat} {p : Product} {c : Card} {h : HoldRecord} {asked : Nat}
    (hlt : h.total < asked) (hle : asked ≤ captureLimit h.total p.tolerance)
    (hd : drawdown today c (asked - h.total) .default p.order true = none) :
    planCapture today p c h asked = ⟨h.paid, h.parts, c, 0, [], asked - h.total, false⟩ := by
  simp only [planCapture, Nat.min_eq_left hle, if_neg (Nat.not_le.mpr hlt), decide_eq_false (Nat.not_lt.mpr hle), hd]

/-- The plan of a capture above the held total and within the limit: the whole hold, and what is drawn of the excess. -/
theorem planCapture_excess_some {today : Nat} {p : Product} {c : Card} {h : HoldRecord} {asked : Nat} {d : Split}
    (hlt : h.total < asked) (hle : asked ≤ captureLimit h.total p.tolerance)
    (hd : drawdown today c (asked - h.total) .default p.order true = some d) :
    planCapture today p c h asked =
      ⟨h.paid + d.paid, combineParts h.parts d.parts, c.draw d, 0, [], asked - h.total - d.granted, false⟩ := by
  simp only [planCapture, Nat.min_eq_left hle, if_neg (Nat.not_le.mpr hlt), decide_eq_false (Nat.not_lt.mpr hle), hd]

/-- The plan of a capture above the limit is that for the limit, with CLAMPED (R12). -/
theorem planCapture_above {today : Nat} {p : Product} {c : Card} {h : HoldRecord} {asked : Nat}
    (hlt : captureLimit h.total p.tolerance < asked) :
    planCapture today p c h asked =
      { planCapture today p c h (captureLimit h.total p.tolerance) with clamped := true } := by
  simp only [planCapture]
  rw [Nat.min_eq_right hlt.le, Nat.min_self, decide_eq_true hlt]
  split
  · rfl
  · cases drawdown today c (captureLimit h.total p.tolerance - h.total) .default p.order true <;> rfl

/-- A hold divided at a capture within its total (R13). -/
theorem splitHold_spec (h : HoldRecord) {amount : Nat} (order : DrawOrder) (hle : amount ≤ h.total) :
    ∃ share, share = bonusShare order amount h.paid (sumLots h.parts) ∧ (splitHold h amount order).paid = amount - share ∧
      share ≤ amount ∧ (splitHold h amount order).paid ≤ h.paid ∧ sumLots (splitHold h amount order).parts = share ∧
      (splitHold h amount order).parts = (takeLots (fun _ => true) share h.parts).1 ∧
      (splitHold h amount order).partsLeft = (takeLots (fun _ => true) share h.parts).2 := by
  obtain ⟨h1, h2, h3⟩ := bonusShare_spec order hle
  refine ⟨_, rfl, rfl, h1, h3, ?_, rfl, rfl⟩
  show sumLots (takeLots (fun _ => true) _ h.parts).1 = _
  rw [sumLots_takeLots, List.filter_eq_self.mpr fun _ _ => rfl]
  exact Nat.min_eq_left h2

/-- Settles O39, by the three ranges of the amount asked. -/
theorem captureAmountFollowsTheLimit : Obligations.CaptureAmountFollowsTheLimit := by
  intro today p c h asked hapart hparts hlots hord htotal limit x bonus share' gives
  have hlimit : limit = captureLimit h.total p.tolerance := rfl
  refine ⟨le_captureLimit .., fun hle => ?_, fun hlt hle => ?_, fun hlt => planCapture_above hlt⟩
  · obtain ⟨share, hshare, hpaid, hsa, hph, hsum, htaken, hkept⟩ := splitHold_spec h p.order hle
    have hs : share' = share := by
      rw [hshare]
      rfl
    have hgives : gives = givenBy (fun _ => true) share h.parts := by
      funext y
      show min y.1.amount (share' - sumLots (h.parts.take y.2)) = _
      rw [hs, givenBy, if_pos rfl, List.filter_eq_self.mpr fun _ _ => rfl]
    have hx : x = _ := planCapture_within hle
    clear_value gives share' x
    subst hgives hs hx
    obtain ⟨hgiven, hleft⟩ := takeLots_eq (fun _ => true) share' h.parts hparts
    exact ⟨hpaid, hsum, hsa, hph, htaken.trans hgiven, rfl, hkept.trans hleft, rfl, rfl, rfl⟩
  · cases hd : drawdown today c (asked - h.total) .default p.order true with
    | none =>
      have hx : x = _ := planCapture_excess_none hlt (hlimit ▸ hle) hd
      clear_value x
      subst hx
      exact ⟨rfl, rfl, rfl, rfl, rfl, rfl, rfl⟩
    | some d =>
      have hx : x = _ := planCapture_excess_some hlt (hlimit ▸ hle) hd
      clear_value x
      subst hx
      obtain ⟨share, _, _, _, _, _, _, _, _, hdparts, _⟩ := drawdown_eq_some hd
      refine ⟨rfl, rfl, rfl, rfl, rfl, rfl, ?_⟩
      have hdord : LotsApart d.parts := by
        rw [hdparts]
        exact (takeLots_ordered _ _ hord).1.apart
      have hsame : ∀ l q : Lot, sameLot l q = decide (q.sponsor = l.sponsor ∧ q.expiry = l.expiry) := fun l q => by
        rw [Bool.eq_iff_iff, sameLot_iff, decide_eq_true_iff]
      refine (combineParts_eq hapart hdord).trans (congrArg₂ _ (List.map_congr_left fun l _ => ?_)
        (List.filter_congr fun q _ => ?_))
      · rw [Lot.joined, funext (hsame l)]
      · rw [Bool.eq_iff_iff]
        simp [hsame]

end Sys2Proof.Machine
end

section
/-! What each movement of value does to the fund totals (R21 to R25). -/

namespace Sys2Proof.Machine

/-- A sponsor's entry lowered by an amount. -/
theorem addFor_neg (v : Vector Total 8) (s : Fin 8) (x : Total) : addFor v s (-x) = v.set s.val (v[s.val] - x) := by
  rw [addFor, sub_eq_add_neg]

theorem Funds.writeOffLot_eq (f : Funds) (p : Lot) :
    f.writeOffLot p = { f with
      expired := f.expired.set p.sponsor.val (f.expired[p.sponsor.val] + money p.amount)
      liability := f.liability.set p.sponsor.val (f.liability[p.sponsor.val] - money p.amount) } := by
  rw [Funds.writeOffLot, addFor_neg]
  rfl

theorem Funds.spend_one (f : Funds) (n : Nat) (p : Lot) :
    f.spend n [p] = { f with
      paidLiability := f.paidLiability - money n
      liability := f.liability.set p.sponsor.val (f.liability[p.sponsor.val] - money p.amount)
      due := f.due + money n + money p.amount } := by
  simp only [Funds.spend, List.foldl_cons, List.foldl_nil, Funds.spendPart, addFor_neg]

/-- Settles O23: each movement by its definition, a lowered entry by `addFor_neg`. -/
theorem movementsChangeTheirTotals : Obligations.MovementsChangeTheirTotals := fun f n _ p _ =>
  ⟨rfl, rfl, rfl, rfl, f.writeOffLot_eq p, f.spend_one n p, rfl, rfl, rfl⟩

end Sys2Proof.Machine
end

section
/-! Properties of states that requests keep: the rules for a request's take, its refusals and the checks around its change,
said once for every property that the port's queues do not bear on. -/

namespace Sys2Proof.Machine

/-- A change keeps a property of states. -/
def Keeps (P : State → Prop) (change : Change) : Prop := ∀ s, P s → P (change s).1

/-- A property of states on which the port's queues, and the step credits that a take counts, have no bearing. -/
structure PortBlind (P : State → Prop) : Prop where
  take : ∀ {s t i}, s.take i = some t → P s → P t
  enter : ∀ {s} kind o f tag body, P s → P (State.enter s kind o f tag body)

variable {P : State → Prop}

theorem PortBlind.answerRequest (hP : PortBlind P) {i : Instr} {code tag : Nat} {change : Change}
    (hc : Keeps P change) {s u : State} (h : P s)
    (hu : Sys2Proof.Machine.answerRequest i code tag change s = .next u) : P u := by
  rcases answerRequest_cases i code tag change s with e | ⟨t, ht, e⟩ <;> rw [e] at hu <;> cases hu
  · exact h
  · exact hP.enter _ _ _ _ _ (hc _ (hP.take ht h))

theorem keeps_refuse (r : RefusalReason) : Keeps P (refuse r) := fun _ h => h

theorem Keeps.naming {change : Change} (hc : Keeps P change) (cards : List Nat) :
    Keeps P (Sys2Proof.Machine.naming cards change) := fun s h => by
  rw [(naming_frame cards change s).1]
  exact hc s h

/-- A request on a present card keeps what its change on that card keeps. -/
theorem keeps_withCard {number : Nat} {change : Slot → Card → Change}
    (hc : ∀ slot c s, s.memory.findCard number = some (slot, c) → P s → P (change slot c s).1) :
    Keeps P (withCard number change) := fun s h => by
  unfold withCard
  split
  · exact h
  · split
    · exact h
    · exact hc _ _ _ ‹_› h

theorem keeps_onIndex {limit index : Nat} {change : RecordMemory → RecordMemory × Reply}
    (hc : Keeps P (onMemory change)) : Keeps P (onIndex limit index change) := fun s h => by
  unfold onIndex
  split
  · exact h
  · split
    · exact h
    · exact hc _ h

/-- A request on a used merchant keeps what its change on that merchant keeps. -/
theorem keeps_onMerchant {id : Nat} {change : Nat → Merchant → RecordMemory → RecordMemory × Reply}
    (hc : ∀ i r s, s.memory.findMerchant id = some (i, r) → P s → P (onMemory (change i r) s).1) :
    Keeps P (onMerchant id change) := fun s h => by
  unfold onMerchant
  split
  · exact h
  · split
    · exact hc _ _ _ ‹_› h
    · exact h

/-- A handle resolves to a hold only of its own slot's record (R79). -/
theorem HoldSlot.resolve_found {x : HoldSlot} {generation : Nat} {h : HoldRecord}
    (hx : x.resolve generation = .found h) : x.record = some h := by
  unfold HoldSlot.resolve at hx
  split at hx
  · split at hx
    · cases hx
      assumption
    · split at hx
      · split at hx <;> cases hx
      · cases hx
  · split at hx
    · split at hx <;> cases hx
    · cases hx

/-- A request on a found hold, of its merchant, keeps what its change on that hold keeps. -/
theorem keeps_withHold {n generation merchant : Nat}
    {change : RecordMemory → HoldRecord → Slot → Card → Nat → Merchant → RecordMemory × Reply}
    (hc : ∀ s x slot c i r, (s.memory.holdSlot n).record = some x → s.memory.findCard x.card = some (slot, c) →
      s.memory.findMerchant x.merchant = some (i, r) → P s →
      P (onMemory (fun m => change m x slot c i r) s).1) :
    Keeps P (withHold n generation merchant change) := fun s h => by
  unfold withHold
  split
  · exact h
  · split <;> exact h
  · rename_i x hx
    split
    · exact h
    · rename_i hm
      rw [not_not] at hm
      split
      · rename_i slot c i r hfc hfm
        exact hc s x slot c i r (HoldSlot.resolve_found hx) hfc (hm ▸ hfm) h
      · exact h
      · exact h

/-! ### Step 7 and the watch entries (R130) -/

/-- A property of states on which the watch entries and their armed-card lists have no bearing. -/
def WatchBlind (P : State → Prop) : Prop :=
  ∀ (s : State) i w l, P s → P (State.setArmedList { s with memory := s.memory.setWatchEntry i w } i l)

theorem foldl_keeps {α β : Type} {Q : β → Prop} {f : β → α → β} (hf : ∀ b a, Q b → Q (f b a)) (l : List α) (b : β)
    (h : Q b) : Q (l.foldl f b) := by
  induction l generalizing b with
  | nil => exact h
  | cons a l ih => exact ih _ (hf b a h)

theorem WatchBlind.watchAttempt (hw : WatchBlind P) (a : WatchedAttempt) {s : State} (h : P s) :
    P (s.watchAttempt a).1 :=
  foldl_keeps (Q := fun acc : State × List (Nat × WatchAction) => P acc.1) (fun acc i hacc => hw acc.1 i _ _ hacc) _ _ h

theorem WatchBlind.disarm (hw : WatchBlind P) (card i : Nat) {s : State} (h : P s) : P (s.disarm card i) := hw s i _ _ h

theorem WatchBlind.disarmAll (hw : WatchBlind P) (card : Nat) {s : State} (h : P s) : P (s.disarmAll card) :=
  foldl_keeps (fun b i hb => by
    split
    · exact hw.disarm card i hb
    · exact hb) _ _ h

theorem WatchBlind.judge (hw : WatchBlind P) (c : Card) (r : Merchant) (amount : Nat) {s : State} (h : P s) :
    P (judge s c r amount).state := by
  unfold Sys2Proof.Machine.judge
  split
  · unfold endedEarly
    split <;> exact h
  · split
    · exact h
    · dsimp only
      split
      · exact h
      · unfold judgeWatch
        dsimp only
        split
        · exact hw.watchAttempt _ h
        · split <;> exact hw.watchAttempt _ h

end Sys2Proof.Machine
end

section
/-! Every command keeps an invariant of Record Memory that the updates of single records and balanced movements of the fund
totals keep (`RecordMemory.Kept`), with a property of the update slots that holds when they are empty. -/

namespace Sys2Proof.Machine

variable {M : RecordMemory → Prop}

/-! ### Changes of Record Memory -/

section
variable (k : RecordMemory.Kept M) {m : RecordMemory}
include k

theorem RecordMemory.Kept.declineTouched (slot : Slot) (c : Card) (wrote : Bool) (reason : DeclineReason) (h : M m) :
    M (declineTouched m slot c wrote reason).1 := k.settle _ _ _ h

theorem RecordMemory.Kept.doneTouched (slot : Slot) (c : Card) (wrote : Bool) (h : M m) :
    M (doneTouched m slot c wrote).1 := k.settle _ _ _ h

theorem RecordMemory.Kept.flagCard (slot : Slot) (c : Card) (f : Card → Card) (h : M m) : M (flagCard m slot c f).1 :=
  k.doneTouched _ _ _ (k.touch _ h)

theorem RecordMemory.Kept.issueCard (slot : Slot) (number product paid : Nat) (bonus : Option (Fin 8 × Nat × Nat))
    (h : M m) : M (issueCard m slot number product paid bonus).1 :=
  k.funds _ ((Funds.imbalance_grants ..).trans (Funds.imbalance_takeIn ..)) (k.product _ _ (k.place _ _ h))

theorem RecordMemory.Kept.loadCard (slot : Slot) (c : Card) (amount : Nat) (h : M m) :
    M (loadCard m slot c amount).1 := by
  have ht := k.touch c h
  unfold Sys2Proof.Machine.loadCard
  dsimp only
  split
  · exact k.declineTouched _ _ _ _ ht
  · split
    · exact k.declineTouched _ _ _ _ ht
    · split
      · exact k.declineTouched _ _ _ _ ht
      · exact k.commit _ _ _ (k.funds _ (Funds.imbalance_takeIn ..) ht)

theorem RecordMemory.Kept.grantCard (slot : Slot) (c : Card) (sponsor : Fin 8) (life amount : Nat) (h : M m) :
    M (grantCard m slot c sponsor life amount).1 := by
  have ht := k.touch c h
  unfold Sys2Proof.Machine.grantCard
  dsimp only
  split
  · exact k.declineTouched _ _ _ _ ht
  · split
    · exact k.declineTouched _ _ _ _ ht
    · split
      · exact k.declineTouched _ _ _ _ ht
      · exact k.commit _ _ _ (k.funds _ (Funds.imbalance_grant ..) ht)

theorem RecordMemory.Kept.captureHold (n : Nat) (x : HoldRecord) (slot : Slot) (c : Card) (i : Nat) (r : Merchant)
    (asked : Nat) (h : M m) : M (captureHold m n x slot c i r asked).1 := by
  have ht := k.touch c h
  unfold Sys2Proof.Machine.captureHold
  dsimp only
  split
  · exact k.settle _ _ _ ht
  · exact k.commit _ _ _ (k.freeHold _ _ _ (k.payMerchant _ _ _ _ (k.returnValue _ _ _ ht)))

theorem RecordMemory.Kept.releaseHold (n : Nat) (x : HoldRecord) (slot : Slot) (c : Card) (h : M m) :
    M (releaseHold m n x slot c).1 := k.giveBack _ _ _ _ _ h

theorem RecordMemory.Kept.refundCard (slot : Slot) (c : Card) (i : Nat) (r : Merchant) (paid : Nat)
    (parts : List (Fin 8 × Nat)) (total : Nat) (h : M m) : M (refundCard m slot c i r paid parts total).1 := by
  have ht := k.touch c h
  unfold Sys2Proof.Machine.refundCard
  dsimp only
  split
  · exact k.declineTouched _ _ _ _ ht
  · split
    · exact k.declineTouched _ _ _ _ ht
    · split
      · exact k.declineTouched _ _ _ _ ht
      · split
        · exact k.declineTouched _ _ _ _ ht
        · split
          · exact k.declineTouched _ _ _ _ ht
          · exact k.commit _ _ _ (k.merchant _ _ (k.funds _
              ((Funds.imbalance_unspendParts ..).trans (Funds.imbalance_unspendPaid ..)) ht))

theorem RecordMemory.Kept.voidSpent (slot : Slot) (c : Card) (wrote : Bool) (v : Movement)
    (merchant atMerchant period : Nat) (h : M m) : M (voidSpent m slot c wrote v merchant atMerchant period).1 := by
  unfold Sys2Proof.Machine.voidSpent
  split
  · exact k.declineTouched _ _ _ _ h
  · split
    · exact k.declineTouched _ _ _ _ h
    · split
      · exact k.declineTouched _ _ _ _ h
      · exact k.commit _ _ _ (k.merchant _ _ (k.funds _
          ((Funds.imbalance_unspendParts ..).trans (Funds.imbalance_unspendPaid ..)) h))

theorem RecordMemory.Kept.voidCard (slot : Slot) (c : Card) (merchant stamp : Nat) (h : M m) :
    M (voidCard m slot c merchant stamp).1 := by
  have ht := k.touch c h
  unfold Sys2Proof.Machine.voidCard
  dsimp only
  split
  · exact k.declineTouched _ _ _ _ ht
  · split
    · exact k.declineTouched _ _ _ _ ht
    · split
      · exact k.commit _ _ _ (k.funds _ (Funds.imbalance_voidLoad ..) ht)
      · exact k.voidSpent _ _ _ _ _ _ _ ht
      · exact k.voidSpent _ _ _ _ _ _ _ ht

theorem RecordMemory.Kept.defineProductRecord (i : Nat) (p : Product) (h : M m) : M (defineProductRecord i p m).1 := by
  unfold Sys2Proof.Machine.defineProductRecord
  dsimp only
  split
  · exact k.product _ _ h
  · split
    · exact h
    · exact k.product _ _ h

theorem RecordMemory.Kept.withdrawProductRecord (i : Nat) (h : M m) : M (withdrawProductRecord i m).1 := by
  unfold Sys2Proof.Machine.withdrawProductRecord
  dsimp only
  split
  · exact k.product _ _ h
  · split
    · exact k.product _ _ h
    · exact h
  · exact h

theorem RecordMemory.Kept.reinstateProductRecord (i : Nat) (h : M m) : M (reinstateProductRecord i m).1 := by
  unfold Sys2Proof.Machine.reinstateProductRecord
  dsimp only
  split
  · exact k.product _ _ h
  · exact h
  · exact h

theorem RecordMemory.Kept.retireSponsorRecord (i : Nat) (h : M m) : M (retireSponsorRecord i m).1 := by
  unfold Sys2Proof.Machine.retireSponsorRecord
  split
  · exact k.sponsor _ _ h
  · exact h
  · exact h

theorem RecordMemory.Kept.defineMerchantRecord (id : Nat) (p : MerchantOperands) (h : M m) :
    M (defineMerchantRecord id p m).1 := by
  unfold Sys2Proof.Machine.defineMerchantRecord
  split
  · exact k.merchant _ _ h
  · split
    · exact h
    · exact k.merchant _ _ h

theorem RecordMemory.Kept.closeMerchantRecord (i : Nat) (r : Merchant) (h : M m) : M (closeMerchantRecord i r m).1 := by
  unfold Sys2Proof.Machine.closeMerchantRecord
  dsimp only
  split
  · exact h
  · split
    · exact h
    · exact k.merchant _ _ (k.funds _ ((Funds.imbalance_billAll ..).trans (Funds.imbalance_writeOffDue ..)) h)

theorem RecordMemory.Kept.noteChange (number : Nat) (h : M m) : M (noteChange m number) := k.mapCard _ _ h

end

/-! ### Changes of the state -/

/-- The invariant holds of Record Memory, and the property of the update slots. -/
def State.Upheld (M : RecordMemory → Prop) (N : UpdateSlots → Prop) (s : State) : Prop := M s.memory ∧ N s.slots

variable {N : UpdateSlots → Prop} {s : State}

theorem State.Upheld.withMemory {m : RecordMemory} (h : s.Upheld M N) (hm : M m) : (s.withMemory m).Upheld M N :=
  ⟨hm, h.2⟩

/-- A change made on Record Memory alone keeps the property when its result keeps the invariant. -/
theorem keeps_onMemory {change : RecordMemory → RecordMemory × Reply} (hc : ∀ m, M m → M (change m).1) :
    Keeps (State.Upheld M N) (onMemory change) := fun _ h => ⟨hc _ h.1, h.2⟩

section
variable (k : RecordMemory.Kept M)
include k

theorem RecordMemory.Kept.portBlind : PortBlind (State.Upheld M N) where
  take h hs := by
    obtain ⟨_, _, _, _, _, _, _, rfl⟩ := State.take_eq_some.mp h
    exact ⟨k.descriptors _ hs.1, hs.2⟩
  enter _ _ _ _ _ h := h

theorem RecordMemory.Kept.watchBlind : WatchBlind (State.Upheld M N) := fun _ _ _ _ h => ⟨k.watch _ _ h.1, h.2⟩

theorem RecordMemory.Kept.makeReferral {card tag : Nat} {kind : ReferralKind} {r : State × Referral}
    (hr : s.makeReferral card tag kind = some r) (h : s.Upheld M N) : r.1.Upheld M N := by
  unfold State.makeReferral at hr
  split at hr
  · cases hr
  · cases hr
    exact ⟨k.nextReferral _ h.1, h.2⟩

theorem RecordMemory.Kept.declineAttempt (slot : Slot) (c : Card) (wrote : Bool) (reason : DeclineReason)
    (method : Option Method) (mark freezer : Option Nat) (clamped : Bool) (h : s.Upheld M N) :
    (declineAttempt s slot c wrote reason method mark freezer clamped).1.Upheld M N :=
  h.withMemory (k.settle _ _ _ h.1)

theorem RecordMemory.Kept.referAttempt (slot : Slot) (c : Card) (wrote : Bool) (tag : Nat) (kind : ReferralKind)
    (method : Option Method) (mark : Option Nat) (h : s.Upheld M N) :
    (referAttempt s slot c wrote tag kind method mark).1.Upheld M N := by
  unfold Sys2Proof.Machine.referAttempt
  split
  · exact k.declineAttempt _ _ _ _ _ _ _ _ h
  · rename_i s' e he
    have hs : s'.Upheld M N := k.makeReferral he h
    exact hs.withMemory (k.settle _ _ _ hs.1)

theorem RecordMemory.Kept.finishRedeem (slot : Slot) (c : Card) (wrote : Bool) (i : Nat) (r : Merchant) (amount : Nat)
    (purse : Purse) (upTo : Bool) (method : Option Method) (mark : Option Nat) (h : s.Upheld M N) :
    (finishRedeem s slot c wrote i r amount purse upTo method mark).1.Upheld M N := by
  unfold Sys2Proof.Machine.finishRedeem
  split
  · exact k.declineAttempt _ _ _ _ _ _ _ _ h
  · exact h.withMemory (k.redeem _ _ _ _ _ _ _ ‹_› h.1)

theorem RecordMemory.Kept.finishHold (slot : Slot) (c : Card) (wrote : Bool) (i : Nat) (r : Merchant)
    (amount life : Nat) (purse : Purse) (upTo : Bool) (method : Option Method) (mark : Option Nat) (h : s.Upheld M N) :
    (finishHold s slot c wrote i r amount life purse upTo method mark).1.Upheld M N := by
  unfold Sys2Proof.Machine.finishHold
  dsimp only
  split
  · exact k.declineAttempt _ _ _ _ _ _ _ _ h
  · exact h.withMemory (k.commit _ _ _ (k.placeHold _ _ _ _ _ _ _ _ ‹_› h.1))

theorem RecordMemory.Kept.attemptDebit (tag : Nat) (slot : Slot) (c : Card) (i : Nat) (r : Merchant) (d : DebitOperands)
    (request : Attempted) (h : s.Upheld M N) : (attemptDebit s tag slot c i r d request).1.Upheld M N := by
  have hj := k.watchBlind.judge (s.memory.touch c).card r d.amount (h.withMemory (k.touch c h.1))
  unfold Sys2Proof.Machine.attemptDebit
  dsimp only
  split
  · exact k.declineAttempt _ _ _ _ _ _ _ _ hj
  · exact k.referAttempt _ _ _ _ _ _ _ hj
  · split
    · exact k.finishRedeem _ _ _ _ _ _ _ _ _ _ hj
    · exact k.finishHold _ _ _ _ _ _ _ _ _ _ _ hj

theorem RecordMemory.Kept.debitChange (tag card merchant : Nat) (d : Option DebitOperands) (request : Attempted) :
    Keeps (State.Upheld M N) (debitChange tag card merchant d request) := fun s h => by
  unfold Sys2Proof.Machine.debitChange
  split
  · exact h
  · split
    · exact h
    · split
      · exact h
      · split
        · exact h
        · split
          · exact h
          · exact k.attemptDebit _ _ _ _ _ _ _ h

theorem RecordMemory.Kept.approveDebit (slot : Slot) (c : Card) (terms : Terms) (request : Attempted)
    (h : s.Upheld M N) : (approveDebit s slot c terms request).1.Upheld M N := by
  have ht : (s.withMemory (s.memory.touch c).memory).Upheld M N := h.withMemory (k.touch c h.1)
  unfold Sys2Proof.Machine.approveDebit
  dsimp only
  split
  · split
    · exact k.finishRedeem _ _ _ _ _ _ _ _ _ _ ht
    · exact k.finishHold _ _ _ _ _ _ _ _ _ _ _ ht
  · unfold endedEarly
    split <;> exact k.declineAttempt _ _ _ _ _ _ _ _ ht

theorem RecordMemory.Kept.approveEntry (e : Referral) (slot : Slot) (c : Card) (h : s.Upheld M N) :
    (approveEntry s e slot c).1.Upheld M N := by
  have hd : (s.dropReferral e.number).Upheld M N := h
  unfold Sys2Proof.Machine.approveEntry
  dsimp only
  split
  · exact k.approveDebit _ _ _ _ hd
  · exact k.approveDebit _ _ _ _ hd
  · exact k.approveDebit _ _ _ _ hd
  · exact ⟨k.put _ _ h.1, h.2⟩

theorem RecordMemory.Kept.decideChange (number decision : Nat) :
    Keeps (State.Upheld M N) (decideChange number decision) := fun s h => by
  unfold Sys2Proof.Machine.decideChange
  split
  · exact h
  · split
    · exact h
    · split
      · exact h
      · split
        · split
          · exact h
          · split
            · split
              · exact k.approveEntry _ _ _ h
              · exact ⟨k.put _ _ h.1, h.2⟩
            · exact h
        · split <;> exact h

theorem RecordMemory.Kept.unlockChange (tag card : Nat) : Keeps (State.Upheld M N) (unlockChange tag card) := fun s h => by
  unfold Sys2Proof.Machine.unlockChange
  split
  · exact h
  · refine keeps_withCard (fun slot c s _ h => ?_) s h
    split
    · exact h
    · have ht : State.Upheld M N { s with memory := (s.memory.touch c).memory } := ⟨k.touch c h.1, h.2⟩
      unfold unlockCard
      dsimp only
      split
      · exact ⟨k.settle _ _ _ ht.1, h.2⟩
      · split
        · exact ⟨k.doneTouched _ _ _ ht.1, h.2⟩
        · split
          · exact ⟨k.doneTouched _ _ _ ht.1, h.2⟩
          · split
            · exact ⟨k.settle _ _ _ ht.1, h.2⟩
            · rename_i s' e he
              have hs : s'.Upheld M N := k.makeReferral he ht
              exact ⟨k.settle _ _ _ hs.1, hs.2⟩

theorem RecordMemory.Kept.closeCardChange (card : Nat) : Keeps (State.Upheld M N) (closeCardChange card) := fun s h => by
  unfold Sys2Proof.Machine.closeCardChange
  split
  · exact h
  · refine keeps_withCard (fun slot c s _ h => ?_) s h
    have ht := k.touch c h.1
    split
    · exact h
    · dsimp only
      split
      · exact ⟨k.settle _ _ _ ht, h.2⟩
      · unfold closeTouched
        dsimp only
        refine k.watchBlind.disarmAll _ ⟨k.remove _ _ (k.product _ _ (k.funds _ ?_ ht)), h.2⟩
        exact (Funds.imbalance_writeOffLots ..).trans (Funds.imbalance_cashOutPaid ..)

theorem RecordMemory.Kept.issueChange (card product sponsor life paid bonus : Nat) :
    Keeps (State.Upheld M N) (issueChange card product sponsor life paid bonus) := fun s h => by
  unfold Sys2Proof.Machine.issueChange
  repeat' split
  all_goals first
    | exact h
    | exact ⟨k.issueCard _ _ _ _ _ h.1, h.2⟩

/-! ### Split tender (R90 to R94) -/

theorem RecordMemory.Kept.record (run : TenderRun) (slot : Slot) (card : Card) (wrote : Bool) (result : MemberResult)
    (j : Judged) (drawn : Nat) (h : s.Upheld M N) : (run.record s slot card wrote result j drawn).state.Upheld M N :=
  h.withMemory (k.put _ _ h.1)

theorem RecordMemory.Kept.placeMember {c : Card} {i : Nat} {r : Merchant} {remainder : Nat} {purse : Purse} {d : Placed}
    (hd : placeMember s c i r remainder purse = .ok d) (h : s.Upheld M N) : M d.memory := by
  unfold Sys2Proof.Machine.placeMember at hd
  split at hd
  · split at hd
    · cases hd
    · split at hd <;> cases hd
  · exact k.placeHold _ _ _ _ _ _ _ _ hd h.1

theorem RecordMemory.Kept.member (merchant : Nat) (run : TenderRun) (p : Member) (h : run.state.Upheld M N) :
    (run.member merchant p).state.Upheld M N := by
  unfold TenderRun.member
  split
  · exact h
  · split
    · rename_i slot c i r _ _
      have hj := k.watchBlind.judge (run.state.memory.touch c).card r run.remainder (h.withMemory (k.touch c h.1))
      dsimp only
      split
      · exact k.record _ _ _ _ _ _ _ hj
      · exact k.record _ _ _ _ _ _ _ hj
      · split
        · exact k.record _ _ _ _ _ _ _ hj
        · exact k.record _ _ _ _ _ _ _ (hj.withMemory (k.placeMember ‹_› hj))
    · exact h

theorem RecordMemory.Kept.settleRun (run : TenderRun) (merchant amount : Nat) (acceptPartial : Bool)
    (h : run.state.Upheld M N) : (run.settle merchant amount acceptPartial).1.Upheld M N := by
  unfold TenderRun.settle
  dsimp only
  split
  · refine h.withMemory (foldl_keeps (fun m n => k.noteChange n) _ _ ?_)
    exact foldl_keeps (fun m d => k.captureMember _ _ _) _ _ h.1
  · refine h.withMemory (foldl_keeps (fun m n => k.noteChange n) _ _ ?_)
    refine foldl_keeps (Q := fun acc : RecordMemory × Bool => M acc.1) ?_ _ (run.state.memory, false) h.1
    exact fun acc d => k.releaseMember _ _

theorem RecordMemory.Kept.tenderChange (merchant amount settle count : Nat) (members : List MemberOperands) :
    Keeps (State.Upheld M N) (tenderChange merchant amount settle count members) := fun s h => by
  unfold Sys2Proof.Machine.tenderChange
  split
  · exact h
  · split
    · exact h
    · split
      · split
        · exact h
        · split
          · exact h
          · split
            · exact h
            · exact k.settleRun _ _ _ _ (foldl_keeps (Q := fun run : TenderRun => run.state.Upheld M N)
                (fun run p => k.member _ run p) _ _ h)
      · exact h

/-! ### Lapses and CLOSE-TRADING (R122, R123, R126, R191) -/

theorem RecordMemory.Kept.lapseEntry (e : Referral) (h : s.Upheld M N) : (s.lapseEntry e).Upheld M N := by
  refine ⟨?_, h.2⟩
  rw [State.lapseEntry_memory]
  split
  · exact k.mapCard _ _ h.1
  · exact h.1

theorem RecordMemory.Kept.placeLapseNotice (e : Referral) (h : s.Upheld M N) : (s.placeLapseNotice e).Upheld M N :=
  ⟨k.mapCard _ _ h.1, h.2⟩

theorem RecordMemory.Kept.offerLapse (e : Referral) (h : s.Upheld M N) : (s.offerLapse e).Upheld M N := by
  unfold State.offerLapse
  split
  · exact k.placeLapseNotice e h
  · exact h

theorem RecordMemory.Kept.serveLapse (h : s.Upheld M N) : s.serveLapse.Upheld M N := by
  unfold State.serveLapse
  split
  · split
    · split
      · exact k.placeLapseNotice _ h
      · exact h
    · exact h
  · exact h

theorem RecordMemory.Kept.closeTrading (tag : Nat) (h : s.Upheld M N) : (s.closeTrading tag).Upheld M N := by
  unfold State.closeTrading
  refine foldl_keeps (fun b e => k.offerLapse e) _ _ ?_
  exact k.portBlind.enter _ _ _ _ _ (foldl_keeps (fun b e => k.lapseEntry e) _ _ h)

/-! ### The payout engine and the day sweep (R158 to R181) -/

theorem RecordMemory.Kept.cutMerchant (i : Nat) (h : s.Upheld M N) : (s.cutMerchant i).Upheld M N :=
  ⟨k.descriptor _ _ (k.merchant _ _ (k.funds _ (Funds.imbalance_settleCut ..) h.1)), h.2⟩

theorem RecordMemory.Kept.setDescriptor (i : Nat) (d : Descriptor) (h : s.Upheld M N) :
    (s.setDescriptor i d).Upheld M N := ⟨k.descriptor _ _ h.1, h.2⟩

theorem RecordMemory.Kept.serveStep (i : Nat) (h : s.Upheld M N) : (s.serveStep i).Upheld M N := by
  unfold State.serveStep
  dsimp only
  split
  · exact k.setDescriptor _ _ h
  · split
    · exact k.cutMerchant _ h
    · exact k.setDescriptor _ _ h

theorem RecordMemory.Kept.serveDescriptor (h : s.Upheld M N) : s.serveDescriptor.Upheld M N := by
  unfold State.serveDescriptor
  split
  · split
    · split
      · exact k.serveStep _ h
      · exact h
    · exact h
  · exact h

theorem RecordMemory.Kept.takeTurn (i : Nat) (h : s.Upheld M N) : (s.takeTurn i).Upheld M N := by
  unfold State.takeTurn State.orWait
  dsimp only
  split
  · split <;> exact k.setDescriptor _ _ h
  · split
    · split
      · exact k.cutMerchant _ h
      · exact k.setDescriptor _ _ h
    · exact k.setDescriptor _ _ h

theorem RecordMemory.Kept.turn (h : s.Upheld M N) : s.turn.Upheld M N := by
  unfold State.turn
  split
  · exact h
  · split
    · exact k.takeTurn _ h
    · exact h

theorem RecordMemory.Kept.setSweep (u : SweepUnit) (h : s.Upheld M N) : (s.setSweep u).Upheld M N :=
  ⟨k.sweep _ h.1, h.2⟩

theorem RecordMemory.Kept.sweepOnce (h : s.Upheld M N) : s.sweepOnce.Upheld M N := by
  have he : State.Upheld M N { s with memory := s.memory.examine } := ⟨k.examine h.1, h.2⟩
  unfold State.sweepOnce
  split
  · dsimp only
    split
    · exact k.setSweep _ he
    · split <;> exact k.setSweep _ he
  · exact h

theorem RecordMemory.Kept.serveSweep (h : s.Upheld M N) : s.serveSweep.Upheld M N := by
  unfold State.serveSweep
  split
  · split
    · exact k.setSweep _ h
    · exact h
  · exact h

end

end Sys2Proof.Machine
end

section
/-! Every request keeps the property, and so does every step: the conservation law of the fund totals (R19, R193). -/

namespace Sys2Proof.Machine

variable {M : RecordMemory → Prop} {N : UpdateSlots → Prop} {s u : State}

section
variable (k : RecordMemory.Kept M)
include k

/-! ### The other requests -/

theorem RecordMemory.Kept.setClockChange (reading : Nat) : Keeps (State.Upheld M N) (setClockChange reading) :=
  fun s h => by
    unfold Sys2Proof.Machine.setClockChange
    split
    · exact h
    · exact ⟨k.clock _ h.1, h.2⟩

theorem RecordMemory.Kept.closeDayChange : Keeps (State.Upheld M N) closeDayChange := fun s h => by
  unfold Sys2Proof.Machine.closeDayChange
  split
  · exact h
  · split
    · exact h
    · split
      · exact h
      · exact ⟨k.sweep (SweepUnit.begin (s.memory.today + 1)) (k.today (s.memory.today + 1) h.1), h.2⟩

omit k in
theorem keeps_inquireClock {P : State → Prop} : Keeps P inquireClockChange := fun s h => by
  unfold inquireClockChange
  split <;> exact h

omit k in
theorem keeps_inquire {P : State → Prop} (card : Nat) : Keeps P (inquireChange card) := fun s h => by
  unfold inquireChange
  split
  · exact h
  · exact keeps_withCard (fun _ _ _ _ h => h) s h

omit k in
theorem keeps_inquireHold {P : State → Prop} (n generation : Nat) : Keeps P (inquireHoldChange n generation) :=
  fun s h => by
    unfold inquireHoldChange
    split
    · exact h
    · split
      · exact h
      · split <;> exact h

omit k in
theorem keeps_inquireReferral {P : State → Prop} (number : Nat) : Keeps P (inquireReferralChange number) := fun s h => by
  unfold inquireReferralChange
  split
  · exact h
  · split
    · exact h
    · split
      · exact h
      · split <;> exact h

omit k in
theorem keeps_inquireFunds {P : State → Prop} : Keeps P inquireFundsChange := fun s h => by
  unfold inquireFundsChange
  split <;> exact h

omit k in
theorem keeps_inquireMerchant {P : State → Prop} (form page index merchant : Nat) :
    Keeps P (inquireMerchantChange form page index merchant) := fun s h => by
  unfold inquireMerchantChange
  split
  · exact h
  · split
    · exact h
    · split
      · split <;> exact h
      · split <;> exact h
      · exact h

omit k in
theorem keeps_inquireWatch {P : State → Prop} (entry : Nat) : Keeps P (inquireWatchChange entry) := fun s h => by
  unfold inquireWatchChange
  split
  · exact h
  · split <;> exact h

omit k in
theorem keeps_inquirePayout {P : State → Prop} (i : Nat) : Keeps P (inquirePayoutChange i) := fun s h => by
  unfold inquirePayoutChange
  split
  · exact h
  · split <;> exact h

theorem RecordMemory.Kept.loadChange (card amount : Nat) : Keeps (State.Upheld M N) (loadChange card amount) :=
  fun s h => by
    unfold Sys2Proof.Machine.loadChange
    split
    · exact h
    · split
      · exact h
      · exact keeps_withCard (fun _ _ s _ h => ⟨k.loadCard _ _ _ h.1, h.2⟩) s h

theorem RecordMemory.Kept.grantBonusChange (card sponsor life amount : Nat) :
    Keeps (State.Upheld M N) (grantBonusChange card sponsor life amount) := fun s h => by
  unfold Sys2Proof.Machine.grantBonusChange
  split
  · exact h
  · split
    · exact h
    · split
      · exact h
      · split
        · exact h
        · split
          · exact h
          · exact keeps_withCard (fun _ _ s _ h => ⟨k.grantCard _ _ _ _ _ h.1, h.2⟩) s h

theorem RecordMemory.Kept.flagChange (card : Nat) (f : Card → Card) : Keeps (State.Upheld M N) (flagChange card f) :=
  fun s h => by
    unfold Sys2Proof.Machine.flagChange
    split
    · exact h
    · exact keeps_withCard (fun _ _ s _ h => ⟨k.flagCard _ _ _ h.1, h.2⟩) s h

theorem RecordMemory.Kept.captureChange (n generation merchant amount : Nat) :
    Keeps (State.Upheld M N) (captureChange n generation merchant amount) := fun s h => by
  unfold Sys2Proof.Machine.captureChange
  split
  · exact h
  · split
    · exact h
    · exact keeps_withHold (fun s x slot c i r _ _ _ h => ⟨k.captureHold _ _ _ _ _ _ _ h.1, h.2⟩) s h

theorem RecordMemory.Kept.releaseChange (n generation merchant : Nat) :
    Keeps (State.Upheld M N) (releaseChange n generation merchant) := fun s h => by
  unfold Sys2Proof.Machine.releaseChange
  split
  · exact h
  · split
    · exact h
    · exact keeps_withHold (fun s x slot c i r _ _ _ h => ⟨k.releaseHold _ _ _ _ h.1, h.2⟩) s h

theorem RecordMemory.Kept.refundChange (card merchant paid count : Nat) (parts : List PartOperands) :
    Keeps (State.Upheld M N) (refundChange card merchant paid count parts) := fun s h => by
  unfold Sys2Proof.Machine.refundChange
  split
  · exact h
  · split
    · exact h
    · split
      · exact h
      · split
        · exact h
        · exact keeps_withCard (fun _ _ s _ h => ⟨k.refundCard _ _ _ _ _ _ _ h.1, h.2⟩) s h

theorem RecordMemory.Kept.voidLastChange (card merchant stamp : Nat) :
    Keeps (State.Upheld M N) (voidLastChange card merchant stamp) := fun s h => by
  unfold Sys2Proof.Machine.voidLastChange
  split
  · exact h
  · split
    · exact h
    · exact keeps_withCard (fun _ _ s _ h => ⟨k.voidCard _ _ _ _ h.1, h.2⟩) s h

theorem RecordMemory.Kept.setReferralTimeChange (seconds : Nat) :
    Keeps (State.Upheld M N) (setReferralTimeChange seconds) := fun s h => by
  unfold Sys2Proof.Machine.setReferralTimeChange
  split
  · exact h
  · split
    · exact h
    · exact h.withMemory (k.referralTime _ h.1)

theorem RecordMemory.Kept.defineProductChange (i : Nat) (fields : ProductOperands) :
    Keeps (State.Upheld M N) (defineProductChange i fields) := fun s h => by
  unfold Sys2Proof.Machine.defineProductChange
  split
  · exact h
  · split
    · split
      · exact ⟨k.defineProductRecord _ _ h.1, h.2⟩
      · exact h
    · exact h

theorem RecordMemory.Kept.defineMerchantChange (id : Nat) (p : MerchantOperands) :
    Keeps (State.Upheld M N) (defineMerchantChange id p) := fun s h => by
  unfold Sys2Proof.Machine.defineMerchantChange
  split
  · exact h
  · split
    · exact h
    · exact ⟨k.defineMerchantRecord _ _ h.1, h.2⟩

theorem RecordMemory.Kept.setStanding (id : Nat) (st : MerchantState) :
    Keeps (State.Upheld M N) (onMerchant id (setStanding st)) :=
  keeps_onMerchant fun _ _ _ _ h => ⟨k.merchant _ _ h.1, h.2⟩

theorem RecordMemory.Kept.closeMerchant (id : Nat) : 
    Keeps (State.Upheld M N) (onMerchant id Sys2Proof.Machine.closeMerchantRecord) :=
  keeps_onMerchant fun _ _ _ _ h => ⟨k.closeMerchantRecord _ _ h.1, h.2⟩

theorem RecordMemory.Kept.defineTierChange (i : Nat) (fields : Option Tier) :
    Keeps (State.Upheld M N) (defineTierChange i fields) := fun s h => by
  unfold Sys2Proof.Machine.defineTierChange
  split
  · exact h
  · split
    · split
      · exact ⟨k.tier _ _ h.1, h.2⟩
      · exact h
    · exact h

theorem RecordMemory.Kept.defineWatchChange (i : Nat) (fields : WatchOperands) :
    Keeps (State.Upheld M N) (defineWatchChange i fields) := fun s h => by
  unfold Sys2Proof.Machine.defineWatchChange
  split
  · exact h
  · split
    · split
      · exact k.watchBlind s _ _ _ h
      · exact h
    · exact h

theorem RecordMemory.Kept.rearmWatchChange (i : Nat) : Keeps (State.Upheld M N) (rearmWatchChange i) := fun s h => by
  unfold Sys2Proof.Machine.rearmWatchChange
  split
  · exact h
  · split
    · exact h
    · dsimp only
      split
      · exact h
      · exact k.watchBlind s _ _ _ h
      · exact h
      · exact h

theorem RecordMemory.Kept.startPayoutChange (i mode ratio first last label : Nat) :
    Keeps (State.Upheld M N) (startPayoutChange i mode ratio first last label) := fun s h => by
  unfold Sys2Proof.Machine.startPayoutChange
  split
  · exact h
  · split
    · exact h
    · split
      · exact h
      · split
        · exact h
        · exact h
        · exact h
        · exact k.setDescriptor _ _ h
        · exact k.setDescriptor _ _ h

theorem RecordMemory.Kept.stopRun (i : Nat) (ends : Bool) (h : s.Upheld M N) : (s.stopRun i ends).1.Upheld M N := by
  unfold State.stopRun
  dsimp only
  split <;> exact ⟨k.descriptor _ _ h.1, h.2⟩

theorem RecordMemory.Kept.stopPayoutChange (i form : Nat) : Keeps (State.Upheld M N) (stopPayoutChange i form) :=
  fun s h => by
    unfold Sys2Proof.Machine.stopPayoutChange
    split
    · exact h
    · split
      · exact h
      · split
        · exact h
        · split
          · exact h
          · exact h
          · exact k.stopRun _ _ h
          · exact k.stopRun _ _ h
          · exact k.stopRun _ _ h

theorem RecordMemory.Kept.resumePayoutChange (i : Nat) : Keeps (State.Upheld M N) (resumePayoutChange i) := fun s h => by
  unfold Sys2Proof.Machine.resumePayoutChange
  split
  · exact h
  · split
    · exact h
    · dsimp only
      split
      · exact k.setDescriptor _ _ h
      · exact h
      · exact h
      · exact h
      · exact h

omit k in
theorem keeps_openTrading : Keeps (State.Upheld M N) openTradingChange := fun s h => by
  unfold openTradingChange
  split <;> exact h

/-! ### Every request -/

/-- Every request keeps an invariant that the memory FORMAT writes meets too. -/
theorem RecordMemory.Kept.runRequest (hb : ∀ a b c d, M (RecordMemory.blank a b c d)) (hN : N UpdateSlots.empty)
    (i : Instr) (h : s.Upheld M N) (hu : runRequest i s = .next u) : u.Upheld M N := by
  have ans : ∀ {i code tag change}, Keeps (State.Upheld M N) change →
      answerRequest i code tag change s = .next u → u.Upheld M N :=
    fun hc hu => k.portBlind.answerRequest hc h hu
  have idx : ∀ {limit index} {change : RecordMemory → RecordMemory × Reply}, (∀ m, M m → M (change m).1) →
      Keeps (State.Upheld M N) (onIndex limit index change) := fun hc => keeps_onIndex (keeps_onMemory hc)
  cases i with
  | badCode code length tag => exact ans (keeps_refuse _) hu
  | format tag day reading =>
    refine ans (fun s h => ?_) hu
    unfold formatChange
    split
    · exact h
    · exact ⟨hb .., hN⟩
  | setClock tag reading => exact ans (k.setClockChange _) hu
  | openTrading tag => exact ans keeps_openTrading hu
  | closeTrading tag =>
    replace hu : execCloseTrading tag s = .next u := hu
    unfold execCloseTrading at hu
    split at hu
    · cases hu
      exact h
    · have ht := k.portBlind.take ‹_› h
      split at hu <;> cases hu
      · exact k.closeTrading _ ht
      · exact k.portBlind.enter _ _ _ _ _ ht
  | closeDay tag => exact ans k.closeDayChange hu
  | inquireClock tag => exact ans keeps_inquireClock hu
  | issue tag card product sponsor life paid bonus => exact ans ((k.issueChange _ _ _ _ _ _).naming _) hu
  | load tag card amount => exact ans ((k.loadChange _ _).naming _) hu
  | grantBonus tag card sponsor life amount => exact ans ((k.grantBonusChange _ _ _ _).naming _) hu
  | inquire tag card => exact ans ((keeps_inquire _).naming _) hu
  | freeze tag card => exact ans ((k.flagChange _ _).naming _) hu
  | thaw tag card => exact ans ((k.flagChange _ _).naming _) hu
  | lock tag card => exact ans ((k.flagChange _ _).naming _) hu
  | unlock tag card => exact ans ((k.unlockChange _ _).naming _) hu
  | closeCard tag card => exact ans ((k.closeCardChange _).naming _) hu
  | redeem tag card merchant amount selector sponsor allowPartial => exact ans ((k.debitChange _ _ _ _ _).naming _) hu
  | hold tag card merchant amount selector sponsor allowPartial life => exact ans ((k.debitChange _ _ _ _ _).naming _) hu
  | capture tag slot generation merchant amount => exact ans (k.captureChange _ _ _ _) hu
  | release tag slot generation merchant => exact ans (k.releaseChange _ _ _) hu
  | inquireHold tag slot generation => exact ans (keeps_inquireHold _ _) hu
  | tender tag merchant amount settle count members => exact ans ((k.tenderChange _ _ _ _ _).naming _) hu
  | refund tag card merchant paid count parts => exact ans ((k.refundChange _ _ _ _ _).naming _) hu
  | voidLast tag card merchant stamp => exact ans ((k.voidLastChange _ _ _).naming _) hu
  | decide tag number decision => exact ans (k.decideChange _ _) hu
  | setReferralTime tag seconds => exact ans (k.setReferralTimeChange _) hu
  | inquireReferral tag number => exact ans (keeps_inquireReferral _) hu
  | defineProduct tag product fields => exact ans (k.defineProductChange _ _) hu
  | withdrawProduct tag product => exact ans (idx fun _ => k.withdrawProductRecord _) hu
  | reinstateProduct tag product => exact ans (idx fun _ => k.reinstateProductRecord _) hu
  | inquireProduct tag product => exact ans (idx fun _ h => h) hu
  | defineSponsor tag sponsor => exact ans (idx fun _ => k.sponsor _ _) hu
  | retireSponsor tag sponsor => exact ans (idx fun _ => k.retireSponsorRecord _) hu
  | inquireSponsor tag sponsor => exact ans (idx fun _ h => h) hu
  | inquireFunds tag => exact ans keeps_inquireFunds hu
  | defineMerchant tag merchant category trust tier floor allowance period => exact ans (k.defineMerchantChange _ _) hu
  | suspendMerchant tag merchant =>
    exact ans (k.setStanding _ _) hu
  | reinstateMerchant tag merchant =>
    exact ans (k.setStanding _ _) hu
  | closeMerchant tag merchant =>
    exact ans (k.closeMerchant _) hu
  | inquireMerchant tag form page index merchant => exact ans (keeps_inquireMerchant _ _ _ _) hu
  | defineTier tag tier rate itemFee minFee maxFee => exact ans (k.defineTierChange _ _) hu
  | inquireTier tag tier => exact ans (idx fun _ h => h) hu
  | defineWatch tag entry fields => exact ans (k.defineWatchChange _ _) hu
  | rearmWatch tag entry => exact ans (k.rearmWatchChange _) hu
  | inquireWatch tag entry => exact ans (keeps_inquireWatch _) hu
  | startPayout tag descriptor mode ratio first last label => exact ans (k.startPayoutChange _ _ _ _ _ _) hu
  | stopPayout tag descriptor form => exact ans (k.stopPayoutChange _ _) hu
  | resumePayout tag descriptor => exact ans (k.resumePayoutChange _) hu
  | inquirePayout tag descriptor => exact ans (keeps_inquirePayout _) hu
  | _ =>
    cases hu
    exact h

/-! ### The changes of the other writers (R193) -/

theorem RecordMemory.Kept.payoutChange (w : PayoutWriter) (h : s.Upheld M N) : (s.payoutChange w).Upheld M N := by
  cases w with
  | turn => exact k.turn h
  | service => exact k.serveDescriptor h

theorem RecordMemory.Kept.sweepChange (h : s.Upheld M N) : s.sweepChange.Upheld M N := by
  unfold State.sweepChange
  split
  · exact k.serveSweep h
  · exact k.sweepOnce h

omit k in
/-- A step of a powered board keeps what its change keeps. -/
theorem whenPowered_keeps {P : State → Prop} {f : State → State} (hf : P s → P (f s)) (h : P s)
    (hu : whenPowered s f = .next u) : P u := by
  unfold whenPowered at hu
  split at hu <;> cases hu
  · exact hf h
  · exact h

theorem RecordMemory.Kept.execHoldExpiry (slot : Nat) (h : s.Upheld M N) (hu : execHoldExpiry slot s = .next u) :
    u.Upheld M N := by
  refine whenPowered_keeps (fun h => ?_) h hu
  split
  · exact h
  · split
    · exact ⟨k.expireHold _ _ h.1, h.2⟩
    · exact h

theorem RecordMemory.Kept.execLapse (number : Nat) (h : s.Upheld M N) (hu : execLapse number s = .next u) :
    u.Upheld M N := by
  refine whenPowered_keeps (fun h => ?_) h hu
  split
  · exact h
  · split
    · exact k.offerLapse _ (k.lapseEntry _ h)
    · exact h

omit k in
theorem outcomeState_keeps {P : State → Prop} {o : Host.Outcome State Fault Refusal} (h : P s)
    (ho : ∀ u, o = .next u → P u) : P (outcomeState s o) := by
  cases o with
  | next u => exact ho u rfl
  | fault _ => exact h
  | refused _ => exact h

theorem RecordMemory.Kept.expiryChange (w : ExpiryWriter) (h : s.Upheld M N) : (s.expiryChange w).Upheld M N := by
  cases w with
  | hold slot => exact outcomeState_keeps h fun u => k.execHoldExpiry slot h
  | lapse number => exact outcomeState_keeps h fun u => k.execLapse number h
  | notice => exact k.serveLapse h

theorem RecordMemory.Kept.nextRequest (hb : ∀ a b c d, M (RecordMemory.blank a b c d)) (hN : N UpdateSlots.empty)
    (h : s.Upheld M N) : s.nextRequest.Upheld M N := by
  unfold State.nextRequest
  split
  · exact h
  · exact outcomeState_keeps h fun u => k.runRequest hb hN _ h

end

/-! ### Stops, recovery, and the conservation law (R19, R193, R194) -/

/-- Records rolled forward leave the fund totals as they are. -/
@[simp] theorem RecordMemory.applyAll_funds (m : RecordMemory) (writes : List RecordWrite) :
    (m.applyAll writes).funds = m.funds := by
  induction writes generalizing m with
  | nil => rfl
  | cons w rest ih =>
    rw [RecordMemory.applyAll, List.foldl_cons, ← RecordMemory.applyAll, ih]
    cases w <;> rfl

theorem Funds.balanced_add {a b : Funds} (ha : a.balanced) (hb : b.balanced) : (a.add b).balanced := by
  rw [Funds.balanced, Funds.imbalance_add, ha, hb, add_zero]

theorem Funds.balanced_sub {a b : Funds} (ha : a.balanced) (hb : b.balanced) : (a.sub b).balanced := by
  rw [Funds.balanced, Funds.imbalance_sub, ha, hb, sub_zero]

theorem RecordMemory.balanced_rollSlot {m : RecordMemory} (h : m.funds.balanced) {x : UpdateSlot} (hx : x.balanced) :
    (m.rollSlot x).funds.balanced := by
  unfold RecordMemory.rollSlot
  split
  · dsimp only
    split
    · rwa [RecordMemory.applyAll_funds]
    · rw [RecordMemory.applyAll_funds]
      exact Funds.balanced_add h hx
  · exact h

/-- Every slot's amounts balance. -/
def UpdateSlots.balanced (x : UpdateSlots) : Prop :=
  x.request.balanced ∧ x.payout.balanced ∧ x.sweep.balanced ∧ x.expiry.balanced

theorem UpdateSlots.balanced_empty : UpdateSlots.empty.balanced := ⟨trivial, trivial, trivial, trivial⟩

theorem RecordMemory.balanced_rollForward {m : RecordMemory} (h : m.funds.balanced) {x : UpdateSlots} (hx : x.balanced) :
    (m.rollForward x).funds.balanced := by
  obtain ⟨h1, h2, h3, h4⟩ := hx
  exact balanced_rollSlot (balanced_rollSlot (balanced_rollSlot (balanced_rollSlot h h1) h2) h3) h4

theorem State.conserves_recover (h : s.conserves) (ties : List Nat) : (s.recover ties).conserves :=
  ⟨RecordMemory.balanced_kept.expireDue _ _ (RecordMemory.balanced_rollForward h.1 h.2), UpdateSlots.balanced_empty⟩

theorem State.conserves_startCold (s : State) (reading : Nat) : (s.startCold reading).conserves :=
  ⟨Funds.imbalance_zero, UpdateSlots.balanced_empty⟩

/-- One writer stopped: the totals it leaves balance, and the amounts its slot still has to add. -/
theorem Stopped.balanced_writer {acc : Stopped} {before after : State} {stage : Stage} (ha : acc.memory.funds.balanced)
    (hb : before.memory.funds.balanced) (hu : after.memory.funds.balanced) :
    (acc.writer before after stage).1.memory.funds.balanced ∧ (acc.writer before after stage).2.balanced := by
  have hs := Funds.balanced_sub hu hb
  unfold Stopped.writer
  split
  · exact ⟨ha, trivial⟩
  · split
    · exact ⟨ha, trivial⟩
    · dsimp only
      split
      · exact ⟨ha, trivial⟩
      · split
        · exact ⟨ha, hs⟩
        · refine ⟨?_, hs⟩
          split
          · exact Funds.balanced_add (by rwa [RecordMemory.applyAll_funds]) hs
          · rwa [RecordMemory.applyAll_funds]

/-- A writer that may be in flight, whose change keeps the conservation law. -/
theorem Stopped.balanced_maybe {acc : Stopped} (work : Option ((State → State) × Stage)) (h : s.conserves)
    (hw : ∀ w ∈ work, ∀ t : State, t.conserves → (w.1 t).conserves) (ha : acc.memory.funds.balanced) :
    (acc.maybe s work).1.memory.funds.balanced ∧ (acc.maybe s work).2.balanced := by
  unfold Stopped.maybe
  split
  · exact ⟨ha, trivial⟩
  · rename_i change stage
    have hc : State.conserves { s with answers := acc.answers } := h
    exact Stopped.balanced_writer ha hc.1 (hw _ rfl _ hc).1

theorem State.conserves_writersCut (h : s.conserves) (request : Option ((State → State) × Stage))
    (hr : ∀ w ∈ request, ∀ t : State, t.conserves → (w.1 t).conserves) (cut : Interruption) :
    (s.writersCut request cut).conserves := by
  have k := RecordMemory.balanced_kept
  have a := Stopped.balanced_maybe (acc := ⟨s.memory, [], s.answers⟩) request h hr h.1
  have b := Stopped.balanced_maybe (cut.payout.map fun w => (fun t => t.payoutChange w.1, w.2)) h
    (fun w hw t ht => by
      obtain ⟨_, _, rfl⟩ := Option.map_eq_some_iff.mp hw
      exact k.payoutChange (N := UpdateSlots.balanced) _ ht) a.1
  have c := Stopped.balanced_maybe (cut.sweep.map fun stage => (State.sweepChange, stage)) h
    (fun w hw t ht => by
      obtain ⟨_, _, rfl⟩ := Option.map_eq_some_iff.mp hw
      exact k.sweepChange (N := UpdateSlots.balanced) ht) b.1
  have d := Stopped.balanced_maybe (cut.expiry.map fun w => (fun t => t.expiryChange w.1, w.2)) h
    (fun w hw t ht => by
      obtain ⟨_, _, rfl⟩ := Option.map_eq_some_iff.mp hw
      exact k.expiryChange (N := UpdateSlots.balanced) _ ht) c.1
  exact ⟨d.1, a.2, b.2, c.2, d.2⟩

theorem State.conserves_interrupted (h : s.conserves) (cut : Interruption) : (s.interrupted cut).conserves := by
  unfold State.interrupted
  split
  · have hc := State.conserves_writersCut h none (fun w hw => by cases hw) cut
    refine ⟨?_, hc.2⟩
    unfold State.formatCut
    dsimp only
    split <;> exact hc.1
  · refine State.conserves_writersCut h _ (fun w hw t ht => ?_) cut
    obtain ⟨_, _, rfl⟩ := Option.map_eq_some_iff.mp hw
    exact RecordMemory.balanced_kept.nextRequest (fun _ _ _ _ => Funds.imbalance_zero) UpdateSlots.balanced_empty ht

theorem State.conserves_resetEngine (h : s.conserves) (cut : Interruption) (ties : List Nat) :
    (s.resetEngine cut ties).conserves := by
  unfold State.resetEngine
  dsimp only
  split
  · exact State.conserves_recover (State.conserves_interrupted h cut) ties
  · exact State.conserves_startCold _ _

/-- Words of the port and the post area bear on neither totals nor slots. -/
theorem State.conserves_post (h : s.conserves) : s.post.conserves := by
  unfold State.post
  split <;> exact h

theorem State.conserves_releaseAnswer (h : s.conserves) : s.releaseAnswer.conserves := by
  unfold State.releaseAnswer
  split <;> exact h

theorem State.storePost_memory (offset : Nat) (bytes : List Byte) (s : State) :
    (s.storePost offset bytes).memory = s.memory ∧ (s.storePost offset bytes).slots = s.slots := by
  induction bytes generalizing offset s with
  | nil => exact ⟨rfl, rfl⟩
  | cons b rest ih => exact ih ..

theorem State.conserves_writeWindow (h : s.conserves) (offset value : Nat) : (s.writeWindow offset value).conserves := by
  unfold State.writeWindow
  split
  · exact h
  · split
    · unfold State.writeControl
      dsimp only
      split
      · exact State.conserves_resetEngine (s := s.setEnable _) h _ _
      · exact h
    · split
      · exact State.conserves_post h
      · split
        · exact State.conserves_releaseAnswer h
        · obtain ⟨hm, hs⟩ := State.storePost_memory offset (writeLE 4 value) s
          rw [State.conserves, hm, hs]
          exact h

/-- Every command keeps the conservation law (R19). -/
theorem State.conserves_exec (h : s.conserves) (i : Instr) (hu : exec i s = .next u) : u.conserves := by
  have k := RecordMemory.balanced_kept
  have req : runRequest i s = .next u → u.conserves :=
    k.runRequest (fun _ _ _ _ => Funds.imbalance_zero) UpdateSlots.balanced_empty i h
  have pow : ∀ {f : State → State}, whenPowered s f = .next u → (s.conserves → (f s).conserves) → u.conserves :=
    fun hu hf => whenPowered_keeps hf h hu
  cases i with
  | postWord value => exact pow hu State.conserves_post
  | overrunFlag bit =>
    simp only [exec, execOverrunFlag] at hu
    exact pow hu id
  | releaseWord value => exact pow hu State.conserves_releaseAnswer
  | interruptEnable bit =>
    simp only [exec, execInterruptEnable] at hu
    exact pow hu id
  | engineReset bit cut ties =>
    simp only [exec, execEngineReset] at hu
    refine pow hu fun h => ?_
    split
    · exact State.conserves_resetEngine h cut ties
    · exact h
  | windowWrite offset value =>
    replace hu : execWindowWrite offset value s = .next u := hu
    unfold execWindowWrite at hu
    split at hu
    · cases hu
    · exact pow hu (fun h => State.conserves_writeWindow h offset value)
  | powerOn ties =>
    cases hu
    split
    · exact State.conserves_recover h ties
    · exact State.conserves_startCold s 0
  | linkReset => exact pow hu id
  | clockTick =>
    cases hu
    split <;> exact h
  | holdExpiry slot => exact k.execHoldExpiry (N := UpdateSlots.balanced) slot h hu
  | lapse number => exact k.execLapse (N := UpdateSlots.balanced) number h hu
  | windowExpiry entry card =>
    simp only [exec, execWindowExpiry] at hu
    refine pow hu fun h => ?_
    split
    · exact (k.watchBlind (N := UpdateSlots.balanced)).disarm card entry h
    · exact h
  | turn => exact pow hu (k.turn (N := UpdateSlots.balanced))
  | descriptorService => exact pow hu (k.serveDescriptor (N := UpdateSlots.balanced))
  | lapseNotice => exact pow hu (k.serveLapse (N := UpdateSlots.balanced))
  | sweepStep => exact pow hu (k.sweepOnce (N := UpdateSlots.balanced))
  | sweepEnd => exact pow hu (k.serveSweep (N := UpdateSlots.balanced))
  | powerLoss batteryKept checkPasses cut =>
    simp only [exec, execPowerLoss] at hu
    exact pow hu (fun h => State.conserves_interrupted h cut)
  | _ => exact req hu

/-- Settles O55: a step idles, or runs the front command, which keeps the law. -/
theorem stepConservesTheFundTotals : Obligations.StepConservesTheFundTotals := by
  intro s u h hu
  unfold step at hu
  split at hu
  · cases hu
    exact h
  · rename_i rest _
    exact State.conserves_exec (s := { s with pending := rest }) h _ hu

end Sys2Proof.Machine
end

section
/-! Sums over the records of a sparse table: what an insertion, a removal and a write change, and the sum of a table that
joins the changes of two others. -/

namespace Sys2Proof.Machine

namespace Table

variable {α : Type} {G : Type} [AddCommGroup G]

/-- The sum of a quantity over a table's records. -/
def total (f : α → G) (t : Table α) : G := (t.map fun e => f e.2).sum

/-- A quantity of an entry that may not be listed. -/
def quantity (f : α → G) (o : Option α) : G := o.elim 0 f

@[simp] theorem quantity_none (f : α → G) : quantity f none = 0 := rfl

@[simp] theorem quantity_some (f : α → G) (v : α) : quantity f (some v) = f v := rfl

@[simp] theorem total_nil (f : α → G) : total f ([] : Table α) = 0 := rfl

@[simp] theorem total_cons (f : α → G) (e : Nat × α) (t : Table α) : total f (e :: t) = f e.2 + total f t := by
  simp [total]

theorem total_insert (f : α → G) {t : Table α} (h : t.rising = true) (k : Nat) (v : α) :
    total f (t.insert k v) = total f t - quantity f (t.find k) + f v := by
  induction t with
  | nil => simp [Table.insert, Table.find]
  | cons e t ih =>
    obtain ⟨j, w⟩ := e
    obtain ⟨ha, hr⟩ := (Table.rising_cons j w t).mp h
    simp only [Table.insert]
    split
    · rename_i hk
      have hn : Table.find ((j, w) :: t) k = none := by
        rw [Table.find, if_neg (by omega)]
        exact Table.find_of_above ha hk.le
      rw [hn]
      simp only [total_cons, quantity_none]
      abel
    · split
      · rename_i e
        simp only [total_cons, Table.find, e, if_true, quantity_some]
        abel
      · rename_i e
        simp only [total_cons, Table.find, if_neg (Ne.symm e), ih hr]
        abel

theorem total_erase (f : α → G) {t : Table α} (h : t.rising = true) (k : Nat) :
    total f (t.erase k) = total f t - quantity f (t.find k) := by
  induction t with
  | nil => simp [Table.erase, Table.find]
  | cons e t ih =>
    obtain ⟨j, w⟩ := e
    simp only [Table.erase, Table.find]
    split
    · simp
    · simp only [total_cons, ih ((Table.rising_cons j w t).mp h).2]
      abel

/-- A record written, where the unlisted record counts for nothing. -/
theorem total_set [DecidableEq α] {f : α → G} {d : α} (hd : f d = 0) {t : Table α} (h : t.rising = true) (k : Nat)
    (v : α) : total f (t.set d k v) = total f t - f (t.get d k) + f v := by
  have hget : f (t.get d k) = quantity f (t.find k) := by
    unfold Table.get
    cases t.find k with
    | none => exact hd
    | some w => rfl
  unfold Table.set
  rw [hget]
  split
  · rename_i e
    rw [total_erase f h, e, hd, add_zero]
  · exact total_insert f h k v

theorem total_map (f : α → G) (g : α → α) (t : Table α) :
    total f (t.map fun e => (e.1, g e.2)) = total (fun v => f (g v)) t := by
  simp [total, Function.comp_def]

/-! ### Tables by their entries -/

theorem mem_of_find {t : Table α} {k : Nat} {v : α} (h : t.find k = some v) : (k, v) ∈ t := by
  induction t with
  | nil => cases h
  | cons e t ih =>
    obtain ⟨j, w⟩ := e
    simp only [Table.find] at h
    split at h
    · rename_i e
      cases h
      exact e ▸ List.mem_cons_self ..
    · exact List.mem_cons_of_mem _ (ih h)

theorem find_of_mem {t : Table α} (h : t.rising = true) {k : Nat} {v : α} (hm : (k, v) ∈ t) : t.find k = some v := by
  induction t with
  | nil => cases hm
  | cons e t ih =>
    obtain ⟨j, w⟩ := e
    obtain ⟨ha, hr⟩ := (Table.rising_cons j w t).mp h
    rcases List.mem_cons.mp hm with e | hm
    · cases e
      rw [Table.find, if_pos rfl]
    · have hj : j < k := ha _ hm
      rw [Table.find, if_neg hj.ne]
      exact ih hr hm

/-- Tables with rising indexes and the same entries are equal. -/
theorem ext_find {a b : Table α} (ha : a.rising = true) (hb : b.rising = true) (h : ∀ k, a.find k = b.find k) :
    a = b := by
  induction a generalizing b with
  | nil =>
    cases b with
    | nil => rfl
    | cons e b =>
      have := h e.1
      simp [Table.find] at this
  | cons e a ih =>
    obtain ⟨j, v⟩ := e
    obtain ⟨haj, har⟩ := (Table.rising_cons j v a).mp ha
    cases b with
    | nil =>
      have := h j
      simp [Table.find] at this
    | cons e b =>
      obtain ⟨i, w⟩ := e
      obtain ⟨hbi, hbr⟩ := (Table.rising_cons i w b).mp hb
      have hji : j = i := by
        rcases Nat.lt_trichotomy j i with hlt | heq | hlt
        · have := h j
          rw [Table.find, if_pos rfl, Table.find, if_neg hlt.ne', Table.find_of_above hbi hlt.le] at this
          cases this
        · exact heq
        · have := h i
          rw [Table.find, if_neg hlt.ne', Table.find_of_above haj hlt.le, Table.find, if_pos rfl] at this
          cases this
      subst hji
      have hvw : v = w := by simpa [Table.find] using h j
      subst hvw
      congr 1
      refine ih har hbr fun k => ?_
      by_cases hk : j = k
      · subst hk
        rw [Table.find_of_above haj le_rfl, Table.find_of_above hbi le_rfl]
      · have := h k
        rwa [Table.find, if_neg hk, Table.find, if_neg hk] at this

/-- A listed entry written again leaves the table as it is. -/
theorem insert_find {t : Table α} (h : t.rising = true) {k : Nat} {v : α} (hf : t.find k = some v) :
    t.insert k v = t := by
  refine ext_find (Table.rising_insert k v h) h fun i => ?_
  by_cases hi : i = k
  · subst hi
    rw [Table.find_insert_same, hf]
  · exact Table.find_insert_other t v hi

/-- A table's sum, index by index. -/
theorem total_eq_sum (f : α → G) {t : Table α} (h : t.rising = true) {n : Nat} (hn : ∀ e ∈ t, e.1 < n) :
    total f t = ∑ k ∈ Finset.range n, quantity f (t.find k) := by
  induction t with
  | nil => simp [Table.find]
  | cons e t ih =>
    obtain ⟨j, v⟩ := e
    obtain ⟨ha, hr⟩ := (Table.rising_cons j v t).mp h
    have hj : j ∈ Finset.range n := Finset.mem_range.mpr (hn _ (List.mem_cons_self ..))
    rw [total_cons, ih hr fun e he => hn e (List.mem_cons_of_mem _ he), ← Finset.add_sum_erase _ _ hj,
      ← Finset.add_sum_erase _ (fun k => quantity f (Table.find ((j, v) :: t) k)) hj]
    rw [Table.find_of_above ha le_rfl, Table.find, if_pos rfl, quantity_none, quantity_some, zero_add]
    congr 1
    refine Finset.sum_congr rfl fun k hk => ?_
    rw [Table.find, if_neg (Finset.ne_of_mem_erase hk).symm]

/-- A table joins the changes that two others make to a first: at each index one of the two leaves the first's entry, and the
joined table has the other's. -/
def Joins (m a b c : Table α) : Prop :=
  ∀ k, (b.find k = m.find k ∧ c.find k = a.find k) ∨ (a.find k = m.find k ∧ c.find k = b.find k)

/-- Sums over a joined table: both changes count. -/
theorem Joins.total {m a b c : Table α} (j : Joins m a b c) (f : α → G) (hm : m.rising = true) (ha : a.rising = true)
    (hb : b.rising = true) (hc : c.rising = true) : total f c + total f m = total f a + total f b := by
  obtain ⟨n, hn⟩ : ∃ n, ∀ e ∈ m ++ a ++ b ++ c, e.1 < n := by
    refine ⟨((m ++ a ++ b ++ c).map Prod.fst).sum + 1, fun e he => ?_⟩
    exact Nat.lt_succ_of_le (List.le_sum_of_mem (List.mem_map_of_mem he))
  simp only [List.mem_append] at hn
  rw [total_eq_sum f hm fun e he => hn e (by simp [he]), total_eq_sum f ha fun e he => hn e (by simp [he]),
    total_eq_sum f hb fun e he => hn e (by simp [he]), total_eq_sum f hc fun e he => hn e (by simp [he]),
    ← Finset.sum_add_distrib, ← Finset.sum_add_distrib]
  refine Finset.sum_congr rfl fun k _ => ?_
  rcases j k with ⟨h1, h2⟩ | ⟨h1, h2⟩
  · rw [h1, h2]
  · rw [h1, h2, add_comm]

end Table

end Sys2Proof.Machine
end

section
/-! What value is worth in the fund totals: the paid liability and the bonus liability of each sponsor side by side, and what
each movement does to them and to due to merchants (R18, R20 to R25). -/

namespace Sys2Proof.Machine

/-- An amount of paid value and amounts of each sponsor's bonus, as the liability totals count them (R20). -/
abbrev Worth := Total × (Fin 8 → Total)

/-- An amount as it is added to a fund total. -/
def moneyHom : ℕ →+ Total where
  toFun := money
  map_zero' := rfl
  map_add' _ _ := BitVec.ofNat_add ..

@[simp] theorem money_zero : money 0 = 0 := rfl

theorem money_add (a b : Nat) : money (a + b) = money a + money b := BitVec.ofNat_add ..

theorem moneyInt_natCast (n : Nat) : moneyInt n = money n := by
  simp [moneyInt, money]

theorem moneyInt_neg (x : Int) : moneyInt (-x) = -moneyInt x := BitVec.ofInt_neg ..

theorem moneyInt_sub (x y : Int) : moneyInt (x - y) = moneyInt x - moneyInt y := by
  rw [sub_eq_add_neg, moneyInt_add, moneyInt_neg, sub_eq_add_neg]

/-- Paid value in the liability totals. -/
def paidWorth : ℕ →+ Worth := (AddMonoidHom.inl Total (Fin 8 → Total)).comp moneyHom

/-- A sponsor's bonus in the liability totals. -/
def bonusWorth (s : Fin 8) : ℕ →+ Worth :=
  ((AddMonoidHom.inr Total (Fin 8 → Total)).comp (AddMonoidHom.single (fun _ => Total) s)).comp moneyHom

theorem paidWorth_eq (n : Nat) : paidWorth n = (money n, 0) := rfl

theorem bonusWorth_eq (s : Fin 8) (n : Nat) : bonusWorth s n = (0, Pi.single s (money n)) := rfl

/-- What lots or parts are worth. -/
def lotsWorth (lots : List Lot) : Worth := weigh bonusWorth lots

/-- What paid value and lots or parts are worth together. -/
def worth (paid : Nat) (lots : List Lot) : Worth := paidWorth paid + lotsWorth lots

def Card.worth (c : Card) : Worth := Machine.worth c.paid c.lots

def HoldRecord.worth (h : HoldRecord) : Worth := Machine.worth h.paid h.parts

@[simp] theorem lotsWorth_nil : lotsWorth [] = 0 := rfl

@[simp] theorem lotsWorth_cons (l : Lot) (lots : List Lot) :
    lotsWorth (l :: lots) = bonusWorth l.sponsor l.amount + lotsWorth lots := weigh_cons ..

/-- The worth of lots, sponsor by sponsor, is what the fund totals count for each. -/
theorem lotsWorth_eq (lots : List Lot) : lotsWorth lots = (0, fun s => sponsorMoney s lots) := by
  induction lots with
  | nil => rfl
  | cons l rest ih =>
    rw [lotsWorth_cons, ih, bonusWorth_eq, Prod.mk_add_mk, zero_add]
    congr 1
    funext s
    simp only [Pi.add_apply, sponsorMoney, List.filter_cons, Pi.single_apply, decide_eq_true_eq]
    by_cases h : l.sponsor = s
    · simp [h]
    · simp [h, Ne.symm h]

theorem worth_fst (paid : Nat) (lots : List Lot) : (worth paid lots).1 = money paid := by
  rw [worth, paidWorth_eq, lotsWorth_eq]
  exact add_zero _

theorem worth_snd (paid : Nat) (lots : List Lot) (s : Fin 8) : (worth paid lots).2 s = sponsorMoney s lots := by
  rw [worth, paidWorth_eq, lotsWorth_eq]
  exact zero_add _

/-! ### The liability totals under each movement -/

/-- The two kinds of liability totals side by side. -/
def Funds.liabilities (f : Funds) : Worth := (f.paidLiability, fun s => f.liability[s])

theorem addFor_apply (v : Vector Total 8) (s : Fin 8) (x : Total) :
    (fun t : Fin 8 => (addFor v s x)[t]) = (fun t : Fin 8 => v[t]) + Pi.single s x := by
  funext t
  by_cases h : t = s
  · subst h
    simp [addFor_getElem_same]
  · simp only [Pi.add_apply, Pi.single_apply, h, if_false, add_zero]
    exact addFor_getElem_other v x t.isLt fun e => h (Fin.ext e)

@[simp] theorem Funds.liabilities_takeIn (f : Funds) (n : Nat) :
    (f.takeIn n).liabilities = f.liabilities + paidWorth n := by
  rw [paidWorth_eq]
  exact Prod.ext rfl (add_zero _).symm

@[simp] theorem Funds.liabilities_voidLoad (f : Funds) (n : Nat) :
    (f.voidLoad n).liabilities = f.liabilities - paidWorth n := by
  rw [paidWorth_eq]
  exact Prod.ext rfl (sub_zero _).symm

@[simp] theorem Funds.liabilities_cashOutPaid (f : Funds) (n : Nat) :
    (f.cashOutPaid n).liabilities = f.liabilities - paidWorth n := by
  rw [paidWorth_eq]
  exact Prod.ext rfl (sub_zero _).symm

@[simp] theorem Funds.liabilities_grant (f : Funds) (s : Fin 8) (n : Nat) :
    (f.grant s n).liabilities = f.liabilities + bonusWorth s n := by
  rw [bonusWorth_eq]
  exact Prod.ext (add_zero _).symm (addFor_apply ..)

@[simp] theorem Funds.liabilities_writeOffLot (f : Funds) (p : Lot) :
    (f.writeOffLot p).liabilities = f.liabilities - bonusWorth p.sponsor p.amount := by
  rw [bonusWorth_eq]
  refine Prod.ext (sub_zero _).symm ((addFor_apply ..).trans ?_)
  rw [Pi.single_neg, ← sub_eq_add_neg]
  rfl

@[simp] theorem Funds.due_writeOffLot (f : Funds) (p : Lot) : (f.writeOffLot p).due = f.due := rfl

theorem Funds.writeOffLots_spec (lots : List Lot) (f : Funds) :
    (lots.foldl Funds.writeOffLot f).liabilities = f.liabilities - lotsWorth lots ∧
      (lots.foldl Funds.writeOffLot f).due = f.due := by
  induction lots generalizing f with
  | nil => exact ⟨(sub_zero _).symm, rfl⟩
  | cons l rest ih =>
    obtain ⟨h1, h2⟩ := ih (f.writeOffLot l)
    refine ⟨?_, h2⟩
    rw [List.foldl_cons, h1, Funds.liabilities_writeOffLot, lotsWorth_cons]
    abel

theorem Funds.grants_spec (lots : List Lot) (f : Funds) :
    (lots.foldl (fun f l => f.grant l.sponsor l.amount) f).liabilities = f.liabilities + lotsWorth lots ∧
      (lots.foldl (fun f l => f.grant l.sponsor l.amount) f).due = f.due := by
  induction lots generalizing f with
  | nil => exact ⟨(add_zero _).symm, rfl⟩
  | cons l rest ih =>
    obtain ⟨h1, h2⟩ := ih (f.grant l.sponsor l.amount)
    refine ⟨?_, h2⟩
    rw [List.foldl_cons, h1, Funds.liabilities_grant, lotsWorth_cons, add_assoc]

@[simp] theorem Funds.liabilities_spendPart (f : Funds) (p : Lot) :
    (f.spendPart p).liabilities = f.liabilities - bonusWorth p.sponsor p.amount :=
  f.liabilities_writeOffLot p

theorem Funds.spendParts_spec (parts : List Lot) (f : Funds) :
    (parts.foldl Funds.spendPart f).liabilities = f.liabilities - lotsWorth parts ∧
      (parts.foldl Funds.spendPart f).due = f.due + money (sumLots parts) := by
  induction parts generalizing f with
  | nil => exact ⟨(sub_zero _).symm, (add_zero _).symm⟩
  | cons p rest ih =>
    obtain ⟨h1, h2⟩ := ih (f.spendPart p)
    rw [List.foldl_cons, h1, h2, Funds.liabilities_spendPart, lotsWorth_cons, sumLots_cons, money_add]
    refine ⟨by abel, ?_⟩
    rw [Funds.spendPart]
    exact add_assoc ..

/-- Value that goes to a merchant leaves the liabilities and joins what is due (R22). -/
theorem Funds.spend_spec (f : Funds) (paid : Nat) (parts : List Lot) :
    (f.spend paid parts).liabilities = f.liabilities - worth paid parts ∧
      (f.spend paid parts).due = f.due + money (paid + sumLots parts) := by
  obtain ⟨h1, h2⟩ := Funds.spendParts_spec parts
    { f with paidLiability := f.paidLiability - money paid, due := f.due + money paid }
  rw [Funds.spend, h1, h2, money_add]
  refine ⟨?_, add_assoc ..⟩
  have : Funds.liabilities { f with paidLiability := f.paidLiability - money paid, due := f.due + money paid } =
      f.liabilities - paidWorth paid := f.liabilities_cashOutPaid paid
  rw [this, worth]
  abel

@[simp] theorem Funds.liabilities_unspendPaid (f : Funds) (n : Nat) :
    (f.unspendPaid n).liabilities = f.liabilities + paidWorth n := f.liabilities_takeIn n

@[simp] theorem Funds.due_unspendPaid (f : Funds) (n : Nat) : (f.unspendPaid n).due = f.due - money n := rfl

/-- Parts that come back from a merchant: those that join a lot join the liabilities, and all leave what is due (R23). -/
theorem Funds.unspendParts_spec (fates : List (Lot × PartFate)) (f : Funds) :
    (fates.foldl Funds.unspendPart f).liabilities + lotsWorth (writtenParts fates) =
        f.liabilities + lotsWorth (fates.map Prod.fst) ∧
      (fates.foldl Funds.unspendPart f).due = f.due - money (sumLots (fates.map Prod.fst)) := by
  induction fates generalizing f with
  | nil => exact ⟨rfl, (sub_zero _).symm⟩
  | cons x rest ih =>
    obtain ⟨p, fate⟩ := x
    obtain ⟨h1, h2⟩ := ih (f.unspendPart (p, fate))
    rw [List.foldl_cons, h2, List.map_cons, sumLots_cons, money_add]
    have hdue : (f.unspendPart (p, fate)).due = f.due - money p.amount := by cases fate <;> rfl
    refine ⟨?_, by rw [hdue]; exact sub_sub ..⟩
    cases fate with
    | joined step =>
      have hl : (f.unspendPart (p, .joined step)).liabilities = f.liabilities + bonusWorth p.sponsor p.amount :=
        f.liabilities_grant p.sponsor p.amount
      rw [writtenParts_joined, h1, hl, lotsWorth_cons, add_assoc]
    | writtenOff =>
      have hl : (f.unspendPart (p, .writtenOff)).liabilities = f.liabilities := rfl
      rw [writtenParts_written, lotsWorth_cons, lotsWorth_cons, add_left_comm, h1, hl]
      abel

/-- The parts of a returned hold that were written off leave the liabilities (R24). -/
theorem Funds.returnParts_spec (fates : List (Lot × PartFate)) (f : Funds) :
    (fates.foldl Funds.returnPart f).liabilities = f.liabilities - lotsWorth (writtenParts fates) ∧
      (fates.foldl Funds.returnPart f).due = f.due := by
  induction fates generalizing f with
  | nil => exact ⟨(sub_zero _).symm, rfl⟩
  | cons x rest ih =>
    obtain ⟨p, fate⟩ := x
    cases fate with
    | joined step =>
      rw [List.foldl_cons, writtenParts_joined]
      exact ih f
    | writtenOff =>
      obtain ⟨h1, h2⟩ := ih (f.writeOffLot p)
      rw [List.foldl_cons, writtenParts_written, lotsWorth_cons]
      refine ⟨h1.trans ?_, h2⟩
      rw [Funds.liabilities_writeOffLot]
      abel

@[simp] theorem Funds.liabilities_billAll (f : Funds) (b : Vector Int 8) : (f.billAll b).liabilities = f.liabilities := by
  rw [Funds.billAll_eq]
  rfl

@[simp] theorem Funds.due_billAll (f : Funds) (b : Vector Int 8) : (f.billAll b).due = f.due := by
  rw [Funds.billAll_eq]

theorem Funds.settleCut_spec (f : Funds) (c : CutResult) :
    (f.settleCut c).liabilities = f.liabilities ∧ (f.settleCut c).due = f.due - moneyInt (c.payout + c.fee) := by
  rw [Funds.settleCut, Funds.liabilities_billAll, Funds.due_billAll]
  exact ⟨rfl, rfl⟩

theorem Funds.liabilities_add (a b : Funds) : (a.add b).liabilities = a.liabilities + b.liabilities := by
  refine Prod.ext rfl (funext fun s => ?_)
  simp [Funds.liabilities, Funds.add]

theorem Funds.liabilities_sub (a b : Funds) : (a.sub b).liabilities = a.liabilities - b.liabilities := by
  refine Prod.ext rfl (funext fun s => ?_)
  simp [Funds.liabilities, Funds.sub]

/-! ### Value drawn, placed and combined -/

/-- A drawdown's split and the card it leaves are worth what the card was (R10). -/
theorem drawdown_worth {today : Nat} {c : Card} {asked : Nat} {purse : Purse} {order : DrawOrder} {upTo : Bool}
    {d : Split} (h : drawdown today c asked purse order upTo = some d) :
    worth d.paid d.parts + (c.draw d).worth = c.worth := by
  obtain ⟨share, -, -, -, -, -, -, hpaid, -, hparts, hleft⟩ := drawdown_eq_some h
  have hp : paidWorth d.paid + paidWorth (c.paid - d.paid) = paidWorth c.paid := by
    rw [← map_add, Nat.add_sub_cancel' (hpaid.trans (reachedPaid_le purse c))]
  have hl : lotsWorth d.parts + lotsWorth d.lotsLeft = lotsWorth c.lots := by
    rw [hparts, hleft]
    exact weigh_takeLots ..
  show paidWorth d.paid + lotsWorth d.parts + (paidWorth (c.paid - d.paid) + lotsWorth d.lotsLeft) =
    paidWorth c.paid + lotsWorth c.lots
  rw [← hp, ← hl]
  abel

/-- What a drawdown takes and leaves is in lot order. -/
theorem drawdown_ordered {today : Nat} {c : Card} {asked : Nat} {purse : Purse} {order : DrawOrder} {upTo : Bool}
    {d : Split} (h : drawdown today c asked purse order upTo = some d) (ho : LotsOrdered c.lots) :
    LotsOrdered d.parts ∧ LotsOrdered (c.draw d).lots := by
  obtain ⟨share, -, -, -, -, -, -, -, -, hparts, hleft⟩ := drawdown_eq_some h
  show LotsOrdered d.parts ∧ LotsOrdered d.lotsLeft
  rw [hparts, hleft]
  exact takeLots_ordered _ _ ho

/-- Placed parts and those written off are worth what the lots and the parts were (R5). -/
theorem placeParts_worth (today : Nat) {lots : List Lot} (parts : List Lot) (h : LotsOrdered lots) :
    lotsWorth (placeParts today lots parts).1 + lotsWorth (writtenParts (placeParts today lots parts).2) =
      lotsWorth lots + lotsWorth parts := (placeParts_spec bonusWorth today parts h).2

theorem placeParts_ordered (today : Nat) {lots : List Lot} (parts : List Lot) (h : LotsOrdered lots) :
    LotsOrdered (placeParts today lots parts).1 := (placeParts_spec bonusWorth today parts h).1

/-- A swept card and the lots written off are worth what the card was (R37). -/
theorem sweepCard_worth (day : Nat) (c : Card) :
    (sweepCard day c).card.worth + lotsWorth (sweepCard day c).written = c.worth := by
  unfold sweepCard
  split
  · have hsplit : ∀ lots : List Lot, lotsWorth (lots.filter fun l => decide (day ≤ l.expiry)) +
        lotsWorth (lots.filter fun l => decide (l.expiry < day)) = lotsWorth lots := by
      intro lots
      induction lots with
      | nil => rfl
      | cons l rest ih =>
        rcases Nat.lt_or_ge l.expiry day with h | h
        · simp only [List.filter_cons, decide_eq_false (Nat.not_le.mpr h), decide_eq_true h, if_true,
            Bool.false_eq_true, if_false, lotsWorth_cons]
          rw [add_left_comm, ih]
        · simp only [List.filter_cons, decide_eq_true h, decide_eq_false (Nat.not_lt.mpr h), if_true,
            Bool.false_eq_true, if_false, lotsWorth_cons]
          rw [add_assoc, ih]
    show paidWorth c.paid + _ + _ = paidWorth c.paid + lotsWorth c.lots
    rw [← hsplit c.lots, add_assoc]
  · exact add_zero _

theorem restoreLots_spec {lots parts lots' : List Lot} {steps : List Nat} (h : LotsOrdered lots)
    (hr : restoreLots lots parts = some (lots', steps)) :
    LotsOrdered lots' ∧ lotsWorth lots' = lotsWorth lots + lotsWorth parts := by
  induction parts generalizing lots steps with
  | nil =>
    cases hr
    exact ⟨h, (add_zero _).symm⟩
  | cons p rest ih =>
    unfold restoreLots at hr
    split at hr
    · cases hr
    · rename_i lots1 step hm
      obtain ⟨x, hx, he⟩ := Option.map_eq_some_iff.mp hr
      cases he
      obtain ⟨ho, hw⟩ := ih (mergeLot_ordered h hm) hx
      refine ⟨ho, ?_⟩
      rw [hw, lotsWorth, weigh_mergeLot bonusWorth (LotsOrdered.apart h) hm, lotsWorth_cons]
      exact add_assoc ..

end Sys2Proof.Machine
end

section
/-! The agreement of the records in a form that single updates keep (R20, R28, R33, R53, R77, R113): the cards, the holds and
the hold lists, the merchants' counts and the referral-open flags, each as a property of the records read by index, and what
each update of a record does to it. -/

namespace Sys2Proof.Machine

/-! ### Sums over Record Memory -/

/-- The tables of the records that the agreement speaks of have rising indexes. -/
structure RecordMemory.Sorted (m : RecordMemory) : Prop where
  main : m.mainCards.rising = true
  pool : m.poolCards.rising = true
  chains : m.chains.rising = true
  products : m.products.rising = true
  merchants : m.merchants.rising = true
  holds : m.holds.rising = true

variable {m m' : RecordMemory}

theorem RecordMemory.Sorted.of_tablesWf (h : m.tablesWf = true) : m.Sorted := by
  obtain ⟨h1, h2, h3, h4, h5, -, -, h8, -, -⟩ := (RecordMemory.tablesWf_iff m).mp h
  exact ⟨h1, h2, ((Table.wf_iff _ _).mp h3).1, ((Table.wf_iff _ _).mp h4).1, ((Table.wf_iff _ _).mp h5).1,
    ((Table.wf_iff _ _).mp h8).1⟩

theorem Table.rising_set {α : Type} [DecidableEq α] {t : Table α} (d : α) (k : Nat) (v : α) (h : t.rising = true) :
    (t.set d k v).rising = true := by
  unfold Table.set
  split
  · exact Table.rising_erase k h
  · exact Table.rising_insert k v h

section
variable {G : Type} [AddCommGroup G]

/-- The sum of a quantity over the present cards. -/
def RecordMemory.sumCards (f : Card → G) (m : RecordMemory) : G := Table.total f m.mainCards + Table.total f m.poolCards

/-- The sum of a quantity over the OPEN holds. -/
def RecordMemory.sumHolds (f : HoldRecord → G) (m : RecordMemory) : G :=
  Table.total (fun x => Table.quantity f x.record) m.holds

/-- The sum of a quantity over the used merchant records. -/
def RecordMemory.sumMerchants (f : Merchant → G) (m : RecordMemory) : G :=
  Table.total (fun r => if r.used = true then f r else 0) m.merchants

theorem RecordMemory.sumCards_putCard (f : Card → G) (hs : m.Sorted) (slot : Slot) (d : Card) :
    (m.putCard slot d).sumCards f = m.sumCards f - Table.quantity f (m.cardAt slot) + f d := by
  cases slot with
  | main n =>
    simp only [sumCards, putCard, cardAt, Table.total_insert f hs.main]
    abel
  | overflow n =>
    simp only [sumCards, putCard, cardAt, Table.total_insert f hs.pool]
    abel

theorem RecordMemory.sumCards_placeCard (f : Card → G) (hs : m.Sorted) (slot : Slot) (d : Card) :
    (m.placeCard slot d).sumCards f = m.sumCards f - Table.quantity f (m.cardAt slot) + f d := by
  rw [← m.sumCards_putCard f hs]
  cases slot <;> rfl

theorem RecordMemory.sumCards_removeCard (f : Card → G) (hs : m.Sorted) (slot : Slot) (c : Card) :
    (m.removeCard slot c).sumCards f = m.sumCards f - Table.quantity f (m.cardAt slot) := by
  cases slot with
  | main n =>
    simp only [sumCards, removeCard, cardAt, Table.total_erase f hs.main]
    abel
  | overflow n =>
    simp only [sumCards, removeCard, cardAt, Table.total_erase f hs.pool]
    abel

theorem RecordMemory.sumHolds_setHoldSlot (f : HoldRecord → G) (hs : m.Sorted) (n : Nat) (x : HoldSlot) :
    (m.setHoldSlot n x).sumHolds f =
      m.sumHolds f - Table.quantity f (m.holdSlot n).record + Table.quantity f x.record :=
  Table.total_set (f := fun x : HoldSlot => Table.quantity f x.record) rfl hs.holds n x

theorem RecordMemory.sumMerchants_setMerchant (f : Merchant → G) (hs : m.Sorted) (i : Nat) (r : Merchant) :
    (m.setMerchant i r).sumMerchants f = m.sumMerchants f -
      (if (m.merchant i).used = true then f (m.merchant i) else 0) + if r.used = true then f r else 0 :=
  Table.total_set (f := fun r : Merchant => if r.used = true then f r else 0) rfl hs.merchants i r

end

/-! ### Rising indexes kept -/

theorem RecordMemory.Sorted.putCard (h : m.Sorted) (slot : Slot) (c : Card) : (m.putCard slot c).Sorted := by
  cases slot with
  | main n => exact { h with main := Table.rising_insert n c h.main }
  | overflow n => exact { h with pool := Table.rising_insert n c h.pool }

theorem RecordMemory.Sorted.placeCard (h : m.Sorted) (slot : Slot) (c : Card) : (m.placeCard slot c).Sorted := by
  cases slot with
  | main n => exact { h with main := Table.rising_insert n c h.main }
  | overflow n => exact { h with pool := Table.rising_insert n c h.pool, chains := Table.rising_set _ _ _ h.chains }

theorem RecordMemory.Sorted.removeCard (h : m.Sorted) (slot : Slot) (c : Card) : (m.removeCard slot c).Sorted := by
  cases slot with
  | main n => exact { h with main := Table.rising_erase n h.main }
  | overflow n => exact { h with pool := Table.rising_erase n h.pool, chains := Table.rising_set _ _ _ h.chains }

theorem RecordMemory.Sorted.setProduct (h : m.Sorted) (i : Nat) (p : Product) : (m.setProduct i p).Sorted :=
  { h with products := Table.rising_set _ _ _ h.products }

theorem RecordMemory.Sorted.setMerchant (h : m.Sorted) (i : Nat) (r : Merchant) : (m.setMerchant i r).Sorted :=
  { h with merchants := Table.rising_set _ _ _ h.merchants }

theorem RecordMemory.Sorted.setHoldSlot (h : m.Sorted) (n : Nat) (x : HoldSlot) : (m.setHoldSlot n x).Sorted :=
  { h with holds := Table.rising_set _ _ _ h.holds }

/-! ### Records read after updates -/

theorem RecordMemory.cardAt_putCard (m : RecordMemory) (slot y : Slot) (d : Card) :
    (m.putCard slot d).cardAt y = if y = slot then some d else m.cardAt y := by
  split
  · rename_i e
    rw [e, cardAt_putCard_same]
  · rename_i e
    exact cardAt_putCard_other m d e

theorem RecordMemory.product_setProduct (hs : m.Sorted) (i k : Nat) (p : Product) :
    (m.setProduct i p).product k = if k = i then p else m.product k := by
  split
  · rename_i e
    rw [e]
    exact Table.get_set_same _ _ _ hs.products
  · rename_i e
    exact Table.get_set_other _ _ _ e

@[simp] theorem RecordMemory.holdSlot_putCard (m : RecordMemory) (slot : Slot) (c : Card) (n : Nat) :
    (m.putCard slot c).holdSlot n = m.holdSlot n := by
  cases slot <;> rfl

@[simp] theorem RecordMemory.merchant_putCard (m : RecordMemory) (slot : Slot) (c : Card) (i : Nat) :
    (m.putCard slot c).merchant i = m.merchant i := by
  cases slot <;> rfl

@[simp] theorem RecordMemory.product_putCard (m : RecordMemory) (slot : Slot) (c : Card) (i : Nat) :
    (m.putCard slot c).product i = m.product i := by
  cases slot <;> rfl

@[simp] theorem RecordMemory.findMerchant_putCard (m : RecordMemory) (slot : Slot) (c : Card) (id : Nat) :
    (m.putCard slot c).findMerchant id = m.findMerchant id := by
  cases slot <;> rfl

/-- A found merchant stands at its index. -/
theorem RecordMemory.merchant_of_findMerchant (hs : m.Sorted) {id i : Nat} {r : Merchant}
    (h : m.findMerchant id = some (i, r)) : m.merchant i = r ∧ r.used = true ∧ r.id = id := by
  obtain ⟨hu, hid, hm⟩ := RecordMemory.findMerchant_spec h
  refine ⟨?_, hu, hid⟩
  unfold RecordMemory.merchant Table.get
  rw [Table.find_of_mem hs.merchants hm]
  rfl

/-- A used merchant record is listed at its index. -/
theorem RecordMemory.mem_merchants (hu : (m.merchant i).used = true) : (i, m.merchant i) ∈ m.merchants := by
  unfold RecordMemory.merchant Table.get at *
  cases h : m.merchants.find i with
  | none =>
    rw [h] at hu
    cases hu
  | some r => exact Table.mem_of_find h

/-! ### The cards (R30, R33, R53) -/

/-- A card still has the paid value of a LOAD that is its last movement (R30). -/
def Card.loadKept (c : Card) : Prop := ∀ v, c.last = some v → v.kind = .load → v.paid ≤ c.paid

/-- The cards agree with the lookups and the products' counts; a card of the list `noted` may still lack the bookkeeping of
a change that is being made. -/
structure RecordMemory.CardsTally (noted : List Nat) (m : RecordMemory) : Prop where
  found : ∀ slot c, m.cardAt slot = some c → m.findCard c.number = some (slot, c)
  issued : ∀ i, ((m.product i).issued : ℤ) = m.sumCards fun c => if c.product = i then 1 else 0
  unused : ∀ i, (m.product i).state = .unused → (m.product i).issued = 0
  lots : ∀ slot c, m.cardAt slot = some c → LotsOrdered c.lots
  load : ∀ slot c, m.cardAt slot = some c → c.number ∉ noted → c.loadKept

variable {noted : List Nat}

theorem RecordMemory.CardsTally.congr (h : m.CardsTally noted) (h1 : m'.mainCards = m.mainCards)
    (h2 : m'.poolCards = m.poolCards) (h3 : m'.chains = m.chains) (h4 : m'.products = m.products) :
    m'.CardsTally noted := by
  cases m
  cases m'
  dsimp only at h1 h2 h3 h4
  subst h1 h2 h3 h4
  exact ⟨h.found, h.issued, h.unused, h.lots, h.load⟩

/-- Cards of one number are one card. -/
theorem RecordMemory.CardsTally.same_slot (h : m.CardsTally noted) {x y : Slot} {c d : Card} (hc : m.cardAt x = some c)
    (hd : m.cardAt y = some d) (e : c.number = d.number) : x = y := by
  have h1 := h.found x c hc
  rw [e, h.found y d hd] at h1
  cases h1
  rfl

/-- A card written back over the one of a slot, of its number and product; its bookkeeping may be noted or made. -/
theorem RecordMemory.CardsTally.putCard (h : m.CardsTally noted) (hs : m.Sorted) {slot : Slot} {c d : Card}
    (hc : m.cardAt slot = some c) (hn : d.number = c.number) (hp : d.product = c.product) (ho : LotsOrdered d.lots)
    {noted' : List Nat} (hl : d.number ∉ noted' → d.loadKept) (hsub : ∀ n ∈ noted, n ≠ c.number → n ∈ noted') :
    (m.putCard slot d).CardsTally noted' := by
  refine ⟨fun y e he => ?_, fun i => ?_, fun i => ?_, fun y e he => ?_, fun y e he => ?_⟩
  · rw [RecordMemory.findCard_putCard_map hc hn]
    rw [RecordMemory.cardAt_putCard] at he
    split at he
    · rename_i hy
      cases he
      rw [hn, h.found slot c hc, hy]
      simp
    · rename_i hy
      rw [h.found y e he]
      simp [hy]
  · rw [RecordMemory.sumCards_putCard _ hs, hc, RecordMemory.product_putCard, h.issued i, Table.quantity_some, hp]
    abel
  · rw [RecordMemory.product_putCard]
    exact h.unused i
  · rw [RecordMemory.cardAt_putCard] at he
    split at he
    · cases he
      exact ho
    · exact h.lots y e he
  · rw [RecordMemory.cardAt_putCard] at he
    split at he
    · cases he
      exact hl
    · rename_i hy
      exact fun hn' => h.load y e he fun hm => hn' (hsub _ hm fun e' => hy (h.same_slot he hc e'))

/-- A product record written with its issued count. -/
theorem RecordMemory.CardsTally.setProduct (h : m.CardsTally noted) (hs : m.Sorted) {i : Nat} {p : Product}
    (hi : p.issued = (m.product i).issued) (hu : p.state = .unused → p.issued = 0) :
    (m.setProduct i p).CardsTally noted := by
  refine ⟨h.found, fun k => ?_, fun k => ?_, h.lots, h.load⟩
  · rw [RecordMemory.product_setProduct hs]
    split
    · rename_i e
      rw [hi, e]
      exact h.issued i
    · exact h.issued k
  · rw [RecordMemory.product_setProduct hs]
    split
    · exact hu
    · exact h.unused k

/-! ### The referral-open flags (R113) -/

/-- A card's referral-open flag is set exactly for the cards of a set, all of them present. -/
structure RecordMemory.FlagsTally (F : Nat → Prop) (m : RecordMemory) : Prop where
  flags : ∀ slot c, m.cardAt slot = some c → (c.referralOpen = true ↔ F c.number)
  present : ∀ n, F n → ∃ slot c, m.cardAt slot = some c ∧ c.number = n

theorem RecordMemory.FlagsTally.putCard {F F' : Nat → Prop} (h : m.FlagsTally F) (ht : m.CardsTally noted) {slot : Slot}
    {c d : Card} (hc : m.cardAt slot = some c) (hn : d.number = c.number)
    (hF : ∀ n, F' n ↔ if n = c.number then d.referralOpen = true else F n) : (m.putCard slot d).FlagsTally F' := by
  refine ⟨fun y e he => ?_, fun n hn' => ?_⟩
  · rw [RecordMemory.cardAt_putCard] at he
    rw [hF]
    split at he
    · cases he
      rw [if_pos hn]
    · rename_i hy
      rw [if_neg fun e' => hy (ht.same_slot he hc e')]
      exact h.flags y e he
  · rw [hF] at hn'
    split at hn'
    · rename_i e
      exact ⟨slot, d, RecordMemory.cardAt_putCard_same .., hn.trans e.symm⟩
    · rename_i hne
      obtain ⟨y, e, he, hen⟩ := h.present n hn'
      refine ⟨y, e, ?_, hen⟩
      rw [RecordMemory.cardAt_putCard, if_neg]
      · exact he
      · rintro rfl
        rw [hc] at he
        cases he
        exact hne hen.symm

/-! ### The holds and the hold lists (R28) -/

/-- The OPEN holds and the hold lists name one another. -/
structure RecordMemory.ListsTally (m : RecordMemory) : Prop where
  listed : ∀ n x, (m.holdSlot n).record = some x →
    ∃ slot c, m.cardAt slot = some c ∧ c.number = x.card ∧ ⟨n, (m.holdSlot n).generation⟩ ∈ c.holds
  named : ∀ slot c, m.cardAt slot = some c → c.holds.Nodup ∧ ∀ k ∈ c.holds,
    (m.holdSlot k.slot).generation = k.generation ∧ ∃ x, (m.holdSlot k.slot).record = some x ∧ x.card = c.number
  parts : ∀ n x, (m.holdSlot n).record = some x → LotsOrdered x.parts

theorem RecordMemory.ListsTally.congr (h : m.ListsTally) (h1 : m'.mainCards = m.mainCards)
    (h2 : m'.poolCards = m.poolCards) (h3 : m'.holds = m.holds) : m'.ListsTally := by
  cases m
  cases m'
  dsimp only at h1 h2 h3
  subst h1 h2 h3
  exact ⟨h.listed, h.named, h.parts⟩

/-- A card written back with its number and hold list. -/
theorem RecordMemory.ListsTally.putCard (h : m.ListsTally) {slot : Slot} {c d : Card} (hc : m.cardAt slot = some c)
    (hn : d.number = c.number) (hh : d.holds = c.holds) : (m.putCard slot d).ListsTally := by
  refine ⟨fun n x hx => ?_, fun y e he => ?_, fun n x hx => ?_⟩ <;> simp only [RecordMemory.holdSlot_putCard] at *
  · obtain ⟨y, e, he, hen, hmem⟩ := h.listed n x hx
    by_cases hy : y = slot
    · subst hy
      rw [hc] at he
      cases he
      exact ⟨y, d, RecordMemory.cardAt_putCard_same .., hn.trans hen, hh ▸ hmem⟩
    · exact ⟨y, e, (RecordMemory.cardAt_putCard_other m d hy).trans he, hen, hmem⟩
  · rw [RecordMemory.cardAt_putCard] at he
    split at he
    · cases he
      rw [hh, hn]
      exact h.named slot c hc
    · exact h.named y e he
  · exact h.parts n x hx

/-- A hold placed in a FREE slot and named at the end of its card's list (R78, R81). -/
theorem RecordMemory.ListsTally.opened (h : m.ListsTally) (hs : m.Sorted) {slot : Slot} {c d : Card} {n : Nat}
    {x : HoldRecord} (hc : m.cardAt slot = some c) (hn : d.number = c.number) (hfree : (m.holdSlot n).record = none)
    (hx : x.card = c.number) (hp : LotsOrdered x.parts) (hh : d.holds = c.holds ++ [⟨n, (m.holdSlot n).generation⟩]) :
    ((m.setHoldSlot n { m.holdSlot n with record := some x }).putCard slot d).ListsTally := by
  have hhold : ∀ k, ((m.setHoldSlot n { m.holdSlot n with record := some x }).putCard slot d).holdSlot k =
      if k = n then { m.holdSlot n with record := some x } else m.holdSlot k := fun k => by
    rw [RecordMemory.holdSlot_putCard, RecordMemory.holdSlot_setHoldSlot hs.holds]
  have hcard : ∀ y, ((m.setHoldSlot n { m.holdSlot n with record := some x }).putCard slot d).cardAt y =
      if y = slot then some d else m.cardAt y := fun y => RecordMemory.cardAt_putCard _ _ y _
  have hne : ∀ y e, m.cardAt y = some e → ∀ k ∈ e.holds, k.slot ≠ n := by
    rintro y e he k hk rfl
    obtain ⟨-, z, hz, -⟩ := (h.named y e he).2 k hk
    rw [hfree] at hz
    cases hz
  refine ⟨fun k z hz => ?_, fun y e he => ?_, fun k z hz => ?_⟩
  · rw [hhold] at hz ⊢
    split at hz
    · rename_i e
      cases hz
      rw [if_pos e, e]
      exact ⟨slot, d, by rw [hcard, if_pos rfl], hn.trans hx.symm, by simp [hh]⟩
    · rename_i e
      rw [if_neg e]
      obtain ⟨y, f, hf, hfn, hmem⟩ := h.listed k z hz
      by_cases hy : y = slot
      · subst hy
        rw [hc] at hf
        cases hf
        exact ⟨y, d, by rw [hcard, if_pos rfl], hn.trans hfn, by rw [hh]; exact List.mem_append_left _ hmem⟩
      · exact ⟨y, f, by rw [hcard, if_neg hy]; exact hf, hfn, hmem⟩
  · rw [hcard] at he
    split at he
    · cases he
      obtain ⟨hnd, hnames⟩ := h.named slot c hc
      rw [hh, hn]
      refine ⟨List.nodup_append.mpr ⟨hnd, List.nodup_singleton _, ?_⟩, fun k hk => ?_⟩
      · rintro a ha b hb rfl
        exact hne slot c hc a ha (by rw [List.mem_singleton.mp hb])
      · rw [hhold]
        rcases List.mem_append.mp hk with hk | hk
        · rw [if_neg (hne slot c hc k hk)]
          exact hnames k hk
        · cases List.mem_singleton.mp hk
          rw [if_pos rfl]
          exact ⟨rfl, x, rfl, hx⟩
    · obtain ⟨hnd, hnames⟩ := h.named y e he
      refine ⟨hnd, fun k hk => ?_⟩
      rw [hhold, if_neg (hne y e he k hk)]
      exact hnames k hk
  · rw [hhold] at hz
    split at hz
    · cases hz
      exact hp
    · exact h.parts k z hz

/-- A slot freed and its handle taken off its card's list (R28, R78). -/
theorem RecordMemory.ListsTally.free (h : m.ListsTally) (ht : m.CardsTally noted) (hs : m.Sorted) {slot : Slot}
    {c d : Card} {n : Nat} {x : HoldRecord} {y : HoldSlot} (hc : m.cardAt slot = some c) (hn : d.number = c.number)
    (hx : (m.holdSlot n).record = some x) (hxc : x.card = c.number) (hy : y.record = none)
    (hh : d.holds = c.holds.erase ⟨n, (m.holdSlot n).generation⟩) :
    ((m.setHoldSlot n y).putCard slot d).ListsTally := by
  have hhold : ∀ k, ((m.setHoldSlot n y).putCard slot d).holdSlot k = if k = n then y else m.holdSlot k := fun k => by
    rw [RecordMemory.holdSlot_putCard, RecordMemory.holdSlot_setHoldSlot hs.holds]
  have hcard : ∀ z, ((m.setHoldSlot n y).putCard slot d).cardAt z = if z = slot then some d else m.cardAt z :=
    fun y => RecordMemory.cardAt_putCard _ _ y _
  refine ⟨fun k z hz => ?_, fun w e he => ?_, fun k z hz => ?_⟩
  · rw [hhold] at hz ⊢
    split at hz
    · rw [hy] at hz
      cases hz
    · rename_i hk
      rw [if_neg hk]
      obtain ⟨w, f, hf, hfn, hmem⟩ := h.listed k z hz
      by_cases hw : w = slot
      · subst hw
        rw [hc] at hf
        cases hf
        refine ⟨w, d, by rw [hcard, if_pos rfl], hn.trans hfn, ?_⟩
        rw [hh, List.mem_erase_of_ne]
        · exact hmem
        · rintro e
          cases e
          exact hk rfl
      · exact ⟨w, f, by rw [hcard, if_neg hw]; exact hf, hfn, hmem⟩
  · rw [hcard] at he
    split at he
    · cases he
      obtain ⟨hnd, hnames⟩ := h.named slot c hc
      rw [hh, hn]
      refine ⟨hnd.erase _, fun k hk => ?_⟩
      obtain ⟨hkne, hk⟩ := hnd.mem_erase_iff.mp hk
      obtain ⟨hg, hrec⟩ := hnames k hk
      rw [hhold, if_neg]
      · exact ⟨hg, hrec⟩
      · rintro e
        refine hkne ?_
        cases k
        dsimp only at e hg
        rw [← hg, e]
    · rename_i hw
      obtain ⟨hnd, hnames⟩ := h.named w e he
      refine ⟨hnd, fun k hk => ?_⟩
      obtain ⟨hg, z, hz, hzc⟩ := hnames k hk
      rw [hhold, if_neg]
      · exact ⟨hg, z, hz, hzc⟩
      · rintro e'
        rw [e', hx] at hz
        cases hz
        exact hw (ht.same_slot he hc (hzc.symm.trans hxc))
  · rw [hhold] at hz
    split at hz
    · rw [hy] at hz
      cases hz
    · exact h.parts k z hz

/-! ### The merchants and their counts of holds (R77) -/

/-- 1 for an OPEN hold of a merchant, 0 for any other. -/
def holdsAt (id : Nat) (h : HoldRecord) : ℤ := if h.merchant = id then 1 else 0

/-- The merchants of the OPEN holds are used, used records have ids of their own, and count their OPEN holds. -/
structure RecordMemory.MerchantsTally (m : RecordMemory) : Prop where
  merchant : ∀ n x, (m.holdSlot n).record = some x → ∃ i, (m.merchant i).used = true ∧ (m.merchant i).id = x.merchant
  unique : ∀ i j, (m.merchant i).used = true → (m.merchant j).used = true → (m.merchant i).id = (m.merchant j).id → i = j
  counted : ∀ i, (m.merchant i).used = true → ((m.merchant i).openHolds : ℤ) = m.sumHolds (holdsAt (m.merchant i).id)

theorem RecordMemory.MerchantsTally.congr (h : m.MerchantsTally) (h1 : m'.merchants = m.merchants)
    (h2 : m'.holds = m.holds) : m'.MerchantsTally := by
  cases m
  cases m'
  dsimp only at h1 h2
  subst h1 h2
  exact ⟨h.merchant, h.unique, h.counted⟩

/-- The lookup of a used record's id gives it (R141). -/
theorem RecordMemory.MerchantsTally.findMerchant (h : m.MerchantsTally) (hs : m.Sorted) {i : Nat}
    (hu : (m.merchant i).used = true) : m.findMerchant (m.merchant i).id = some (i, m.merchant i) := by
  cases hf : m.findMerchant (m.merchant i).id with
  | none =>
    have := List.find?_eq_none.mp hf _ (RecordMemory.mem_merchants hu)
    simp [hu] at this
  | some e =>
    obtain ⟨j, r⟩ := e
    obtain ⟨hr, hru, hrid⟩ := RecordMemory.merchant_of_findMerchant hs hf
    subst hr
    have hji : j = i := h.unique j i hru hu hrid
    rw [hji]

/-- One used record written with its id, and one hold slot whose hold, before and after, is of that merchant, when the
count changes as the slot does. -/
theorem RecordMemory.MerchantsTally.move (h : m.MerchantsTally) (hs : m.Sorted) {n i : Nat} {y : HoldSlot}
    {r : Merchant} (hu : (m.merchant i).used = true) (hr : r.used = true) (hid : r.id = (m.merchant i).id)
    (hold : ∀ x, (m.holdSlot n).record = some x → x.merchant = r.id)
    (hnew : ∀ x, y.record = some x → x.merchant = r.id)
    (hcount : (r.openHolds : ℤ) = (m.merchant i).openHolds - Table.quantity (fun _ : HoldRecord => (1 : ℤ))
      (m.holdSlot n).record + Table.quantity (fun _ : HoldRecord => (1 : ℤ)) y.record) :
    ((m.setHoldSlot n y).setMerchant i r).MerchantsTally := by
  have hm : ∀ j, ((m.setHoldSlot n y).setMerchant i r).merchant j = if j = i then r else m.merchant j :=
    fun j => RecordMemory.merchant_setMerchant (m := m.setHoldSlot n y) hs.merchants i j r
  have hid' : ∀ j, (((m.setHoldSlot n y).setMerchant i r).merchant j).id = (m.merchant j).id := fun j => by
    rw [hm]
    split
    · rename_i e
      rw [hid, e]
    · rfl
  have hu' : ∀ j, (((m.setHoldSlot n y).setMerchant i r).merchant j).used = (m.merchant j).used := fun j => by
    rw [hm]
    split
    · rename_i e
      rw [hr, e, hu]
    · rfl
  have hhold : ∀ k, ((m.setHoldSlot n y).setMerchant i r).holdSlot k = if k = n then y else m.holdSlot k :=
    fun k => RecordMemory.holdSlot_setHoldSlot hs.holds n k y
  have hone : ∀ (o : Option HoldRecord) id, (∀ x, o = some x → x.merchant = r.id) →
      Table.quantity (holdsAt id) o = if r.id = id then Table.quantity (fun _ => 1) o else 0 := by
    rintro (_ | x) id ho
    · simp
    · simp [holdsAt, ho x rfl]
  refine ⟨fun k x hx => ?_, fun j l hj hl e => ?_, fun j hj => ?_⟩
  · simp only [hid', hu']
    rw [hhold] at hx
    split at hx
    · exact ⟨i, hu, by rw [← hid, hnew x hx]⟩
    · exact h.merchant k x hx
  · rw [hu'] at hj hl
    rw [hid', hid'] at e
    exact h.unique j l hj hl e
  · rw [hu'] at hj
    rw [hid']
    have hsum : ((m.setHoldSlot n y).setMerchant i r).sumHolds (holdsAt (m.merchant j).id) = _ :=
      RecordMemory.sumHolds_setHoldSlot (holdsAt (m.merchant j).id) hs n y
    rw [hsum, ← h.counted j hj, hone _ _ hold, hone _ _ hnew, hm]
    by_cases e : j = i
    · subst e
      rw [if_pos rfl, if_pos hid, if_pos hid, hcount]
    · have hne : r.id ≠ (m.merchant j).id := fun e' => e (h.unique j i hj hu (e'.symm.trans hid))
      rw [if_neg e, if_neg hne, if_neg hne]
      simp

/-- A used record written with its id and count of holds. -/
theorem RecordMemory.MerchantsTally.setMerchant (h : m.MerchantsTally) (hs : m.Sorted) {i : Nat} {r : Merchant}
    (hu : (m.merchant i).used = true) (hr : r.used = true) (hid : r.id = (m.merchant i).id)
    (ho : r.openHolds = (m.merchant i).openHolds) : (m.setMerchant i r).MerchantsTally := by
  have hm : ∀ j, (m.setMerchant i r).merchant j = if j = i then r else m.merchant j :=
    fun j => RecordMemory.merchant_setMerchant hs.merchants i j r
  have key : ∀ j, ((m.setMerchant i r).merchant j).id = (m.merchant j).id ∧
      ((m.setMerchant i r).merchant j).used = (m.merchant j).used ∧
      ((m.setMerchant i r).merchant j).openHolds = (m.merchant j).openHolds := fun j => by
    rw [hm]
    split
    · rename_i e
      rw [e]
      exact ⟨hid, hr.trans hu.symm, ho⟩
    · exact ⟨rfl, rfl, rfl⟩
  refine ⟨fun k x hx => ?_, fun j l hj hl e => ?_, fun j hj => ?_⟩
  · obtain ⟨j, hj, hjid⟩ := h.merchant k x hx
    exact ⟨j, (key j).2.1.trans hj, (key j).1.trans hjid⟩
  · exact h.unique j l ((key j).2.1 ▸ hj) ((key l).2.1 ▸ hl) (by rw [← (key j).1, ← (key l).1, e])
  · rw [(key j).2.2, (key j).1]
    exact h.counted j ((key j).2.1 ▸ hj)

end Sys2Proof.Machine
end

section
/-! The records tally: the agreement with what a change in the middle of its work has in hand, and the rules for the updates
that requests, expiries and the sweep are made of (R20, R28, R77, R113). -/

namespace Sys2Proof.Machine

/-- The records agree but for value in hand: the liability totals exceed the cards and holds by `hand`, due to merchants
exceeds the positions by `owed`, the cards of `noted` still wait for their bookkeeping, and the referral-open flags are those
of the cards in `open_`. -/
structure RecordMemory.Tally (hand : Worth) (owed : Total) (noted : List Nat) (open_ : Nat → Prop) (m : RecordMemory) :
    Prop where
  sorted : m.Sorted
  liabilities : m.funds.liabilities = m.sumCards Card.worth + m.sumHolds HoldRecord.worth + hand
  due : m.funds.due = m.sumMerchants (fun r => moneyInt r.position.due) + owed
  cards : m.CardsTally noted
  lists : m.ListsTally
  merchants : m.MerchantsTally
  flags : m.FlagsTally open_

variable {m m' : RecordMemory} {hand hand' : Worth} {owed owed' : Total} {noted noted' : List Nat} {F F' : Nat → Prop}

theorem RecordMemory.Tally.cast (h : m.Tally hand owed noted F) (hh : hand' = hand) (ho : owed' = owed) :
    m.Tally hand' owed' noted F := by
  rw [hh, ho]
  exact h

/-- What the agreement reads of Record Memory. -/
def RecordMemory.books (m : RecordMemory) :=
  (m.mainCards, m.poolCards, m.chains, m.products, m.merchants, m.holds, m.funds)

/-- The other records, settings and times bear on nothing that tallies. -/
theorem RecordMemory.Tally.of_books (h : m.Tally hand owed noted F) (e : m'.books = m.books) :
    m'.Tally hand owed noted F := by
  cases m
  cases m'
  simp only [RecordMemory.books, Prod.mk.injEq] at e
  obtain ⟨rfl, rfl, rfl, rfl, rfl, rfl, rfl⟩ := e
  exact {
    sorted := { h.sorted with }
    liabilities := h.liabilities
    due := h.due
    cards := h.cards.congr rfl rfl rfl rfl
    lists := h.lists.congr rfl rfl rfl
    merchants := h.merchants.congr rfl rfl
    flags := ⟨h.flags.flags, h.flags.present⟩ }

/-! ### The single updates -/

/-- The fund totals moved: the value is in hand. -/
theorem RecordMemory.Tally.setFunds (h : m.Tally hand owed noted F) {f : Funds} {a : Worth} {b : Total}
    (ha : f.liabilities = m.funds.liabilities + a) (hb : f.due = m.funds.due + b) :
    RecordMemory.Tally (hand + a) (owed + b) noted F { m with funds := f } where
  sorted := { h.sorted with }
  liabilities := by
    show f.liabilities = m.sumCards Card.worth + m.sumHolds HoldRecord.worth + (hand + a)
    rw [ha, h.liabilities, add_assoc]
  due := by
    show f.due = m.sumMerchants (fun r => moneyInt r.position.due) + (owed + b)
    rw [hb, h.due, add_assoc]
  cards := h.cards.congr rfl rfl rfl rfl
  lists := h.lists.congr rfl rfl rfl
  merchants := h.merchants.congr rfl rfl
  flags := ⟨h.flags.flags, h.flags.present⟩

/-- A used merchant record written with its id and count of holds. -/
theorem RecordMemory.Tally.setMerchant (h : m.Tally hand owed noted F) {i : Nat} {r : Merchant}
    (hu : (m.merchant i).used = true) (hr : r.used = true) (hid : r.id = (m.merchant i).id)
    (ho : r.openHolds = (m.merchant i).openHolds) :
    (m.setMerchant i r).Tally hand
      (owed + moneyInt (m.merchant i).position.due - moneyInt r.position.due) noted F where
  sorted := h.sorted.setMerchant i r
  liabilities := h.liabilities
  due := by
    rw [RecordMemory.sumMerchants_setMerchant _ h.sorted, if_pos hu, if_pos hr, RecordMemory.setMerchant_funds, h.due]
    ring
  cards := h.cards.congr rfl rfl rfl rfl
  lists := h.lists.congr rfl rfl rfl
  merchants := h.merchants.setMerchant h.sorted hu hr hid ho
  flags := ⟨h.flags.flags, h.flags.present⟩

/-- What every update of a present card keeps of it. -/
structure Card.Rewrites (c d : Card) : Prop where
  number : d.number = c.number
  product : d.product = c.product
  holds : d.holds = c.holds

/-- A card written back. -/
theorem RecordMemory.Tally.putCard (h : m.Tally hand owed noted F) {slot : Slot} {c d : Card}
    (hc : m.cardAt slot = some c) (hd : c.Rewrites d) (ho : LotsOrdered d.lots) (hl : d.number ∉ noted' → d.loadKept)
    (hsub : ∀ n ∈ noted, n ≠ c.number → n ∈ noted')
    (hF : ∀ n, F' n ↔ if n = c.number then d.referralOpen = true else F n) :
    (m.putCard slot d).Tally (hand + c.worth - d.worth) owed noted' F' where
  sorted := h.sorted.putCard slot d
  liabilities := by
    have hh : (m.putCard slot d).sumHolds HoldRecord.worth = m.sumHolds HoldRecord.worth := by cases slot <;> rfl
    rw [RecordMemory.sumCards_putCard _ h.sorted, hc, RecordMemory.putCard_funds, h.liabilities, hh,
      Table.quantity_some]
    ring
  due := by
    have hm : (m.putCard slot d).sumMerchants (fun r => moneyInt r.position.due) =
        m.sumMerchants fun r => moneyInt r.position.due := by cases slot <;> rfl
    rw [RecordMemory.putCard_funds, hm]
    exact h.due
  cards := h.cards.putCard h.sorted hc hd.number hd.product ho hl hsub
  lists := h.lists.putCard hc hd.number hd.holds
  merchants := h.merchants.congr (RecordMemory.putCard_merchants ..) (RecordMemory.putCard_holds ..)
  flags := h.flags.putCard h.cards hc hd.number hF

/-- The flags of a set stay those of the set when a card is written back with its own. -/
theorem RecordMemory.Tally.flags_same (h : m.Tally hand owed noted F) {slot : Slot} {c d : Card}
    (hc : m.cardAt slot = some c) (hr : d.referralOpen = c.referralOpen) (n : Nat) :
    F n ↔ if n = c.number then d.referralOpen = true else F n := by
  split
  · rename_i e
    rw [e, hr]
    exact (h.flags.flags slot c hc).symm
  · exact Iff.rfl

theorem RecordMemory.putCard_setMerchant (m : RecordMemory) (slot : Slot) (c : Card) (i : Nat) (r : Merchant) :
    (m.setMerchant i r).putCard slot c = (m.putCard slot c).setMerchant i r := by cases slot <;> rfl

theorem RecordMemory.putCard_setHoldSlot (m : RecordMemory) (slot : Slot) (c : Card) (n : Nat) (x : HoldSlot) :
    (m.setHoldSlot n x).putCard slot c = (m.putCard slot c).setHoldSlot n x := by cases slot <;> rfl

theorem RecordMemory.putCard_withFunds (m : RecordMemory) (slot : Slot) (c : Card) (f : Funds) :
    RecordMemory.putCard { m with funds := f } slot c = { m.putCard slot c with funds := f } := by cases slot <;> rfl

/-- A hold placed, counted at its merchant and named on its card (R78, R81). -/
theorem RecordMemory.Tally.openHold (h : m.Tally hand owed noted F) {slot : Slot} {c d : Card} {n i : Nat}
    {x : HoldRecord} (hc : m.cardAt slot = some c) (hn : d.number = c.number) (hp : d.product = c.product)
    (hh : d.holds = c.holds ++ [⟨n, (m.holdSlot n).generation⟩]) (hr : d.referralOpen = c.referralOpen)
    (ho : LotsOrdered d.lots) (hl : d.number ∉ noted' → d.loadKept) (hsub : ∀ n ∈ noted, n ≠ c.number → n ∈ noted')
    (hfree : (m.holdSlot n).record = none) (hx : x.card = c.number) (hparts : LotsOrdered x.parts)
    (hu : (m.merchant i).used = true) (hm : x.merchant = (m.merchant i).id) :
    ((m.openHold n x i (m.merchant i)).putCard slot d).Tally (hand + c.worth - d.worth - x.worth) owed noted' F where
  sorted := ((h.sorted.setHoldSlot ..).setMerchant ..).putCard slot d
  liabilities := by
    have h1 : ((m.openHold n x i (m.merchant i)).putCard slot d).sumHolds HoldRecord.worth =
        m.sumHolds HoldRecord.worth + x.worth := by
      have e := RecordMemory.sumHolds_setHoldSlot HoldRecord.worth h.sorted n { m.holdSlot n with record := some x }
      rw [hfree, Table.quantity_none, Table.quantity_some, sub_zero] at e
      rw [← e]
      cases slot <;> rfl
    have h2 : ((m.openHold n x i (m.merchant i)).putCard slot d).sumCards Card.worth =
        m.sumCards Card.worth - c.worth + d.worth := by
      have e := RecordMemory.sumCards_putCard Card.worth h.sorted slot d
      rw [hc, Table.quantity_some] at e
      rw [← e]
      cases slot <;> rfl
    rw [h1, h2, RecordMemory.putCard_funds]
    refine h.liabilities.trans ?_
    ring
  due := by
    have e := RecordMemory.sumMerchants_setMerchant (fun r => moneyInt r.position.due) h.sorted i
      { m.merchant i with openHolds := (m.merchant i).openHolds + 1 }
    have hu' : Merchant.used { m.merchant i with openHolds := (m.merchant i).openHolds + 1 } = true := hu
    rw [if_pos hu, if_pos hu', sub_add_cancel] at e
    have hs : ((m.openHold n x i (m.merchant i)).putCard slot d).sumMerchants (fun r => moneyInt r.position.due) =
        m.sumMerchants fun r => moneyInt r.position.due := by
      rw [← e]
      cases slot <;> rfl
    rw [hs, RecordMemory.putCard_funds]
    exact h.due
  cards := (h.cards.putCard h.sorted hc hn hp ho hl hsub).congr (by cases slot <;> rfl) (by cases slot <;> rfl)
    (by cases slot <;> rfl) (by cases slot <;> rfl)
  lists := (h.lists.opened h.sorted hc hn hfree hx hparts hh).congr (by cases slot <;> rfl) (by cases slot <;> rfl)
    (by cases slot <;> rfl)
  merchants := by
    have hm' : ((m.setHoldSlot n { m.holdSlot n with record := some x }).setMerchant i
        { m.merchant i with openHolds := (m.merchant i).openHolds + 1 }).MerchantsTally := by
      refine h.merchants.move h.sorted hu hu rfl (fun y hy => ?_) (fun y hy => ?_) ?_
      · rw [hfree] at hy
        cases hy
      · cases hy
        exact hm
      · rw [hfree]
        simp
    exact hm'.congr (RecordMemory.putCard_merchants ..) (RecordMemory.putCard_holds ..)
  flags := by
    have hf := h.flags.putCard (F' := F) h.cards hc hn (h.flags_same hc hr)
    exact ⟨fun y e he => hf.flags y e (by cases slot <;> exact he), fun n hn => by
      obtain ⟨y, e, he, hen⟩ := hf.present n hn
      exact ⟨y, e, by cases slot <;> exact he, hen⟩⟩

/-- Counts of holds are not negative. -/
theorem RecordMemory.holdsAt_nonneg (m : RecordMemory) (id : Nat) : 0 ≤ m.sumHolds (holdsAt id) := by
  have one : ∀ o : Option HoldRecord, 0 ≤ Table.quantity (holdsAt id) o := by
    rintro (_ | x)
    · exact le_rfl
    · show 0 ≤ holdsAt id x
      unfold holdsAt
      split <;> decide
  unfold RecordMemory.sumHolds Table.total
  refine List.sum_nonneg fun z hz => ?_
  obtain ⟨e, -, rfl⟩ := List.mem_map.mp hz
  exact one _

/-- A hold ended: its slot freed, its merchant's count lowered, its handle off its card (R28, R78). -/
theorem RecordMemory.Tally.freeHold (h : m.Tally hand owed noted F) {slot : Slot} {c d : Card} {n : Nat}
    {x : HoldRecord} {cause : EndCause} (hc : m.cardAt slot = some c) (hn : d.number = c.number)
    (hp : d.product = c.product) (hh : d.holds = c.holds.erase ⟨n, (m.holdSlot n).generation⟩)
    (hr : d.referralOpen = c.referralOpen) (ho : LotsOrdered d.lots) (hl : d.number ∉ noted' → d.loadKept)
    (hsub : ∀ n ∈ noted, n ≠ c.number → n ∈ noted') (hx : (m.holdSlot n).record = some x) (hxc : x.card = c.number) :
    ((m.freeHold n x cause).putCard slot d).Tally (hand + c.worth - d.worth + x.worth) owed noted' F := by
  obtain ⟨i, hu, hid⟩ := h.merchants.merchant n x hx
  have hfind : m.findMerchant x.merchant = some (i, m.merchant i) := hid ▸ h.merchants.findMerchant h.sorted hu
  obtain ⟨y, hy, hfree⟩ : ∃ y : HoldSlot, y.record = none ∧ m.freeHold n x cause =
      (m.setHoldSlot n y).setMerchant i { m.merchant i with openHolds := (m.merchant i).openHolds - 1 } :=
    ⟨_, rfl, RecordMemory.freeHold_eq (m := m) (n := n) rfl hfind⟩
  have hone : (1 : ℤ) ≤ (m.merchant i).openHolds := by
    have hsum := RecordMemory.sumHolds_setHoldSlot (holdsAt (m.merchant i).id) h.sorted n y
    have hnonneg := (m.setHoldSlot n y).holdsAt_nonneg (m.merchant i).id
    rw [hsum, ← h.merchants.counted i hu, hx, hy] at hnonneg
    simp only [Table.quantity_some, Table.quantity_none, holdsAt, hid, if_true] at hnonneg
    omega
  rw [hfree]
  exact {
    sorted := ((h.sorted.setHoldSlot ..).setMerchant ..).putCard slot d
    liabilities := by
      have h1 : (((m.setHoldSlot n y).setMerchant i { m.merchant i with
          openHolds := (m.merchant i).openHolds - 1 }).putCard slot d).sumHolds HoldRecord.worth =
          m.sumHolds HoldRecord.worth - x.worth := by
        have e := RecordMemory.sumHolds_setHoldSlot HoldRecord.worth h.sorted n y
        rw [hx, hy, Table.quantity_none, Table.quantity_some, add_zero] at e
        rw [← e]
        cases slot <;> rfl
      have h2 : (((m.setHoldSlot n y).setMerchant i { m.merchant i with
          openHolds := (m.merchant i).openHolds - 1 }).putCard slot d).sumCards Card.worth =
          m.sumCards Card.worth - c.worth + d.worth := by
        have e := RecordMemory.sumCards_putCard Card.worth h.sorted slot d
        rw [hc, Table.quantity_some] at e
        rw [← e]
        cases slot <;> rfl
      rw [h1, h2, RecordMemory.putCard_funds]
      refine h.liabilities.trans ?_
      ring
    due := by
      have e := RecordMemory.sumMerchants_setMerchant (fun r => moneyInt r.position.due) h.sorted i
        { m.merchant i with openHolds := (m.merchant i).openHolds - 1 }
      have hu' : Merchant.used { m.merchant i with openHolds := (m.merchant i).openHolds - 1 } = true := hu
      rw [if_pos hu, if_pos hu', sub_add_cancel] at e
      have hs : (((m.setHoldSlot n y).setMerchant i { m.merchant i with
          openHolds := (m.merchant i).openHolds - 1 }).putCard slot d).sumMerchants
          (fun r => moneyInt r.position.due) = m.sumMerchants fun r => moneyInt r.position.due := by
        rw [← e]
        cases slot <;> rfl
      rw [hs, RecordMemory.putCard_funds]
      exact h.due
    cards := (h.cards.putCard h.sorted hc hn hp ho hl hsub).congr (by cases slot <;> rfl) (by cases slot <;> rfl)
      (by cases slot <;> rfl) (by cases slot <;> rfl)
    lists := (h.lists.free h.cards h.sorted hc hn hx hxc hy hh).congr (by cases slot <;> rfl) (by cases slot <;> rfl)
      (by cases slot <;> rfl)
    merchants := by
      have hm' : ((m.setHoldSlot n y).setMerchant i
          { m.merchant i with openHolds := (m.merchant i).openHolds - 1 }).MerchantsTally := by
        refine h.merchants.move h.sorted hu hu rfl (fun z hz => ?_) (fun z hz => ?_) ?_
        · rw [hx] at hz
          cases hz
          exact hid.symm
        · rw [hy] at hz
          cases hz
        · rw [hx, hy, Table.quantity_some, Table.quantity_none]
          push_cast [show 1 ≤ (m.merchant i).openHolds by omega]
          ring
      exact hm'.congr (RecordMemory.putCard_merchants ..) (RecordMemory.putCard_holds ..)
    flags := by
      have hf := h.flags.putCard (F' := F) h.cards hc hn (h.flags_same hc hr)
      exact ⟨fun y e he => hf.flags y e (by cases slot <;> exact he), fun n hn => by
        obtain ⟨y, e, he, hen⟩ := hf.present n hn
        exact ⟨y, e, by cases slot <;> exact he, hen⟩⟩ }

end Sys2Proof.Machine
end

section
/-! A card being worked on: Record Memory tallies with the card as it stands written back, and what each operation of a
request on a card makes of that (R28 to R30, R37, R76 to R86, R93). -/

namespace Sys2Proof.Machine

variable {m : RecordMemory} {hand : Worth} {owed : Total} {noted noted' : List Nat} {F F' : Nat → Prop} {slot : Slot}
  {c d : Card}

/-! ### The card -/

theorem RecordMemory.putCard_cardAt (hs : m.Sorted) (hc : m.cardAt slot = some c) : m.putCard slot c = m := by
  cases slot with
  | main n => exact congrArg (fun t => { m with mainCards := t }) (Table.insert_find hs.main hc)
  | overflow n => exact congrArg (fun t => { m with poolCards := t }) (Table.insert_find hs.pool hc)

theorem RecordMemory.Tally.lots_ordered (h : (m.putCard slot c).Tally hand owed noted F) : LotsOrdered c.lots :=
  h.cards.lots slot c (m.cardAt_putCard_same slot c)

theorem RecordMemory.Tally.loadKept (h : (m.putCard slot c).Tally hand owed noted F) (hn : c.number ∉ noted) :
    c.loadKept := h.cards.load slot c (m.cardAt_putCard_same slot c) hn

theorem RecordMemory.Tally.referralOpen_iff (h : (m.putCard slot c).Tally hand owed noted F) :
    c.referralOpen = true ↔ F c.number := h.flags.flags slot c (m.cardAt_putCard_same slot c)

/-- The card replaced: the value it lost or gained is in hand. -/
theorem RecordMemory.Tally.rewrite (h : (m.putCard slot c).Tally hand owed noted F) (hd : c.Rewrites d)
    (ho : LotsOrdered d.lots) (hl : d.number ∉ noted' → d.loadKept) (hsub : ∀ n ∈ noted, n ≠ c.number → n ∈ noted')
    (hF : ∀ n, F' n ↔ if n = c.number then d.referralOpen = true else F n) :
    (m.putCard slot d).Tally (hand + c.worth - d.worth) owed noted' F' := by
  have e := h.putCard (m.cardAt_putCard_same slot c) hd ho hl hsub hF
  rwa [RecordMemory.putCard_putCard] at e

theorem RecordMemory.Tally.same_flags (h : (m.putCard slot c).Tally hand owed noted F)
    (hr : d.referralOpen = c.referralOpen) (n : Nat) : F n ↔ if n = c.number then d.referralOpen = true else F n :=
  h.flags_same (m.cardAt_putCard_same slot c) hr n

/-- What an update of a card's own flags and counters keeps of it. -/
structure Card.SameValue (c d : Card) : Prop extends c.Rewrites d where
  paid : d.paid = c.paid
  lots : d.lots = c.lots
  last : d.last = c.last

/-- The card's flags and counters replaced. -/
theorem RecordMemory.Tally.reflag (h : (m.putCard slot c).Tally hand owed noted F) (hd : c.SameValue d)
    (hF : ∀ n, F' n ↔ if n = c.number then d.referralOpen = true else F n) :
    (m.putCard slot d).Tally hand owed noted F' := by
  have hw : d.worth = c.worth := by
    rw [Card.worth, hd.paid, hd.lots]
    rfl
  refine (h.rewrite hd.toRewrites (hd.lots ▸ h.lots_ordered) (fun hn => ?_) (fun _ hn _ => hn) hF).cast ?_ rfl
  · rw [hd.number] at hn
    unfold Card.loadKept
    rw [hd.last, hd.paid]
    exact h.loadKept hn
  · rw [hw, add_sub_cancel_right]

theorem RecordMemory.Tally.sameValue (h : (m.putCard slot c).Tally hand owed noted F) (hd : c.SameValue d)
    (hr : d.referralOpen = c.referralOpen) : (m.putCard slot d).Tally hand owed noted F :=
  h.reflag hd (h.same_flags hr)

/-- The card replaced and the fund totals moved. -/
theorem RecordMemory.Tally.revalue (h : (m.putCard slot c).Tally hand owed noted F) (hd : c.Rewrites d)
    (hr : d.referralOpen = c.referralOpen) (ho : LotsOrdered d.lots) (hl : d.number ∉ noted' → d.loadKept)
    (hsub : ∀ n ∈ noted, n ≠ c.number → n ∈ noted') {f : Funds} {a : Worth} {b : Total}
    (ha : f.liabilities + c.worth = m.funds.liabilities + d.worth + a) (hb : f.due = m.funds.due + b) :
    (RecordMemory.putCard { m with funds := f } slot d).Tally (hand + a) (owed + b) noted' F := by
  have e := (h.rewrite hd ho hl hsub (h.same_flags hr)).setFunds (f := f) (a := a + d.worth - c.worth) (b := b)
    (by
      rw [RecordMemory.putCard_funds, eq_sub_of_add_eq ha]
      abel)
    (by rw [RecordMemory.putCard_funds, hb])
  rw [RecordMemory.putCard_withFunds]
  exact e.cast (by abel) rfl

/-- The card replaced and the liability totals moved alike. -/
theorem RecordMemory.Tally.exchange (h : (m.putCard slot c).Tally hand owed noted F) (hd : c.Rewrites d)
    (hr : d.referralOpen = c.referralOpen) (ho : LotsOrdered d.lots) (hl : d.number ∉ noted' → d.loadKept)
    (hsub : ∀ n ∈ noted, n ≠ c.number → n ∈ noted') {f : Funds}
    (ha : f.liabilities + c.worth = m.funds.liabilities + d.worth) (hb : f.due = m.funds.due) :
    (RecordMemory.putCard { m with funds := f } slot d).Tally hand owed noted' F :=
  (h.revalue hd hr ho hl hsub (ha.trans (add_zero _).symm) (hb.trans (add_zero _).symm)).cast (add_zero _).symm
    (add_zero _).symm

/-! ### The touch, and the change written back (R29, R30, R37) -/

theorem sweepCard_frame (day : Nat) (c : Card) :
    c.Rewrites (sweepCard day c).card ∧ (sweepCard day c).card.referralOpen = c.referralOpen ∧
      (sweepCard day c).card.paid = c.paid ∧ (sweepCard day c).card.last = c.last := by
  unfold sweepCard
  split <;> exact ⟨⟨rfl, rfl, rfl⟩, rfl, rfl, rfl⟩

theorem sweepCard_ordered (day : Nat) {c : Card} (h : LotsOrdered c.lots) : LotsOrdered (sweepCard day c).card.lots := by
  unfold sweepCard
  split
  · exact List.Pairwise.filter _ h
  · exact h

/-- A card swept to a day, to be written back, its write-offs in the fund totals. -/
theorem RecordMemory.Tally.sweepTo (h : m.Tally hand owed noted F) (hc : m.cardAt slot = some c) (day : Nat) :
    (RecordMemory.putCard { m with funds := (sweepCard day c).written.foldl Funds.writeOffLot m.funds } slot
      (sweepCard day c).card).Tally hand owed noted F := by
  have hp : (m.putCard slot c).Tally hand owed noted F := by rwa [RecordMemory.putCard_cardAt h.sorted hc]
  obtain ⟨hd, hr, hpaid, hlast⟩ := sweepCard_frame day c
  obtain ⟨hl, hdue⟩ := Funds.writeOffLots_spec (sweepCard day c).written m.funds
  refine hp.exchange hd hr (sweepCard_ordered _ hp.lots_ordered) (fun hn => ?_) (fun _ hn _ => hn) ?_ hdue
  · rw [hd.number] at hn
    unfold Card.loadKept
    rw [hpaid, hlast]
    exact hp.loadKept hn
  · rw [hl, ← sweepCard_worth day c]
    abel

/-- A touched card, to be written back. -/
theorem RecordMemory.Tally.touch (h : m.Tally hand owed noted F) (hc : m.cardAt slot = some c) :
    ((m.touch c).memory.putCard slot (m.touch c).card).Tally hand owed noted F := h.sweepTo hc m.today

/-- A value change's bookkeeping made (R29, R30). -/
theorem RecordMemory.Tally.commit (h : (m.putCard slot c).Tally hand owed noted F) (moved : Option Moved)
    (hm : ∀ v, moved = some v → v.1 = .load → v.2.1 ≤ c.paid) (hsub : ∀ n ∈ noted, n ≠ c.number → n ∈ noted') :
    (m.commit slot c moved).1.Tally hand owed noted' F := by
  refine (h.rewrite (d := c.changed m.today moved) ⟨rfl, rfl, rfl⟩ h.lots_ordered (fun _ => ?_) hsub
    (h.same_flags rfl)).cast ?_ rfl
  · intro v hv hk
    obtain ⟨w, hw, rfl⟩ := Option.map_eq_some_iff.mp hv
    exact hm w hw hk
  · show hand = hand + c.worth - c.worth
    rw [add_sub_cancel_right]

/-- A touched card written back by a change that moves no value of its own. -/
theorem RecordMemory.Tally.settle (h : (m.putCard slot c).Tally hand owed noted F) (wrote : Bool) :
    (m.settle slot c wrote).1.Tally hand owed noted F := by
  unfold RecordMemory.settle
  split
  · exact h.commit none (fun v hv => by cases hv) fun _ hn _ => hn
  · exact h

/-! ### Value that goes to a merchant, or comes back from a hold -/

theorem RecordMemory.Tally.unnoted_sub {n : Nat} : ∀ k ∈ n :: noted, k ≠ n → k ∈ noted := fun _ hk hne =>
  (List.mem_cons.mp hk).resolve_left hne

/-- Value in hand paid to a merchant (R22, R148). -/
theorem RecordMemory.Tally.payMerchant (h : (m.putCard slot c).Tally hand owed noted F) {i : Nat} {r : Merchant}
    (hi : m.merchant i = r) (hu : r.used = true) (paid : Nat) (parts : List Lot) :
    ((m.payMerchant i r paid parts).putCard slot c).Tally (hand - worth paid parts) owed noted F := by
  subst hi
  obtain ⟨hl, hdue⟩ := Funds.spend_spec m.funds paid parts
  have e := h.setFunds (f := m.funds.spend paid parts) (a := -worth paid parts) (b := money (paid + sumLots parts))
    (by rw [RecordMemory.putCard_funds, hl, sub_eq_add_neg]) (by rw [RecordMemory.putCard_funds, hdue])
  have e' := e.setMerchant (i := i) (r := { m.merchant i with
    position := (m.merchant i).position.accrue (paid + sumLots parts) parts }) (by rwa [← RecordMemory.putCard_withFunds,
      RecordMemory.merchant_putCard]) hu (by rw [← RecordMemory.putCard_withFunds, RecordMemory.merchant_putCard]; rfl)
    (by rw [← RecordMemory.putCard_withFunds, RecordMemory.merchant_putCard]; rfl)
  rw [← RecordMemory.putCard_withFunds, ← RecordMemory.putCard_setMerchant, RecordMemory.merchant_putCard] at e'
  refine e'.cast (sub_eq_add_neg ..) ?_
  have hpos : ((m.merchant i).position.accrue (paid + sumLots parts) parts).due =
      (m.merchant i).position.due + (paid + sumLots parts : Nat) := by
    simp only [Position.due, Position.accrue]
    ring
  show owed = owed + money (paid + sumLots parts) + moneyInt (m.merchant i).position.due -
    moneyInt ((m.merchant i).position.accrue (paid + sumLots parts) parts).due
  rw [hpos, moneyInt_add, moneyInt_natCast]
  abel

/-- A card that gains paid value still has that of its last LOAD. -/
theorem Card.loadKept.mono (h : c.loadKept) (hlast : d.last = c.last) (hpaid : c.paid ≤ d.paid) : d.loadKept :=
  fun v hv hk => (h v (hlast ▸ hv) hk).trans hpaid

/-- Held value in hand returned to the card (R15, R24). -/
theorem RecordMemory.Tally.returnValue (h : (m.putCard slot c).Tally hand owed noted F) (paid : Nat) (parts : List Lot) :
    ((m.returnValue c paid parts).1.putCard slot (m.returnValue c paid parts).2.1).Tally (hand - worth paid parts) owed
      noted F := by
  obtain ⟨hl, hdue⟩ := Funds.returnParts_spec (placeParts m.today c.lots parts).2 m.funds
  have hw := placeParts_worth m.today parts h.lots_ordered
  refine (h.revalue (d := { c with paid := c.paid + paid, lots := (placeParts m.today c.lots parts).1 }) ⟨rfl, rfl, rfl⟩
    rfl (placeParts_ordered m.today parts h.lots_ordered) (fun hn => (h.loadKept hn).mono rfl (Nat.le_add_right ..))
    (fun _ hn _ => hn) (a := -worth paid parts) (b := 0) ?_ ?_).cast (sub_eq_add_neg ..) (add_zero _).symm
  · show _ + (paidWorth c.paid + lotsWorth c.lots) = _ + (paidWorth (c.paid + paid) + lotsWorth _) +
      -(paidWorth paid + lotsWorth parts)
    rw [hl, map_add, eq_sub_of_add_eq hw]
    abel
  · rw [hdue, add_zero]

/-! ### Holds -/

theorem RecordMemory.putCard_freeHold (m : RecordMemory) (slot : Slot) (c : Card) (n : Nat) (x : HoldRecord)
    (cause : EndCause) : (m.putCard slot c).freeHold n x cause = (m.freeHold n x cause).putCard slot c := by
  unfold RecordMemory.freeHold
  simp only [RecordMemory.holdSlot_putCard, ← RecordMemory.putCard_setHoldSlot, RecordMemory.findMerchant_putCard]
  split
  · rw [RecordMemory.putCard_setMerchant]
  · rfl

/-- A hold of the card ended: its value is in hand (R28, R78). -/
theorem RecordMemory.Tally.endHold (h : (m.putCard slot c).Tally hand owed noted F) {n : Nat} {x : HoldRecord}
    (cause : EndCause) (hx : (m.holdSlot n).record = some x) (hxc : x.card = c.number) :
    ((m.freeHold n x cause).putCard slot (c.dropHold ⟨n, (m.holdSlot n).generation⟩)).Tally (hand + x.worth) owed noted
      F := by
  have e := h.freeHold (cause := cause) (d := c.dropHold ⟨n, (m.holdSlot n).generation⟩) (n := n) (x := x)
    (noted' := noted) (m.cardAt_putCard_same slot c) rfl rfl (by rw [RecordMemory.holdSlot_putCard]; rfl) rfl
    h.lots_ordered (fun hn => h.loadKept hn) (fun _ hn _ => hn) (by rwa [RecordMemory.holdSlot_putCard]) hxc
  rw [RecordMemory.putCard_freeHold, RecordMemory.putCard_putCard] at e
  refine e.cast ?_ rfl
  show hand + x.worth = hand + c.worth - c.worth + x.worth
  rw [add_sub_cancel_right]

/-- A hold given back to its touched card (R85, R86). -/
theorem RecordMemory.Tally.giveBack (h : m.Tally 0 owed noted F) (hc : m.cardAt slot = some c) {n : Nat}
    {x : HoldRecord} (cause : EndCause) (hx : (m.holdSlot n).record = some x) (hxc : x.card = c.number) :
    (m.giveBack n x slot c cause).1.Tally 0 owed noted F := by
  have ht := (h.touch hc).returnValue x.paid x.parts
  refine ((ht.endHold cause hx ?_).commit none (fun v hv => by cases hv) fun _ hn _ => hn).cast ?_ rfl
  · exact hxc.trans (sweepCard_frame m.today c).1.number.symm
  · show 0 = 0 - x.worth + x.worth
    rw [zero_sub, neg_add_cancel]

end Sys2Proof.Machine
end

section
/-! Redemptions, holds, captures and the members of a tender keep the records in tally (R13, R14, R75 to R86, R93). -/

namespace Sys2Proof.Machine

variable {m : RecordMemory} {hand : Worth} {owed : Total} {noted noted' : List Nat} {F F' : Nat → Prop} {slot : Slot}
  {c d : Card}

/-- A redemption carried out (R76). -/
theorem RecordMemory.Tally.redeem (h : (m.putCard slot c).Tally 0 owed noted F) {i : Nat} {r : Merchant} {amount : Nat}
    {purse : Purse} {upTo : Bool} (hi : m.merchant i = r) (hu : r.used = true) {d : Redeemed}
    (hd : m.redeem slot c i r amount purse upTo = .ok d) : d.memory.Tally 0 owed noted F := by
  unfold RecordMemory.redeem at hd
  split at hd
  · cases hd
  · rename_i s hs
    split at hd
    · cases hd
    · cases hd
      have hw : (c.draw s).worth = c.worth - worth s.paid s.parts := eq_sub_of_add_eq' (drawdown_worth hs)
      have e := (h.payMerchant hi hu s.paid s.parts).rewrite (d := c.draw s) (noted' := c.number :: noted)
        ⟨rfl, rfl, rfl⟩ (drawdown_ordered hs h.lots_ordered).2 (fun hn => absurd List.mem_cons_self hn)
        (fun _ hn _ => List.mem_cons_of_mem _ hn) (h.same_flags rfl)
      refine (e.commit (some (.redeem r.id r.period, s.paid, s.parts)) ?_ RecordMemory.Tally.unnoted_sub).cast ?_ rfl
      · rintro _ ⟨⟩ hk
        cases hk
      · rw [hw]
        abel

/-- What a placed hold is (R81). -/
structure RecordMemory.Places (m : RecordMemory) (c : Card) (p : Placed) : Prop where
  number : p.card.number = c.number
  referralOpen : p.card.referralOpen = c.referralOpen
  card : p.record.card = c.number
  free : (m.holdSlot p.handle.slot).record = none
  slots : ∀ k, p.memory.holdSlot k =
    if k = p.handle.slot then { m.holdSlot p.handle.slot with record := some p.record } else m.holdSlot k
  positive : 0 < p.record.total

/-- A hold placed, its card not yet written back: its bookkeeping is still to be made (R81). -/
theorem RecordMemory.Tally.place (h : (m.putCard slot c).Tally 0 owed noted F) {i : Nat} {r : Merchant} {amount : Nat}
    {purse : Purse} {upTo : Bool} {origin : HoldOrigin} {expires : Nat} (hi : m.merchant i = r) (hu : r.used = true)
    {p : Placed} (hp : m.place c i r amount purse upTo origin expires = .ok p) :
    (p.memory.putCard slot p.card).Tally 0 owed (c.number :: noted) F ∧ m.Places c p := by
  subst hi
  have hs : m.holds.rising = true := by
    have := h.sorted.holds
    rwa [RecordMemory.putCard_holds] at this
  unfold RecordMemory.place at hp
  split at hp
  · cases hp
  · split at hp
    · cases hp
    · rename_i n hn
      obtain ⟨-, -, hfree, -⟩ := firstIndex_spec hn
      rw [Option.isNone_iff_eq_none] at hfree
      split at hp
      · cases hp
      · rename_i s hd
        obtain ⟨share, -, -, hne, hpaid, hshare, -, -, hsum, -, -⟩ := drawdown_eq_some hd
        obtain ⟨hparts, hlots⟩ := drawdown_ordered hd h.lots_ordered
        have hw := drawdown_worth hd
        cases hp
        refine ⟨?_, ⟨rfl, rfl, rfl, hfree, fun k => RecordMemory.holdSlot_setHoldSlot hs n k _, ?_⟩⟩
        · have e := h.openHold (n := n) (i := i) (noted' := c.number :: noted)
            (d := { c.draw s with holds := c.holds ++ [⟨n, (m.holdSlot n).generation⟩] })
            (x := ⟨origin, c.number, (m.merchant i).id, s.paid, s.parts, m.clock, expires, (m.merchant i).period⟩)
            (m.cardAt_putCard_same slot c) rfl rfl (by rw [RecordMemory.holdSlot_putCard]) rfl hlots
            (fun hn => absurd List.mem_cons_self hn) (fun _ hn _ => List.mem_cons_of_mem _ hn)
            (by rwa [RecordMemory.holdSlot_putCard]) rfl hparts (by rwa [RecordMemory.merchant_putCard])
            (by rw [RecordMemory.merchant_putCard])
          rw [RecordMemory.merchant_putCard] at e
          unfold RecordMemory.openHold at e ⊢
          rw [RecordMemory.holdSlot_putCard, ← RecordMemory.putCard_setHoldSlot, ← RecordMemory.putCard_setMerchant,
            RecordMemory.putCard_putCard] at e
          refine e.cast ?_ rfl
          show (0 : Worth) = 0 + c.worth - (c.draw s).worth - worth s.paid s.parts
          rw [← hw]
          abel
        · show 0 < s.paid + sumLots s.parts
          omega

/-! ### Captures (R13, R14, R83, R84) -/

/-- What a plan takes, what it leaves and the card it draws on are worth what the hold and the card were. -/
theorem planCapture_worth (today : Nat) (p : Product) {c : Card} {x : HoldRecord} (asked : Nat)
    (hx : LotsOrdered x.parts) :
    worth (planCapture today p c x asked).paid (planCapture today p c x asked).parts +
        worth (planCapture today p c x asked).paidLeft (planCapture today p c x asked).partsLeft +
        (planCapture today p c x asked).card.worth = c.worth + x.worth := by
  unfold planCapture
  dsimp only
  split
  · rename_i hle
    obtain ⟨share, -, -, -, hpaid, -, hparts, hleft⟩ := splitHold_spec x p.order hle
    have hp : paidWorth (splitHold x (min asked (captureLimit x.total p.tolerance)) p.order).paid +
        paidWorth (splitHold x (min asked (captureLimit x.total p.tolerance)) p.order).paidLeft = paidWorth x.paid := by
      rw [← map_add]
      exact congrArg paidWorth (Nat.add_sub_cancel' hpaid)
    have hl : lotsWorth (splitHold x (min asked (captureLimit x.total p.tolerance)) p.order).parts +
        lotsWorth (splitHold x (min asked (captureLimit x.total p.tolerance)) p.order).partsLeft =
        lotsWorth x.parts := by
      rw [hparts, hleft]
      exact weigh_takeLots ..
    show paidWorth _ + lotsWorth _ + (paidWorth _ + lotsWorth _) + c.worth = c.worth + (paidWorth x.paid + lotsWorth x.parts)
    rw [← hp, ← hl]
    abel
  · split
    · show worth x.paid x.parts + (paidWorth 0 + lotsWorth []) + c.worth = c.worth + worth x.paid x.parts
      rw [map_zero, lotsWorth_nil]
      abel
    · rename_i d hd
      have hw := drawdown_worth hd
      have hc : lotsWorth (combineParts x.parts d.parts) = lotsWorth x.parts + lotsWorth d.parts :=
        weigh_combineParts _ _ _ hx.apart
      show paidWorth (x.paid + d.paid) + lotsWorth _ + (paidWorth 0 + lotsWorth []) + (c.draw d).worth =
        c.worth + (paidWorth x.paid + lotsWorth x.parts)
      rw [← hw, hc, map_zero, lotsWorth_nil, map_add, worth]
      abel

theorem planCapture_card (today : Nat) (p : Product) {c : Card} (x : HoldRecord) (asked : Nat) (ho : LotsOrdered c.lots) :
    c.Rewrites (planCapture today p c x asked).card ∧
      (planCapture today p c x asked).card.referralOpen = c.referralOpen ∧
      LotsOrdered (planCapture today p c x asked).card.lots := by
  unfold planCapture
  dsimp only
  split
  · exact ⟨⟨rfl, rfl, rfl⟩, rfl, ho⟩
  · split
    · exact ⟨⟨rfl, rfl, rfl⟩, rfl, ho⟩
    · exact ⟨⟨rfl, rfl, rfl⟩, rfl, (drawdown_ordered ‹_› ho).2⟩

/-- A CAPTURE of a present card's hold (R83, R84). -/
theorem RecordMemory.Tally.captureHold (h : m.Tally 0 owed noted F) (hc : m.cardAt slot = some c) {n i asked : Nat}
    {x : HoldRecord} {r : Merchant} (hx : (m.holdSlot n).record = some x) (hxc : x.card = c.number)
    (hi : m.merchant i = r) (hu : r.used = true) :
    (captureHold m n x slot c i r asked).1.Tally 0 owed noted F := by
  have ht := h.touch hc
  have hnum := (sweepCard_frame m.today c).1.number
  unfold Sys2Proof.Machine.captureHold
  dsimp only
  split
  · exact ht.settle _
  · obtain ⟨hd, hr, ho⟩ := planCapture_card m.today (m.product (m.touch c).card.product) x asked ht.lots_ordered
    have hw := planCapture_worth m.today (m.product (m.touch c).card.product) (c := (m.touch c).card) asked
      (h.lists.parts n x hx)
    generalize planCapture m.today (m.product (m.touch c).card.product) (m.touch c).card x asked = plan at hd hr ho hw ⊢
    have hnum' : x.card = plan.card.number := (hxc.trans hnum.symm).trans hd.number.symm
    have e1 := ht.rewrite (noted' := plan.card.number :: noted) hd ho (fun hn => absurd List.mem_cons_self hn)
      (fun _ hn _ => List.mem_cons_of_mem _ hn) (ht.same_flags hr)
    have e2 := e1.returnValue plan.paidLeft plan.partsLeft
    have e3 := e2.payMerchant hi hu plan.paid plan.parts
    have e4 := e3.endHold .settled hx hnum'
    refine (e4.commit (some (.capture r.id r.period, plan.paid, plan.parts)) ?_
      (RecordMemory.Tally.unnoted_sub (n := plan.card.number))).cast ?_ rfl
    · rintro _ ⟨⟩ hk
      cases hk
    · rw [eq_sub_of_add_eq' hw]
      abel

/-! ### Holds given back and expired -/

/-- A hold's card is found where it stands. -/
theorem RecordMemory.Tally.card_of_findCard {number : Nat} (hf : m.findCard number = some (slot, c)) :
    m.cardAt slot = some c ∧ c.number = number :=
  ⟨(RecordMemory.findCard_spec hf).2.1, (RecordMemory.findCard_spec hf).1⟩

/-- A hold expired (R86). -/
theorem RecordMemory.Tally.expireHold (h : m.Tally 0 owed noted F) {n : Nat} {x : HoldRecord}
    (hx : (m.holdSlot n).record = some x) : (m.expireHold n x).Tally 0 owed noted F := by
  unfold RecordMemory.expireHold
  split
  · rename_i slot c hf
    obtain ⟨hc, hn⟩ := RecordMemory.Tally.card_of_findCard hf
    exact h.giveBack hc .expired hx hn.symm
  · exact h

/-- A due hold stands in its slot. -/
theorem RecordMemory.dueHolds_record (hs : m.Sorted) {d : Nat × Nat × HoldRecord} (hd : d ∈ m.dueHolds) :
    (m.holdSlot d.2.1).record = some d.2.2 := by
  obtain ⟨⟨k, x⟩, hm, he⟩ := List.mem_filterMap.mp hd
  unfold RecordMemory.holdSlot Table.get
  cases hx : x.record with
  | none => simp [hx] at he
  | some y =>
    simp only [hx] at he
    split at he
    · cases he
      dsimp only
      rw [Table.find_of_mem hs.holds hm]
      exact hx
    · cases he

theorem RecordMemory.Tally.expireDue (ties : List Nat) (fuel : Nat) :
    ∀ {m : RecordMemory}, m.Tally 0 owed noted F → (m.expireDue ties fuel).Tally 0 owed noted F := by
  induction fuel with
  | zero => exact id
  | succ fuel ih =>
    intro m h
    have hdue : ∀ d, m.recoverNext ties = some d → d ∈ m.dueHolds := by
      intro d hd
      refine List.mem_of_mem_filter (p := fun d => m.dueHolds.all fun e => decide (d.1 ≤ e.1)) ?_
      unfold RecordMemory.recoverNext at hd
      split at hd
      · rename_i e he
        cases hd
        obtain ⟨_, _, hf⟩ := List.exists_of_findSome?_eq_some he
        exact List.mem_of_find?_eq_some hf
      · exact List.mem_of_mem_head? hd
    unfold RecordMemory.expireDue
    split
    · rename_i d hd
      exact ih (h.expireHold (RecordMemory.dueHolds_record h.sorted (hdue d hd)))
    · exact h

/-! ### The members of a tender at its settlement (R93) -/

/-- A member hold captured. -/
theorem RecordMemory.Tally.captureMember (h : m.Tally 0 owed noted F) {n merchant : Nat} {x : HoldRecord}
    (hx : (m.holdSlot n).record = some x) : (captureMember merchant m n x).Tally 0 owed noted F := by
  unfold Sys2Proof.Machine.captureMember
  split
  · rename_i i r slot c hm hf
    obtain ⟨hc, hn⟩ := RecordMemory.Tally.card_of_findCard hf
    obtain ⟨hi, hu, -⟩ := RecordMemory.merchant_of_findMerchant h.sorted hm
    have hp : (m.putCard slot c).Tally 0 owed noted F := by rwa [RecordMemory.putCard_cardAt h.sorted hc]
    refine ((hp.payMerchant hi hu x.paid x.parts).endHold .settled hx hn.symm).cast ?_ rfl
    show (0 : Worth) = 0 - x.worth + x.worth
    rw [zero_sub, neg_add_cancel]
  · exact h

/-- A member hold released. -/
theorem RecordMemory.Tally.releaseMember (h : m.Tally 0 owed noted F) {n : Nat} {x : HoldRecord}
    (hx : (m.holdSlot n).record = some x) : (releaseMember m n x).1.Tally 0 owed noted F := by
  unfold Sys2Proof.Machine.releaseMember
  split
  · rename_i slot c hf
    obtain ⟨hc, hn⟩ := RecordMemory.Tally.card_of_findCard hf
    have hp : (m.putCard slot c).Tally 0 owed noted F := by rwa [RecordMemory.putCard_cardAt h.sorted hc]
    refine ((hp.returnValue x.paid x.parts).endHold .settled hx hn.symm).cast ?_ rfl
    show (0 : Worth) = 0 - x.worth + x.worth
    rw [zero_sub, neg_add_cancel]
  · exact h

/-- A card changed in place by its flags, when it is present. -/
theorem RecordMemory.Tally.mapCard (h : m.Tally 0 owed noted F) (number : Nat) {f : Card → Card}
    (hf : ∀ c : Card, c.SameValue (f c)) (hF : ∀ slot c, m.findCard number = some (slot, c) →
      ∀ n, F' n ↔ if n = c.number then (f c).referralOpen = true else F n)
    (hno : m.findCard number = none → ∀ n, F' n ↔ F n) : (m.mapCard number f).Tally 0 owed noted F' := by
  unfold RecordMemory.mapCard
  split
  · rename_i slot c hfound
    obtain ⟨hc, -⟩ := RecordMemory.Tally.card_of_findCard hfound
    have hp : (m.putCard slot c).Tally 0 owed noted F := by rwa [RecordMemory.putCard_cardAt h.sorted hc]
    exact hp.reflag (hf c) (hF slot c hfound)
  · rename_i hfound
    have e : F' = F := funext fun n => propext (hno hfound n)
    rwa [e]

/-- A card's bookkeeping made at a tender's settlement (R29, R93). -/
theorem RecordMemory.Tally.noteChange {number : Nat} (h : m.Tally 0 owed (number :: noted) F) :
    (noteChange m number).Tally 0 owed noted F := by
  unfold Sys2Proof.Machine.noteChange RecordMemory.mapCard
  split
  · rename_i slot c hf
    obtain ⟨hc, hn⟩ := RecordMemory.Tally.card_of_findCard hf
    have hp : (m.putCard slot c).Tally 0 owed (number :: noted) F := by rwa [RecordMemory.putCard_cardAt h.sorted hc]
    refine hp.commit none (fun v hv => by cases hv) ?_
    rw [hn]
    exact RecordMemory.Tally.unnoted_sub
  · rename_i hf
    refine { h with cards := { h.cards with load := fun slot c hc hn => h.cards.load slot c hc fun hm => ?_ } }
    rcases List.mem_cons.mp hm with e | hm
    · have hfound := h.cards.found slot c hc
      rw [e, hf] at hfound
      cases hfound
    · exact hn hm

end Sys2Proof.Machine
end

section
/-! The requests that move value on a present card keep the records in tally (R40 to R45, R96 to R109). -/

namespace Sys2Proof.Machine

variable {m : RecordMemory} {owed : Total} {F : Nat → Prop} {slot : Slot} {c : Card}

theorem RecordMemory.Tally.flagCard (h : m.Tally 0 owed [] F) (hc : m.cardAt slot = some c) {f : Card → Card}
    (hf : ∀ c : Card, c.SameValue (f c)) (hr : ∀ c : Card, (f c).referralOpen = c.referralOpen) :
    (flagCard m slot c f).1.Tally 0 owed [] F := ((h.touch hc).sameValue (hf _) (hr _)).settle _

/-! ### LOAD and GRANT-BONUS -/

theorem RecordMemory.Tally.loadCard (h : m.Tally 0 owed [] F) (hc : m.cardAt slot = some c) (amount : Nat) :
    (loadCard m slot c amount).1.Tally 0 owed [] F := by
  have ht := h.touch hc
  unfold Sys2Proof.Machine.loadCard
  dsimp only
  split
  · exact ht.settle _
  · split
    · exact ht.settle _
    · split
      · exact ht.settle _
      · have e := ht.exchange (noted' := [(m.touch c).card.number]) (f := (m.touch c).memory.funds.takeIn amount)
          (d := { (m.touch c).card with
            paid := (m.touch c).card.paid + amount
            awaitingLoad := false
            expiry := (cappedDay m.today (m.product (m.touch c).card.product).cardLife).1
            base := .active }) ⟨rfl, rfl, rfl⟩ rfl ht.lots_ordered (fun hn => absurd List.mem_cons_self hn)
          (fun _ hn _ => absurd hn List.not_mem_nil) ?_ rfl
        · refine e.commit (some (.load, amount, [])) ?_ RecordMemory.Tally.unnoted_sub
          rintro _ ⟨⟩ -
          exact Nat.le_add_left ..
        · rw [Funds.liabilities_takeIn]
          show _ + paidWorth amount + (paidWorth _ + lotsWorth _) = _ + (paidWorth (_ + amount) + lotsWorth _)
          rw [map_add]
          abel

/-- A placed grant is one the lot-merge rule places by its steps 1 and 2. -/
theorem grantLot_mergeLot {lots lots' : List Lot} {p : Lot} (h : grantLot lots p = some lots') :
    ∃ step, mergeLot lots p = some (lots', step) := by
  unfold grantLot at h
  unfold mergeLot
  split at h
  · cases h
    exact ⟨1, by simp [*]⟩
  · split at h <;> cases h
    exact ⟨2, by simp [*]⟩

theorem RecordMemory.Tally.grantCard (h : m.Tally 0 owed [] F) (hc : m.cardAt slot = some c) (sponsor : Fin 8)
    (life amount : Nat) : (grantCard m slot c sponsor life amount).1.Tally 0 owed [] F := by
  have ht := h.touch hc
  unfold Sys2Proof.Machine.grantCard
  dsimp only
  split
  · exact ht.settle _
  · split
    · exact ht.settle _
    · split
      · exact ht.settle _
      · rename_i lots hg
        obtain ⟨step, hm⟩ := grantLot_mergeLot hg
        have hw := weigh_mergeLot bonusWorth ht.lots_ordered.apart hm
        have e := ht.exchange (noted' := []) (f := (m.touch c).memory.funds.grant sponsor amount)
          (d := { (m.touch c).card with lots := lots }) ⟨rfl, rfl, rfl⟩ rfl (mergeLot_ordered ht.lots_ordered hm)
          (fun hn => (ht.loadKept hn).mono rfl le_rfl) (fun _ hn _ => hn) ?_ rfl
        · exact e.commit none (fun _ hv => by cases hv) (fun _ hn _ => hn)
        · rw [Funds.liabilities_grant]
          show _ + bonusWorth sponsor amount + (paidWorth _ + lotsWorth _) = _ + (paidWorth _ + weigh bonusWorth lots)
          rw [hw]
          show _ = _ + (paidWorth _ + (lotsWorth _ + bonusWorth sponsor amount))
          abel

/-! ### REFUND -/

/-- The restored and converted parts of a refund are its parts. -/
theorem refund_parts_sum (p : Position) (expiry : Nat) (parts : List (Fin 8 × Nat)) :
    ((parts.map (capPart p)).map CappedPart.converted).sum + sumLots (restoredParts expiry (parts.map (capPart p))) =
      (parts.map Prod.snd).sum := by
  have hsum : ∀ l : List CappedPart, sumLots (restoredParts expiry l) = (l.map CappedPart.restored).sum := by
    intro l
    induction l with
    | nil => rfl
    | cons x l ih =>
      unfold restoredParts at ih ⊢
      rw [List.filter_cons]
      split
      · rw [List.map_cons, sumLots_cons, ih, List.map_cons, List.sum_cons]
      · rename_i hx
        have hx0 : x.restored = 0 := by simpa using hx
        rw [ih, List.map_cons, List.sum_cons, hx0, zero_add]
  rw [hsum]
  induction parts with
  | nil => rfl
  | cons x rest ih =>
    have hcap : (capPart p x).converted + (capPart p x).restored = x.2 := by
      simp only [capPart]
      omega
    simp only [List.map_cons, List.sum_cons]
    omega

/-- Parts all of which join a lot, moved from due back to the liabilities. -/
theorem Funds.unspendJoined_spec (f : Funds) (parts : List Lot) :
    ((parts.map fun l => (l, PartFate.joined 0)).foldl Funds.unspendPart f).liabilities = f.liabilities + lotsWorth parts ∧
      ((parts.map fun l => (l, PartFate.joined 0)).foldl Funds.unspendPart f).due = f.due - money (sumLots parts) := by
  obtain ⟨h1, h2⟩ := Funds.unspendParts_spec (parts.map fun l => (l, PartFate.joined 0)) f
  have hw : writtenParts (parts.map fun l => (l, PartFate.joined 0)) = [] := by
    unfold writtenParts
    rw [List.filter_eq_nil_iff.mpr]
    · rfl
    · intro x hx
      obtain ⟨l, -, rfl⟩ := List.mem_map.mp hx
      simp
  have hf : (parts.map fun l => (l, PartFate.joined 0)).map Prod.fst = parts := by
    rw [List.map_map]
    exact List.map_id _
  rw [hw, hf, lotsWorth_nil, add_zero] at h1
  rw [hf] at h2
  exact ⟨h1, h2⟩

/-- A position written into a used record that is tallied with a card being worked on. -/
theorem RecordMemory.Tally.reposition {hand : Worth} {noted : List Nat} (h : (m.putCard slot c).Tally hand owed noted F)
    {i : Nat} {r : Merchant} (hi : m.merchant i = r) (hu : r.used = true) (p : Position) :
    ((m.setMerchant i { r with position := p }).putCard slot c).Tally hand
      (owed + moneyInt r.position.due - moneyInt p.due) noted F := by
  subst hi
  have e := h.setMerchant (i := i) (r := { m.merchant i with position := p }) (by rwa [RecordMemory.merchant_putCard]) hu
    (by rw [RecordMemory.merchant_putCard]) (by rw [RecordMemory.merchant_putCard])
  rwa [← RecordMemory.putCard_setMerchant, RecordMemory.merchant_putCard] at e

theorem RecordMemory.Tally.refundCard (h : m.Tally 0 owed [] F) (hc : m.cardAt slot = some c) {i : Nat} {r : Merchant}
    (hi : m.merchant i = r) (hu : r.used = true) {paid total : Nat} {parts : List (Fin 8 × Nat)}
    (htotal : total = paid + (parts.map Prod.snd).sum) :
    (refundCard m slot c i r paid parts total).1.Tally 0 owed [] F := by
  have ht := h.touch hc
  unfold Sys2Proof.Machine.refundCard
  dsimp only
  split
  · exact ht.settle _
  · split
    · exact ht.settle _
    · split
      · exact ht.settle _
      · split
        · exact ht.settle _
        · split
          · exact ht.settle _
          · rename_i lots steps hrestore
            have hsum := refund_parts_sum r.position
              (cappedDay (m.touch c).memory.today ((m.touch c).memory.product (m.touch c).card.product).refundLife).1 parts
            generalize (parts.map (capPart r.position)).map CappedPart.converted = converted at hsum ⊢
            generalize restoredParts (cappedDay (m.touch c).memory.today
              ((m.touch c).memory.product (m.touch c).card.product).refundLife).1 (parts.map (capPart r.position)) =
                restored at hrestore hsum ⊢
            obtain ⟨ho, hw⟩ := restoreLots_spec ht.lots_ordered hrestore
            obtain ⟨hl, hdue⟩ := Funds.unspendJoined_spec
              ((m.touch c).memory.funds.unspendPaid (paid + converted.sum)) restored
            refine RecordMemory.Tally.commit (noted := []) (c := { (m.touch c).card with
              paid := (m.touch c).card.paid + (paid + converted.sum), lots := lots }) ?_ none
              (fun _ hv => by cases hv) (fun _ hn _ => hn)
            have e := ht.revalue (f := (restored.map fun l => (l, PartFate.joined 0)).foldl Funds.unspendPart
                ((m.touch c).memory.funds.unspendPaid (paid + converted.sum)))
              (d := { (m.touch c).card with paid := (m.touch c).card.paid + (paid + converted.sum), lots := lots })
              ⟨rfl, rfl, rfl⟩ rfl ho
              (fun hn => (ht.loadKept hn).mono rfl (Nat.le_add_right ..)) (fun _ hn _ => hn) (a := 0)
              (b := -money total) ?_ ?_
            · refine (e.reposition hi hu _).cast (add_zero _).symm ?_
              have hpos : Position.due { r.position with
                  refunded := r.position.refunded + total
                  returned := returnSponsors r.position.returned (parts.map (capPart r.position)) } =
                  r.position.due - total := by
                simp only [Position.due]
                ring
              rw [hpos, moneyInt_sub, moneyInt_natCast]
              abel
            · rw [hl, Funds.liabilities_unspendPaid]
              show _ + paidWorth _ + lotsWorth restored + (paidWorth _ + lotsWorth _) =
                _ + (paidWorth (_ + _) + lotsWorth lots) + 0
              rw [hw, map_add paidWorth (m.touch c).card.paid]
              abel
            · rw [hdue, Funds.due_unspendPaid, htotal, ← hsum, ← add_assoc, money_add (paid + converted.sum)]
              abel

/-! ### VOID-LAST -/

theorem RecordMemory.Tally.voidLoadMovement (h : (m.putCard slot c).Tally 0 owed [] F) {v : Movement}
    (hv : v.paid ≤ c.paid) : (voidLoadMovement m slot c v).1.Tally 0 owed [] F := by
  have e := h.exchange (noted' := [c.number]) (f := m.funds.voidLoad v.paid) (d := { c with paid := c.paid - v.paid })
    ⟨rfl, rfl, rfl⟩ rfl h.lots_ordered (fun hn => absurd List.mem_cons_self hn)
    (fun _ hn _ => absurd hn List.not_mem_nil) ?_ rfl
  · exact e.commit none (fun _ hv => by cases hv) RecordMemory.Tally.unnoted_sub
  · have hp : paidWorth c.paid = paidWorth (c.paid - v.paid) + paidWorth v.paid := by
      rw [← map_add, Nat.sub_add_cancel hv]
    rw [Funds.liabilities_voidLoad]
    show _ - paidWorth v.paid + (paidWorth c.paid + lotsWorth c.lots) =
      _ + (paidWorth (c.paid - v.paid) + lotsWorth c.lots)
    rw [hp]
    abel

theorem RecordMemory.Tally.voidSpentMovement (h : (m.putCard slot c).Tally 0 owed [] F) (v : Movement) {i : Nat}
    {r : Merchant} (hi : m.merchant i = r) (hu : r.used = true) :
    (voidSpentMovement m slot c v i r).1.Tally 0 owed [] F := by
  obtain ⟨hl, hdue⟩ := Funds.unspendParts_spec (placeParts m.today c.lots v.parts).2 (m.funds.unspendPaid v.paid)
  rw [placeParts_fst] at hl hdue
  have hw := placeParts_worth m.today v.parts h.lots_ordered
  unfold Sys2Proof.Machine.voidSpentMovement
  refine RecordMemory.Tally.commit (noted := []) (c := { c with
    paid := c.paid + v.paid, lots := (placeParts m.today c.lots v.parts).1 }) ?_ none (fun _ hv => by cases hv)
      (fun _ hn _ => hn)
  have e := h.revalue (f := (placeParts m.today c.lots v.parts).2.foldl Funds.unspendPart (m.funds.unspendPaid v.paid))
    (d := { c with paid := c.paid + v.paid, lots := (placeParts m.today c.lots v.parts).1 }) ⟨rfl, rfl, rfl⟩ rfl
    (placeParts_ordered m.today v.parts h.lots_ordered) (fun hn => (h.loadKept hn).mono rfl (Nat.le_add_right ..))
    (fun _ hn _ => hn) (a := 0) (b := -money v.amount) ?_ ?_
  · refine (e.reposition hi hu _).cast (add_zero _).symm ?_
    have hpos : (r.position.unaccrue v.amount v.parts).due = r.position.due - v.amount := by
      simp only [Position.due, Position.unaccrue]
      ring
    rw [hpos, moneyInt_sub, moneyInt_natCast]
    abel
  · rw [eq_sub_of_add_eq hl, Funds.liabilities_unspendPaid]
    show _ + (paidWorth c.paid + lotsWorth c.lots) = _ + (paidWorth (c.paid + v.paid) + lotsWorth _) + 0
    rw [eq_sub_of_add_eq hw, map_add]
    abel
  · rw [hdue, Funds.due_unspendPaid, Movement.amount, money_add]
    abel

theorem RecordMemory.Tally.voidSpent (h : (m.putCard slot c).Tally 0 owed [] F) (wrote : Bool) (v : Movement)
    (merchant atMerchant period : Nat) :
    (voidSpent m slot c wrote v merchant atMerchant period).1.Tally 0 owed [] F := by
  unfold Sys2Proof.Machine.voidSpent
  split
  · exact h.settle _
  · split
    · exact h.settle _
    · rename_i i r hm
      split
      · exact h.settle _
      · have hf : (m.putCard slot c).findMerchant atMerchant = some (i, r) := by
          rw [RecordMemory.findMerchant_putCard]
          unfold RecordMemory.holdsMovement at hm
          split at hm
          · split at hm <;> cases hm
            assumption
          · cases hm
        obtain ⟨hi, hu, -⟩ := RecordMemory.merchant_of_findMerchant h.sorted hf
        rw [RecordMemory.merchant_putCard] at hi
        exact h.voidSpentMovement v hi hu

theorem RecordMemory.Tally.voidCard (h : m.Tally 0 owed [] F) (hc : m.cardAt slot = some c) (merchant stamp : Nat) :
    (voidCard m slot c merchant stamp).1.Tally 0 owed [] F := by
  have ht := h.touch hc
  unfold Sys2Proof.Machine.voidCard
  dsimp only
  split
  · exact ht.settle _
  · rename_i v hv
    have hlast : (m.touch c).card.last = some v := by
      unfold lastAfterTouch at hv
      split at hv
      · cases hv
      · exact hv
    split
    · exact ht.settle _
    · split
      · rename_i hk
        exact ht.voidLoadMovement (ht.loadKept List.not_mem_nil v hlast hk)
      · exact ht.voidSpent _ _ _ _ _
      · exact ht.voidSpent _ _ _ _ _

end Sys2Proof.Machine
end

section
/-! Cards placed and removed, products and merchants defined, closed and cut, the sweep's step, and the memory a recovery or a
FORMAT starts from keep the records in tally (R34, R35, R38, R39, R47, R54 to R57, R143 to R146, R152 to R154, R179). -/

namespace Sys2Proof.Machine

variable {m m' : RecordMemory} {hand : Worth} {owed : Total} {noted noted' : List Nat} {F F' : Nat → Prop} {slot : Slot}
  {c d : Card}

/-! ### Lookups (R33) -/

/-- The card of a slot on a lookup's way, when it has the number. -/
def RecordMemory.probe (m : RecordMemory) (number : Nat) (slot : Slot) : Option (Slot × Card) :=
  (m.cardAt slot).bind fun c => if c.number = number then some (slot, c) else none

theorem RecordMemory.findCard_eq (m : RecordMemory) (number : Nat) :
    m.findCard number = (m.slotsOf (bucketOf number)).findSome? (m.probe number) := by
  unfold RecordMemory.findCard
  congr 1
  funext slot
  unfold RecordMemory.probe
  cases m.cardAt slot <;> rfl

/-- A card on the way of its lookup, alone with its number, is found. -/
theorem RecordMemory.findCard_of_unique (hr : slot ∈ m.slotsOf (bucketOf c.number)) (hc : m.cardAt slot = some c)
    (hu : ∀ y e, m.cardAt y = some e → e.number = c.number → y = slot) : m.findCard c.number = some (slot, c) := by
  cases hf : m.findCard c.number with
  | none =>
    rw [RecordMemory.findCard_eq] at hf
    have := List.findSome?_eq_none_iff.mp hf slot hr
    simp [RecordMemory.probe, hc] at this
  | some x =>
    obtain ⟨y, e⟩ := x
    obtain ⟨hn, he, -⟩ := RecordMemory.findCard_spec hf
    cases hu y e he hn
    rw [hc] at he
    cases he
    rfl

/-- Every present card stands on the way of its lookup. -/
theorem RecordMemory.CardsTally.reached (h : m.CardsTally noted) (hc : m.cardAt slot = some c) :
    slot ∈ m.slotsOf (bucketOf c.number) := (RecordMemory.findCard_spec (h.found slot c hc)).2.2

theorem RecordMemory.mem_slotsOf (m : RecordMemory) (b : Nat) (y : Slot) : y ∈ m.slotsOf b ↔
    (∃ k, y = .main k ∧ 4 * b ≤ k ∧ k < 4 * b + 4) ∨ ∃ k, y = .overflow k ∧ k ∈ m.chain b := by
  simp only [slotsOf, List.mem_append, List.mem_cons, List.mem_map, List.not_mem_nil, or_false]
  constructor
  · rintro (h | ⟨k, hk, rfl⟩)
    · left
      rcases h with rfl | rfl | rfl | rfl <;> exact ⟨_, rfl, by omega⟩
    · exact Or.inr ⟨k, rfl, hk⟩
  · rintro (⟨k, rfl, h1, h2⟩ | ⟨k, rfl, hk⟩)
    · left
      simp only [Slot.main.injEq]
      omega
    · exact Or.inr ⟨k, hk, rfl⟩

/-! ### A card placed (R34, R39) -/

theorem RecordMemory.cardAt_placeCard (m : RecordMemory) (slot y : Slot) (c : Card) :
    (m.placeCard slot c).cardAt y = if y = slot then some c else m.cardAt y := by
  rw [← RecordMemory.cardAt_putCard]
  cases slot <;> cases y <;> rfl

theorem RecordMemory.chain_placeCard (hs : m.Sorted) (slot : Slot) (c : Card) (b k : Nat) (hk : k ∈ m.chain b) :
    k ∈ (m.placeCard slot c).chain b := by
  cases slot with
  | main n => exact hk
  | overflow n =>
    unfold RecordMemory.chain RecordMemory.placeCard
    dsimp only
    by_cases hb : b = bucketOf c.number
    · rw [hb, Table.get_set_same _ _ _ hs.chains]
      exact List.mem_append_left _ (hb ▸ hk)
    · rw [Table.get_set_other _ _ _ hb]
      exact hk

/-- The place R34 gives is free, and on the way of the new card's lookup. -/
theorem RecordMemory.freePlace_spec (hs : m.Sorted) (hf : m.freePlace (bucketOf c.number) = some slot) :
    m.cardAt slot = none ∧ slot ∈ (m.placeCard slot c).slotsOf (bucketOf c.number) := by
  unfold RecordMemory.freePlace at hf
  split at hf
  · rename_i n hn
    cases hf
    obtain ⟨h1, h2, h3, -⟩ := firstIndex_spec hn
    exact ⟨Option.isNone_iff_eq_none.mp h3, (RecordMemory.mem_slotsOf ..).mpr (Or.inl ⟨n, rfl, h1, h2⟩)⟩
  · obtain ⟨n, hn, rfl⟩ := Option.map_eq_some_iff.mp hf
    obtain ⟨-, -, h3, -⟩ := firstIndex_spec hn
    refine ⟨Option.isNone_iff_eq_none.mp h3, (RecordMemory.mem_slotsOf ..).mpr (Or.inr ⟨n, rfl, ?_⟩)⟩
    unfold RecordMemory.chain RecordMemory.placeCard
    dsimp only
    rw [Table.get_set_same _ _ _ hs.chains]
    simp

/-- A new card placed, and counted in its product (R39). -/
theorem RecordMemory.CardsTally.place (h : m.CardsTally noted) (hs : m.Sorted) (hnew : m.findCard c.number = none)
    (hf : m.freePlace (bucketOf c.number) = some slot) (hactive : (m.product c.product).state = .active)
    (ho : LotsOrdered c.lots) (hl : c.loadKept) :
    ((m.placeCard slot c).setProduct c.product
      { m.product c.product with issued := (m.product c.product).issued + 1 }).CardsTally noted := by
  obtain ⟨hfree, hway⟩ := RecordMemory.freePlace_spec hs hf
  have hcard : ∀ y, ((m.placeCard slot c).setProduct c.product { m.product c.product with
      issued := (m.product c.product).issued + 1 }).cardAt y = if y = slot then some c else m.cardAt y := fun y => by
    rw [← RecordMemory.cardAt_placeCard]
    cases y <;> rfl
  have hproduct : ∀ i, ((m.placeCard slot c).setProduct c.product { m.product c.product with
      issued := (m.product c.product).issued + 1 }).product i = if i = c.product then { m.product c.product with
        issued := (m.product c.product).issued + 1 } else m.product i := fun i => by
    rw [RecordMemory.product_setProduct (hs.placeCard slot c)]
    cases slot <;> rfl
  have hother : ∀ y e, m.cardAt y = some e → e.number ≠ c.number := by
    intro y e he hn
    have := h.found y e he
    rw [hn, hnew] at this
    cases this
  refine ⟨fun y e he => ?_, fun i => ?_, fun i => ?_, fun y e he => ?_, fun y e he => ?_⟩
  · refine RecordMemory.findCard_of_unique ?_ he fun z g hg hn => ?_
    · rw [hcard] at he
      split at he
      · rename_i hy
        cases he
        rw [hy]
        exact hway
      · refine (RecordMemory.mem_slotsOf ..).mpr (((RecordMemory.mem_slotsOf ..).mp (h.reached he)).imp id ?_)
        rintro ⟨k, rfl, hk⟩
        exact ⟨k, rfl, RecordMemory.chain_placeCard hs slot c _ k hk⟩
    · rw [hcard] at he hg
      split at he <;> split at hg <;> rename_i h1 h2
      · rw [h1, h2]
      · cases he
        exact absurd hn (hother z g hg)
      · cases hg
        exact absurd hn.symm (hother y e he)
      · exact h.same_slot hg he hn
  · have hsum := RecordMemory.sumCards_placeCard (fun e : Card => if e.product = i then (1 : ℤ) else 0) hs slot c
    rw [hfree, Table.quantity_none, sub_zero, ← h.issued i] at hsum
    rw [hproduct]
    refine Eq.trans ?_ hsum.symm
    split
    · rename_i e
      simp [e]
    · rename_i e
      simp [Ne.symm e]
  · rw [hproduct]
    split
    · intro hst
      rw [hactive] at hst
      cases hst
    · exact h.unused i
  · rw [hcard] at he
    split at he
    · cases he
      exact ho
    · exact h.lots y e he
  · rw [hcard] at he
    split at he
    · cases he
      exact fun _ => hl
    · exact h.load y e he

/-- An ISSUE that passes its checks (R38, R39). -/
theorem RecordMemory.Tally.issueCard (h : m.Tally 0 owed [] F) {number product paid : Nat}
    {bonus : Option (Fin 8 × Nat × Nat)} (hnew : m.findCard number = none)
    (hf : m.freePlace (bucketOf number) = some slot) (hactive : (m.product product).state = .active) :
    (issueCard m slot number product paid bonus).1.Tally 0 owed [] F := by
  have hlots : LotsOrdered (issueLot m (m.product product) bonus).1 := by
    cases bonus with
    | none => exact List.Pairwise.nil
    | some b => exact List.pairwise_singleton _ _
  generalize hL : (issueLot m (m.product product) bonus).1 = lots at hlots
  generalize hC : newCard m number product paid (m.product product) lots = c
  have hcn : c.number = number := by rw [← hC]; rfl
  have hcp : c.product = product := by rw [← hC]; rfl
  have hcl : c.lots = lots := by rw [← hC]; rfl
  have hch : c.holds = [] := by rw [← hC]; rfl
  have hcr : c.referralOpen = false := by rw [← hC]; rfl
  have hcw : c.worth = worth paid lots := by rw [← hC]; rfl
  have hload : c.loadKept := by
    rw [← hC]
    intro v hv hk
    unfold newCard at hv
    dsimp only at hv
    split at hv
    · cases hv
      exact le_rfl
    · cases hv
  subst hcn hcp
  obtain ⟨hfree, -⟩ := RecordMemory.freePlace_spec h.sorted hf
  have hmem : (Sys2Proof.Machine.issueCard m slot c.number c.product paid bonus).1 = { (m.placeCard slot c).setProduct c.product
      { m.product c.product with issued := (m.product c.product).issued + 1 } with
      funds := lots.foldl (fun (f : Funds) (l : Lot) => f.grant l.sponsor l.amount) (m.funds.takeIn paid) } := by
    unfold Sys2Proof.Machine.issueCard
    simp only [hL, hC]
    cases slot <;> rfl
  rw [hmem]
  have hcard : ∀ y, RecordMemory.cardAt { (m.placeCard slot c).setProduct c.product { m.product c.product with
      issued := (m.product c.product).issued + 1 } with
      funds := lots.foldl (fun (f : Funds) (l : Lot) => f.grant l.sponsor l.amount) (m.funds.takeIn paid) } y =
      if y = slot then some c else m.cardAt y := fun y => by
    rw [← RecordMemory.cardAt_placeCard]
    cases y <;> rfl
  have hne : ∀ y e, m.cardAt y = some e → y ≠ slot := by
    rintro y e he rfl
    rw [hfree] at he
    cases he
  have hnum : ∀ y e, m.cardAt y = some e → e.number ≠ c.number := by
    intro y e he hn
    have := h.cards.found y e he
    rw [hn, hnew] at this
    cases this
  have hflag : ¬F c.number := fun hF => by
    obtain ⟨y, e, he, hn⟩ := h.flags.present _ hF
    exact hnum y e he hn
  obtain ⟨hg, hgdue⟩ := Funds.grants_spec lots (m.funds.takeIn paid)
  exact {
    sorted := { (h.sorted.placeCard slot c).setProduct c.product _ with }
    liabilities := by
      show (lots.foldl (fun f l => f.grant l.sponsor l.amount) (m.funds.takeIn paid)).liabilities =
        (m.placeCard slot c).sumCards Card.worth + (m.placeCard slot c).sumHolds HoldRecord.worth + 0
      have hh : (m.placeCard slot c).sumHolds HoldRecord.worth = m.sumHolds HoldRecord.worth := by cases slot <;> rfl
      rw [hg, Funds.liabilities_takeIn, h.liabilities, RecordMemory.sumCards_placeCard _ h.sorted, hfree, hh, hcw,
        Table.quantity_none, worth]
      abel
    due := by
      refine hgdue.trans (h.due.trans ?_)
      cases slot <;> rfl
    cards := (h.cards.place h.sorted hnew hf hactive (hcl ▸ hlots) hload).congr rfl rfl rfl rfl
    lists := by
      refine ⟨fun n x hx => ?_, fun y e he => ?_, fun n x hx => ?_⟩
      · obtain ⟨y, e, he, hn, hk⟩ := h.lists.listed n x (by cases slot <;> exact hx)
        refine ⟨y, e, ?_, hn, by cases slot <;> exact hk⟩
        rw [hcard, if_neg (hne y e he)]
        exact he
      · rw [hcard] at he
        split at he
        · cases he
          rw [hch]
          exact ⟨List.nodup_nil, fun k hk => absurd hk List.not_mem_nil⟩
        · obtain ⟨h1, h2⟩ := h.lists.named y e he
          exact ⟨h1, fun k hk => by cases slot <;> exact h2 k hk⟩
      · exact h.lists.parts n x (by cases slot <;> exact hx)
    merchants := h.merchants.congr (by cases slot <;> rfl) (by cases slot <;> rfl)
    flags := by
      refine ⟨fun y e he => ?_, fun n hn => ?_⟩
      · rw [hcard] at he
        split at he
        · cases he
          rw [hcr]
          exact ⟨fun h => absurd h (by decide), fun h => absurd h hflag⟩
        · exact h.flags.flags y e he
      · obtain ⟨y, e, he, hen⟩ := h.flags.present n hn
        refine ⟨y, e, ?_, hen⟩
        rw [hcard, if_neg (hne y e he)]
        exact he }

/-! ### A card removed (R35, R47) -/

theorem Table.erase_insert {α : Type} {t : Table α} (h : t.rising = true) (k : Nat) (v : α) :
    (t.insert k v).erase k = t.erase k := by
  refine Table.ext_find (Table.rising_erase k (Table.rising_insert k v h)) (Table.rising_erase k h) fun i => ?_
  by_cases hi : i = k
  · rw [hi, Table.find_erase_same k (Table.rising_insert k v h), Table.find_erase_same k h]
  · rw [Table.find_erase_other _ hi, Table.find_erase_other _ hi, Table.find_insert_other _ _ hi]

theorem RecordMemory.removeCard_putCard (hs : m.Sorted) (slot : Slot) (c : Card) :
    (m.putCard slot c).removeCard slot c = m.removeCard slot c := by
  cases slot with
  | main n => exact congrArg (fun t => { m with mainCards := t }) (Table.erase_insert hs.main n c)
  | overflow n =>
    exact congrArg (fun t => { m with
      poolCards := t
      chains := m.chains.set [] (bucketOf c.number) ((m.chain (bucketOf c.number)).erase n) })
      (Table.erase_insert hs.pool n c)

theorem RecordMemory.cardAt_removeCard (hs : m.Sorted) (slot y : Slot) (c : Card) :
    (m.removeCard slot c).cardAt y = if y = slot then none else m.cardAt y := by
  cases slot with
  | main n =>
    cases y with
    | main k =>
      simp only [removeCard, cardAt, Slot.main.injEq]
      split
      · rename_i e
        rw [e, Table.find_erase_same n hs.main]
      · rename_i e
        exact Table.find_erase_other _ e
    | overflow k => rfl
  | overflow n =>
    cases y with
    | main k => rfl
    | overflow k =>
      simp only [removeCard, cardAt, Slot.overflow.injEq]
      split
      · rename_i e
        rw [e, Table.find_erase_same n hs.pool]
      · rename_i e
        exact Table.find_erase_other _ e

/-- The chain of a lookup still has every pool slot but the one unlinked. -/
theorem RecordMemory.chain_removeCard (hs : m.Sorted) (slot : Slot) (c : Card) (b k : Nat) (hk : k ∈ m.chain b)
    (hne : Slot.overflow k ≠ slot) : k ∈ (m.removeCard slot c).chain b := by
  cases slot with
  | main n => exact hk
  | overflow n =>
    unfold RecordMemory.chain RecordMemory.removeCard
    dsimp only
    by_cases hb : b = bucketOf c.number
    · rw [hb, Table.get_set_same _ _ _ hs.chains]
      refine (List.mem_erase_of_ne fun e => hne (by rw [e])).mpr (hb ▸ hk)
    · rw [Table.get_set_other _ _ _ hb]
      exact hk

theorem RecordMemory.sumCards_nonneg (m : RecordMemory) {f : Card → ℤ} (hf : ∀ c, 0 ≤ f c) : 0 ≤ m.sumCards f := by
  have one : ∀ t : Table Card, 0 ≤ Table.total f t := fun t => List.sum_nonneg fun z hz => by
    obtain ⟨e, -, rfl⟩ := List.mem_map.mp hz
    exact hf _
  exact add_nonneg (one _) (one _)

/-- The memory that a closure's card is taken from. -/
def RecordMemory.uncounted (m : RecordMemory) (i : Nat) : RecordMemory :=
  m.setProduct i { m.product i with issued := (m.product i).issued - 1 }

theorem RecordMemory.Sorted.uncounted (h : m.Sorted) (i : Nat) : (m.uncounted i).Sorted := h.setProduct ..

/-- A card without holds or an open referral removed, and no longer counted in its product (R47). -/
theorem RecordMemory.Tally.removeCard (h : m.Tally hand owed [] F) (hc : m.cardAt slot = some c) (hh : c.holds = [])
    (hr : c.referralOpen = false) : ((m.uncounted c.product).removeCard slot c).Tally (hand + c.worth) owed [] F := by
  have hs : (m.uncounted c.product).Sorted := h.sorted.setProduct ..
  have hcard : ∀ y, ((m.uncounted c.product).removeCard slot c).cardAt y = if y = slot then none else m.cardAt y :=
    fun y => by
      rw [RecordMemory.cardAt_removeCard hs]
      cases y <;> rfl
  have hkeep : ∀ {y e}, ((m.uncounted c.product).removeCard slot c).cardAt y = some e →
      y ≠ slot ∧ m.cardAt y = some e := by
    intro y e he
    rw [hcard] at he
    split at he
    · cases he
    · exact ⟨‹_›, he⟩
  have hsum : ∀ {G : Type} [AddCommGroup G] (f : Card → G),
      ((m.uncounted c.product).removeCard slot c).sumCards f = m.sumCards f - f c := by
    intro G _ f
    rw [RecordMemory.sumCards_removeCard f hs]
    have : (m.uncounted c.product).cardAt slot = some c := by cases slot <;> exact hc
    rw [this]
    rfl
  have hproduct : ∀ i, ((m.uncounted c.product).removeCard slot c).product i = if i = c.product then
      { m.product c.product with issued := (m.product c.product).issued - 1 } else m.product i := fun i => by
    rw [← RecordMemory.product_setProduct h.sorted]
    cases slot <;> rfl
  have hhold : ∀ n, ((m.uncounted c.product).removeCard slot c).holdSlot n = m.holdSlot n := fun n => by
    cases slot <;> rfl
  have hother : ∀ {y e}, m.cardAt y = some e → e.number ≠ c.number → y ≠ slot := by
    rintro y e he hn rfl
    rw [hc] at he
    cases he
    exact hn rfl
  exact {
    sorted := hs.removeCard slot c
    liabilities := by
      have e1 : ((m.uncounted c.product).removeCard slot c).funds = m.funds := by cases slot <;> rfl
      have e2 : ((m.uncounted c.product).removeCard slot c).sumHolds HoldRecord.worth = m.sumHolds HoldRecord.worth := by
        cases slot <;> rfl
      rw [e1, e2, hsum, h.liabilities]
      abel
    due := by
      have e1 : ((m.uncounted c.product).removeCard slot c).funds = m.funds := by cases slot <;> rfl
      rw [e1, h.due]
      cases slot <;> rfl
    cards := by
      refine ⟨fun y e he => ?_, fun i => ?_, fun i => ?_, fun y e he => ?_, fun y e he => ?_⟩
      · obtain ⟨hy, he'⟩ := hkeep he
        refine RecordMemory.findCard_of_unique ?_ he fun z g hg hn => h.cards.same_slot (hkeep hg).2 he' hn
        refine (RecordMemory.mem_slotsOf ..).mpr (((RecordMemory.mem_slotsOf ..).mp (h.cards.reached he')).imp id ?_)
        rintro ⟨k, rfl, hk⟩
        exact ⟨k, rfl, RecordMemory.chain_removeCard hs slot c _ k hk hy⟩
      · have hnonneg := ((m.uncounted c.product).removeCard slot c).sumCards_nonneg
          (f := fun e : Card => if e.product = i then (1 : ℤ) else 0) fun _ => by
            split <;> decide
        rw [hsum, ← h.cards.issued i] at hnonneg ⊢
        rw [hproduct]
        by_cases e : i = c.product
        · subst e
          simp only [if_true] at hnonneg ⊢
          push_cast [show 1 ≤ (m.product c.product).issued by omega]
          rfl
        · simp [e, Ne.symm e]
      · rw [hproduct]
        split
        · rename_i e
          intro hst
          show (m.product c.product).issued - 1 = 0
          rw [h.cards.unused c.product hst]
        · exact h.cards.unused i
      · exact h.cards.lots y e (hkeep he).2
      · exact h.cards.load y e (hkeep he).2
    lists := by
      refine ⟨fun n x hx => ?_, fun y e he => ?_, fun n x hx => ?_⟩
      · rw [hhold] at hx ⊢
        obtain ⟨y, e, he, hn, hk⟩ := h.lists.listed n x hx
        refine ⟨y, e, ?_, hn, hk⟩
        rw [hcard, if_neg]
        · exact he
        · rintro rfl
          rw [hc] at he
          cases he
          rw [hh] at hk
          cases hk
      · simp only [hhold]
        exact h.lists.named y e (hkeep he).2
      · rw [hhold] at hx
        exact h.lists.parts n x hx
    merchants := h.merchants.congr (by cases slot <;> rfl) (by cases slot <;> rfl)
    flags := by
      refine ⟨fun y e he => h.flags.flags y e (hkeep he).2, fun n hn => ?_⟩
      obtain ⟨y, e, he, hen⟩ := h.flags.present n hn
      refine ⟨y, e, ?_, hen⟩
      rw [hcard, if_neg]
      · exact he
      · refine hother he fun e' => ?_
        have := (h.flags.flags slot c hc).mpr (e' ▸ hen ▸ hn)
        rw [hr] at this
        cases this }

/-- A CLOSE-CARD's change of Record Memory (R47). -/
def RecordMemory.closed (m : RecordMemory) (slot : Slot) (c : Card) : RecordMemory :=
  ({ m with funds := c.lots.foldl Funds.writeOffLot (m.funds.cashOutPaid c.paid) }.setProduct c.product
    { m.product c.product with issued := (m.product c.product).issued - 1 }).removeCard slot c

theorem closeTouched_eq (s : State) (slot : Slot) (c : Card) (swept : List Lot) :
    (closeTouched s slot c swept).1 = { s with memory := s.memory.closed slot c }.disarmAll c.number := by
  simp only [closeTouched, RecordMemory.closed]

theorem RecordMemory.closed_eq (m : RecordMemory) (slot : Slot) (c : Card) : m.closed slot c =
    { (m.uncounted c.product).removeCard slot c with
      funds := c.lots.foldl Funds.writeOffLot (m.funds.cashOutPaid c.paid) } := by
  unfold RecordMemory.closed
  generalize c.lots.foldl Funds.writeOffLot (m.funds.cashOutPaid c.paid) = f
  cases slot <;>
    simp only [RecordMemory.uncounted, RecordMemory.setProduct, RecordMemory.removeCard, RecordMemory.chain]

theorem RecordMemory.uncounted_putCard (m : RecordMemory) (slot : Slot) (c : Card) (i : Nat) :
    (m.putCard slot c).uncounted i = (m.uncounted i).putCard slot c := by
  unfold RecordMemory.uncounted
  rw [RecordMemory.product_putCard]
  cases slot <;> rfl

/-- A closure on its touched card. -/
theorem RecordMemory.Tally.closed (h : (m.putCard slot c).Tally 0 owed [] F) (hs : m.Sorted) (hh : c.holds = [])
    (hr : c.referralOpen = false) : (m.closed slot c).Tally 0 owed [] F := by
  obtain ⟨hl, hdue⟩ := Funds.writeOffLots_spec c.lots (m.funds.cashOutPaid c.paid)
  have e := h.removeCard (m.cardAt_putCard_same slot c) hh hr
  rw [RecordMemory.uncounted_putCard, RecordMemory.removeCard_putCard (hs.uncounted _)] at e
  have hf : ((m.uncounted c.product).removeCard slot c).funds = m.funds := by cases slot <;> rfl
  rw [RecordMemory.closed_eq]
  generalize c.lots.foldl Funds.writeOffLot (m.funds.cashOutPaid c.paid) = f at hl hdue ⊢
  refine (e.setFunds (f := f) (a := -c.worth) (b := 0) ?_ ?_).cast ?_ (add_zero _).symm
  · rw [hf, hl, Funds.liabilities_cashOutPaid]
    show _ = _ + -(paidWorth c.paid + lotsWorth c.lots)
    abel
  · rw [hf, hdue, add_zero]
    rfl
  · rw [zero_add, add_neg_cancel]

/-! ### Products (R54 to R57) -/

theorem RecordMemory.Tally.setProduct (h : m.Tally hand owed noted F) {i : Nat} {p : Product}
    (hi : p.issued = (m.product i).issued) (hu : p.state = .unused → p.issued = 0) :
    (m.setProduct i p).Tally hand owed noted F where
  sorted := h.sorted.setProduct i p
  liabilities := h.liabilities
  due := h.due
  cards := h.cards.setProduct h.sorted hi hu
  lists := h.lists.congr rfl rfl rfl
  merchants := h.merchants.congr rfl rfl
  flags := ⟨h.flags.flags, h.flags.present⟩

theorem RecordMemory.Tally.defineProductRecord (h : m.Tally hand owed noted F) (i : Nat) (p : Product) :
    (defineProductRecord i p m).1.Tally hand owed noted F := by
  unfold Sys2Proof.Machine.defineProductRecord
  dsimp only
  split
  · rename_i hst
    exact h.setProduct (h.cards.unused i hst).symm fun _ => rfl
  · rename_i hst
    split
    · exact h
    · exact h.setProduct rfl fun e => absurd e hst

theorem RecordMemory.Tally.withdrawProductRecord (h : m.Tally hand owed noted F) (i : Nat) :
    (withdrawProductRecord i m).1.Tally hand owed noted F := by
  unfold Sys2Proof.Machine.withdrawProductRecord
  dsimp only
  split
  · exact h.setProduct rfl fun e => by cases e
  · split
    · rename_i hz
      exact h.setProduct hz.symm fun _ => rfl
    · exact h
  · exact h

theorem RecordMemory.Tally.reinstateProductRecord (h : m.Tally hand owed noted F) (i : Nat) :
    (reinstateProductRecord i m).1.Tally hand owed noted F := by
  unfold Sys2Proof.Machine.reinstateProductRecord
  dsimp only
  split
  · exact h.setProduct rfl fun e => by cases e
  · exact h
  · exact h

/-! ### Merchants (R143 to R146) -/

/-- A merchant whose OPEN holds count to 0 has none. -/
theorem RecordMemory.no_holds_of_sum (hs : m.Sorted) {id : Nat} (h0 : m.sumHolds (holdsAt id) = 0) {n : Nat}
    {x : HoldRecord} (hx : (m.holdSlot n).record = some x) : x.merchant ≠ id := by
  rintro rfl
  have hnonneg := (m.setHoldSlot n HoldSlot.free).holdsAt_nonneg x.merchant
  rw [RecordMemory.sumHolds_setHoldSlot _ hs, h0, hx] at hnonneg
  simp [holdsAt, HoldSlot.free] at hnonneg

/-- An id that no OPEN hold names counts no holds. -/
theorem RecordMemory.sum_of_no_holds (hs : m.Sorted) {id : Nat}
    (h : ∀ n x, (m.holdSlot n).record = some x → x.merchant ≠ id) : m.sumHolds (holdsAt id) = 0 := by
  unfold RecordMemory.sumHolds Table.total
  refine List.sum_eq_zero fun z hz => ?_
  obtain ⟨⟨n, x⟩, hm, rfl⟩ := List.mem_map.mp hz
  dsimp only
  cases hr : x.record with
  | none => rfl
  | some y =>
    have hn : m.holdSlot n = x := by
      unfold RecordMemory.holdSlot Table.get
      rw [Table.find_of_mem hs.holds hm]
      rfl
    exact if_neg (h n y (hn ▸ hr))

/-- A record created for a new id in an UNUSED place (R143). -/
theorem RecordMemory.Tally.newMerchant (h : m.Tally hand owed noted F) {i : Nat} {r : Merchant}
    (hi : (m.merchant i).used = false) (hnew : m.findMerchant r.id = none) (hu : r.used = true) (ho : r.openHolds = 0)
    (hd : r.position.due = 0) : (m.setMerchant i r).Tally hand owed noted F := by
  have hm : ∀ j, (m.setMerchant i r).merchant j = if j = i then r else m.merchant j :=
    fun j => RecordMemory.merchant_setMerchant h.sorted.merchants i j r
  have hne : ∀ j, (m.merchant j).used = true → j ≠ i := by
    rintro j hj rfl
    rw [hi] at hj
    cases hj
  have hid : ∀ j, (m.merchant j).used = true → (m.merchant j).id ≠ r.id := by
    intro j hj e
    have := h.merchants.findMerchant h.sorted hj
    rw [e, hnew] at this
    cases this
  exact {
    sorted := h.sorted.setMerchant i r
    liabilities := h.liabilities
    due := by
      rw [RecordMemory.sumMerchants_setMerchant _ h.sorted, hi, if_pos hu, RecordMemory.setMerchant_funds, h.due, hd]
      simp [moneyInt]
    cards := h.cards.congr rfl rfl rfl rfl
    lists := h.lists.congr rfl rfl rfl
    merchants := by
      refine ⟨fun n x hx => ?_, fun j k hj hk e => ?_, fun j hj => ?_⟩
      · obtain ⟨j, hj, hjid⟩ := h.merchants.merchant n x hx
        refine ⟨j, ?_⟩
        rw [hm, if_neg (hne j hj)]
        exact ⟨hj, hjid⟩
      · rw [hm] at hj hk e
        rw [hm] at e
        split at hj <;> split at hk
        · rename_i h1 h2
          rw [h1, h2]
        · rename_i h1 h2
          rw [if_pos h1, if_neg h2] at e
          exact absurd e.symm (hid k hk)
        · rename_i h1 h2
          rw [if_neg h1, if_pos h2] at e
          exact absurd e (hid j hj)
        · rename_i h1 h2
          rw [if_neg h1, if_neg h2] at e
          exact h.merchants.unique j k hj hk e
      · rw [hm] at hj ⊢
        split at hj
        · rename_i e
          rw [if_pos e, ho]
          refine (RecordMemory.sum_of_no_holds h.sorted fun n x hx => ?_).symm
          obtain ⟨k, hk, hkid⟩ := h.merchants.merchant n x hx
          rw [← hkid]
          exact hid k hk
        · rename_i e
          rw [if_neg e]
          exact h.merchants.counted j hj
    flags := ⟨h.flags.flags, h.flags.present⟩ }

/-- A record without OPEN holds made UNUSED (R146). -/
theorem RecordMemory.Tally.dropMerchant (h : m.Tally hand owed noted F) {i : Nat} (hu : (m.merchant i).used = true)
    (ho : (m.merchant i).openHolds = 0) :
    (m.setMerchant i Merchant.unused).Tally hand (owed + moneyInt (m.merchant i).position.due) noted F := by
  have hm : ∀ j, (m.setMerchant i Merchant.unused).merchant j = if j = i then Merchant.unused else m.merchant j :=
    fun j => RecordMemory.merchant_setMerchant h.sorted.merchants i j _
  have hused : ∀ j, ((m.setMerchant i Merchant.unused).merchant j).used = true →
      (m.setMerchant i Merchant.unused).merchant j = m.merchant j ∧ (m.merchant j).used = true := by
    intro j hj
    rw [hm] at hj ⊢
    split at hj
    · cases hj
    · rename_i e
      rw [if_neg e]
      exact ⟨rfl, hj⟩
  have hcount := h.merchants.counted i hu
  rw [ho] at hcount
  exact {
    sorted := h.sorted.setMerchant i _
    liabilities := h.liabilities
    due := by
      have hun : Merchant.unused.used = false := rfl
      rw [RecordMemory.sumMerchants_setMerchant _ h.sorted, if_pos hu, hun, RecordMemory.setMerchant_funds, h.due]
      simp only [Bool.false_eq_true, if_false]
      abel
    cards := h.cards.congr rfl rfl rfl rfl
    lists := h.lists.congr rfl rfl rfl
    merchants := by
      refine ⟨fun n x hx => ?_, fun j k hj hk e => ?_, fun j hj => ?_⟩
      · obtain ⟨j, hj, hjid⟩ := h.merchants.merchant n x hx
        refine ⟨j, ?_⟩
        rw [hm, if_neg]
        · exact ⟨hj, hjid⟩
        · rintro rfl
          exact RecordMemory.no_holds_of_sum h.sorted hcount.symm hx hjid.symm
      · obtain ⟨e1, hj'⟩ := hused j hj
        obtain ⟨e2, hk'⟩ := hused k hk
        rw [e1, e2] at e
        exact h.merchants.unique j k hj' hk' e
      · obtain ⟨e, hj'⟩ := hused j hj
        rw [e]
        exact h.merchants.counted j hj'
    flags := ⟨h.flags.flags, h.flags.present⟩ }

theorem Funds.writeOffDue_spec (f : Funds) (x : Int) :
    (f.writeOffDue x).liabilities = f.liabilities ∧ (f.writeOffDue x).due = f.due + moneyInt x := ⟨rfl, rfl⟩

/-- A used record rewritten with its id, count of holds and position. -/
theorem RecordMemory.Tally.redefine (h : m.Tally hand owed noted F) {i : Nat} {r : Merchant}
    (hu : (m.merchant i).used = true) (hr : r.used = true) (hid : r.id = (m.merchant i).id)
    (ho : r.openHolds = (m.merchant i).openHolds) (hp : r.position = (m.merchant i).position) :
    (m.setMerchant i r).Tally hand owed noted F :=
  (h.setMerchant hu hr hid ho).cast rfl (by rw [hp, add_sub_cancel_right])

theorem RecordMemory.Tally.defineMerchantRecord (h : m.Tally hand owed noted F) (id : Nat) (p : MerchantOperands) :
    (defineMerchantRecord id p m).1.Tally hand owed noted F := by
  unfold Sys2Proof.Machine.defineMerchantRecord
  split
  · rename_i i r hf
    obtain ⟨rfl, hu, -⟩ := RecordMemory.merchant_of_findMerchant h.sorted hf
    exact h.redefine hu hu rfl rfl rfl
  · rename_i hf
    split
    · exact h
    · rename_i i hi
      obtain ⟨-, -, hfree, -⟩ := firstIndex_spec hi
      exact h.newMerchant (by simpa using hfree) hf rfl rfl rfl

theorem RecordMemory.Tally.setStanding (h : m.Tally hand owed noted F) {id i : Nat} {r : Merchant}
    (hf : m.findMerchant id = some (i, r)) {st : MerchantState} (hst : st ≠ .unused) :
    (setStanding st i r m).1.Tally hand owed noted F := by
  obtain ⟨rfl, hu, -⟩ := RecordMemory.merchant_of_findMerchant h.sorted hf
  exact h.redefine (r := { m.merchant i with state := st }) hu (decide_eq_true hst) rfl rfl rfl

theorem RecordMemory.Tally.closeMerchantRecord (h : m.Tally hand owed noted F) {id i : Nat} {r : Merchant}
    (hf : m.findMerchant id = some (i, r)) : (closeMerchantRecord i r m).1.Tally hand owed noted F := by
  obtain ⟨rfl, hu, -⟩ := RecordMemory.merchant_of_findMerchant h.sorted hf
  unfold Sys2Proof.Machine.closeMerchantRecord
  dsimp only
  split
  · exact h
  · rename_i ho
    split
    · exact h
    · obtain ⟨hl, hdue⟩ := Funds.writeOffDue_spec m.funds (-(m.merchant i).position.due)
      rw [← Funds.liabilities_billAll _ (m.merchant i).position.billings] at hl
      rw [← Funds.due_billAll _ (m.merchant i).position.billings, moneyInt_neg] at hdue
      generalize (m.funds.writeOffDue (-(m.merchant i).position.due)).billAll (m.merchant i).position.billings = f at hl hdue ⊢
      have e := h.setFunds (a := 0) (hl.trans (add_zero _).symm) hdue
      refine (e.dropMerchant (i := i) hu (Nat.eq_zero_of_not_pos ho)).cast (add_zero _).symm ?_
      show owed = owed + -moneyInt (m.merchant i).position.due + moneyInt (m.merchant i).position.due
      rw [neg_add_cancel_right]

/-! ### The cut (R152 to R154) -/

/-- What a cut pays, keeps as its fee and carries is the net. -/
theorem cutOf_sum (t : Tier) (p : Position) : (cutOf t p).payout + (cutOf t p).fee + (cutOf t p).carry = p.due := by
  simp only [cutOf]
  split
  · omega
  · omega

theorem Merchant.used_afterCut (r : Merchant) (c : CutResult) : (r.afterCut c).used = r.used := by
  unfold Merchant.used Merchant.afterCut
  rfl

theorem RecordMemory.Tally.cut (h : m.Tally hand owed noted F) (t : Tier) {i : Nat} (hu : (m.merchant i).used = true) :
    (RecordMemory.setMerchant { m with funds := m.funds.settleCut (cutOf t (m.merchant i).position) } i
      ((m.merchant i).afterCut (cutOf t (m.merchant i).position))).Tally hand owed noted F := by
  obtain ⟨hl, hdue⟩ := Funds.settleCut_spec m.funds (cutOf t (m.merchant i).position)
  have hsum := cutOf_sum t (m.merchant i).position
  generalize cutOf t (m.merchant i).position = r at hl hdue hsum ⊢
  generalize m.funds.settleCut r = f at hl hdue ⊢
  have e := h.setFunds (a := 0) (hl.trans (add_zero _).symm) (hdue.trans (sub_eq_add_neg ..))
  refine (e.setMerchant (i := i) (r := (m.merchant i).afterCut r) hu
    (by rwa [Merchant.used_afterCut]) rfl rfl).cast (add_zero _).symm ?_
  have hd : ((m.merchant i).afterCut r).position.due = r.carry := by
    simp [Merchant.afterCut, Position.due, Position.zero]
  rw [hd]
  show owed = owed + -moneyInt (r.payout + r.fee) + moneyInt (m.merchant i).position.due - moneyInt r.carry
  rw [← hsum, moneyInt_add (r.payout + r.fee)]
  abel

/-! ### The sweep's step (R179) -/

theorem RecordMemory.Tally.examine (h : m.Tally 0 owed noted F) : m.examine.Tally 0 owed noted F := by
  unfold RecordMemory.examine
  split
  · exact h
  · rename_i c hc
    split
    · exact h.of_books rfl
    · refine RecordMemory.Tally.settle ?_ _
      refine (h.sweepTo hc m.sweep.day).of_books ?_
      cases m.sweep.cursor <;> rfl

/-! ### Recovery and FORMAT (R128, R190, R194) -/

theorem RecordMemory.Tally.blank (a b c d : Nat) : (RecordMemory.blank a b c d).Tally 0 0 [] fun _ => False where
  sorted := ⟨rfl, rfl, rfl, rfl, rfl, rfl⟩
  liabilities := by
    show Funds.zero.liabilities = 0 + 0 + 0 + 0
    rw [add_zero, add_zero, add_zero]
    refine Prod.ext rfl (funext fun s => ?_)
    fin_cases s <;> rfl
  due := rfl
  cards := ⟨fun slot c hc => (by cases slot <;> cases hc), fun i => rfl, fun i _ => rfl,
    fun slot c hc => (by cases slot <;> cases hc), fun slot c hc => (by cases slot <;> cases hc)⟩
  lists := ⟨fun n x hx => (by cases hx), fun slot c hc => (by cases slot <;> cases hc), fun n x hx => (by cases hx)⟩
  merchants := ⟨fun n x hx => (by cases hx), fun i j hi => (by cases hi), fun i hi => (by cases hi)⟩
  flags := ⟨fun slot c hc => (by cases slot <;> cases hc), fun n hn => hn.elim⟩

theorem RecordMemory.cardAt_mapCards (m : RecordMemory) (f : Card → Card) (slot : Slot) :
    (m.mapCards f).cardAt slot = (m.cardAt slot).map f := by
  cases slot <;> exact Table.find_map f _ _

/-- Every referral-open flag cleared (R128). -/
theorem RecordMemory.Tally.clearFlags (h : m.Tally hand owed noted F) :
    (m.mapCards clearReferralOpen).Tally hand owed noted fun _ => False := by
  have hcard : ∀ {y e}, (m.mapCards clearReferralOpen).cardAt y = some e →
      ∃ c, m.cardAt y = some c ∧ e = clearReferralOpen c := by
    intro y e he
    rw [RecordMemory.cardAt_mapCards] at he
    obtain ⟨c, hc, rfl⟩ := Option.map_eq_some_iff.mp he
    exact ⟨c, hc, rfl⟩
  have hsum : ∀ {G : Type} [AddCommGroup G] (f : Card → G), (∀ c, f (clearReferralOpen c) = f c) →
      (m.mapCards clearReferralOpen).sumCards f = m.sumCards f := by
    intro G _ f hf
    unfold RecordMemory.sumCards RecordMemory.mapCards
    dsimp only
    rw [Table.total_map, Table.total_map]
    simp only [hf]
  exact {
    sorted := { h.sorted with
      main := Table.rising_map (fun e => clearReferralOpen e.2) h.sorted.main
      pool := Table.rising_map (fun e => clearReferralOpen e.2) h.sorted.pool }
    liabilities := by
      rw [hsum Card.worth fun _ => rfl]
      exact h.liabilities
    due := h.due
    cards := by
      refine ⟨fun y e he => ?_, fun i => ?_, h.cards.unused, fun y e he => ?_, fun y e he => ?_⟩
      · obtain ⟨c, hc, rfl⟩ := hcard he
        refine RecordMemory.findCard_of_unique (show y ∈ m.slotsOf (bucketOf c.number) from h.cards.reached hc) he
          fun z g hg hn => ?_
        obtain ⟨k, hk, rfl⟩ := hcard hg
        exact h.cards.same_slot hk hc hn
      · rw [hsum _ fun _ => rfl]
        exact h.cards.issued i
      · obtain ⟨c, hc, rfl⟩ := hcard he
        exact h.cards.lots y c hc
      · obtain ⟨c, hc, rfl⟩ := hcard he
        exact h.cards.load y c hc
    lists := by
      refine ⟨fun n x hx => ?_, fun y e he => ?_, h.lists.parts⟩
      · obtain ⟨y, c, hc, hn, hk⟩ := h.lists.listed n x hx
        exact ⟨y, clearReferralOpen c, by rw [RecordMemory.cardAt_mapCards, hc]; rfl, hn, hk⟩
      · obtain ⟨c, hc, rfl⟩ := hcard he
        exact h.lists.named y c hc
    merchants := h.merchants.congr rfl rfl
    flags := by
      refine ⟨fun y e he => ?_, fun n hn => hn.elim⟩
      obtain ⟨c, hc, rfl⟩ := hcard he
      exact ⟨fun h => absurd h Bool.false_ne_true, False.elim⟩ }

theorem RecordMemory.Tally.recovered (h : m.Tally 0 owed noted F) (ties : List Nat) :
    (m.recovered ties).Tally 0 owed noted fun _ => False :=
  RecordMemory.Tally.expireDue ties _ (h.clearFlags.of_books rfl)

end Sys2Proof.Machine
end

section
/-! The Referral Queue beside the records: its numbers and cards, and the requests that judge, refer, decide and lapse
(R72 to R76, R80, R81, R112 to R126). -/

namespace Sys2Proof.Machine

/-- The cards that the Referral Queue's entries name. -/
def State.referred (s : State) (n : Nat) : Prop := n ∈ s.referrals.map Referral.card

/-- A memory tallies beside a state's Referral Queue, whose entries have numbers and cards of their own. -/
structure State.Books (noted : List Nat) (m : RecordMemory) (s : State) : Prop where
  tally : m.Tally 0 0 noted s.referred
  numbers : (s.referrals.map Referral.number).Nodup
  cards : (s.referrals.map Referral.card).Nodup

/-- The state's records tally. -/
def State.Tallies (noted : List Nat) (s : State) : Prop := s.Books noted s.memory

/-- The state's records tally when a card being worked on is written back. -/
def State.Works (noted : List Nat) (slot : Slot) (c : Card) (s : State) : Prop := s.Books noted (s.memory.putCard slot c)

variable {s : State} {noted : List Nat} {slot : Slot} {c d : Card} {m : RecordMemory}

/-- The memory replaced by one that tallies. -/
theorem State.Books.withMemory (h : s.Books noted m) {noted' : List Nat} {m' : RecordMemory}
    (hm : m'.Tally 0 0 noted' s.referred) : (s.withMemory m').Tallies noted' := ⟨hm, h.numbers, h.cards⟩

theorem State.Tallies.onMemory (h : s.Tallies noted) {change : RecordMemory → RecordMemory × Reply}
    (hm : (change s.memory).1.Tally 0 0 noted s.referred) : (onMemory change s).1.Tallies noted :=
  ⟨hm, h.numbers, h.cards⟩

/-- A present card taken up as it stands. -/
theorem State.Tallies.work (h : s.Tallies noted) (hc : s.memory.cardAt slot = some c) : s.Works noted slot c := by
  unfold State.Works
  rw [RecordMemory.putCard_cardAt h.tally.sorted hc]
  exact h

theorem State.Tallies.touch (h : s.Tallies noted) (hc : s.memory.cardAt slot = some c) :
    (s.withMemory (s.memory.touch c).memory).Works noted slot (s.memory.touch c).card :=
  ⟨h.tally.touch hc, h.numbers, h.cards⟩

theorem State.Works.sameValue (h : s.Works noted slot c) (hd : c.SameValue d) (hr : d.referralOpen = c.referralOpen) :
    s.Works noted slot d := ⟨h.tally.sameValue hd hr, h.numbers, h.cards⟩

theorem State.Works.settle (h : s.Works noted slot c) (wrote : Bool) :
    (s.withMemory (s.memory.settle slot c wrote).1).Tallies noted := State.Books.withMemory h (h.tally.settle wrote)

/-- The card being worked on written back as it stands. -/
theorem State.Works.write (h : s.Works noted slot c) : (s.withMemory (s.memory.putCard slot c)).Tallies noted :=
  State.Books.withMemory h h.tally

theorem State.Works.sorted (h : s.Works noted slot c) : (s.memory.putCard slot c).Sorted := h.tally.sorted

theorem State.tallies_portBlind : PortBlind (State.Tallies noted) where
  take ht h := by
    obtain ⟨_, _, _, _, _, _, _, rfl⟩ := State.take_eq_some.mp ht
    exact ⟨h.tally.of_books rfl, h.numbers, h.cards⟩
  enter _ _ _ _ _ h := ⟨h.tally, h.numbers, h.cards⟩

theorem State.tallies_watchBlind : WatchBlind (State.Tallies noted) := fun _ _ _ _ h =>
  ⟨h.tally.of_books rfl, h.numbers, h.cards⟩

/-! ### Judging an attempt (R72 to R74) -/

theorem Card.SameValue.rfl : c.SameValue c := ⟨⟨Eq.refl _, Eq.refl _, Eq.refl _⟩, Eq.refl _, Eq.refl _, Eq.refl _⟩

/-- A state in which a card is worked on, with the merchants and holds of another. -/
def State.WorksBeside (noted : List Nat) (slot : Slot) (c : Card) (m : RecordMemory) (s : State) : Prop :=
  s.Works noted slot c ∧ s.memory.merchants = m.merchants ∧ s.memory.holds = m.holds

theorem State.worksBeside_watchBlind : WatchBlind (State.WorksBeside noted slot c m) := fun _ _ _ _ h =>
  ⟨⟨h.1.tally.of_books (by cases slot <;> rfl), h.1.numbers, h.1.cards⟩, h.2⟩

/-- The card as judged: flags and counts of blocked attempts alone may differ. -/
theorem judge_card (s : State) (c : Card) (r : Merchant) (amount : Nat) :
    c.SameValue (judge s c r amount).card ∧ (judge s c r amount).card.referralOpen = c.referralOpen := by
  have same : c.SameValue c ∧ c.referralOpen = c.referralOpen := ⟨.rfl, rfl⟩
  unfold judge
  split
  · unfold endedEarly
    split
    · exact ⟨⟨⟨rfl, rfl, rfl⟩, rfl, rfl, rfl⟩, rfl⟩
    · exact same
  · split
    · exact same
    · dsimp only
      split
      · exact same
      · unfold judgeWatch
        dsimp only
        split
        · exact ⟨⟨⟨rfl, rfl, rfl⟩, rfl, rfl, rfl⟩, rfl⟩
        · split <;> exact same

/-- Only a card without an open referral is referred or goes on to step 8. -/
theorem judge_open {s : State} {c : Card} {r : Merchant} {amount : Nat} (h : c.referralOpen = true)
    (e : Option Nat) : (judge s c r amount).verdict ≠ .refer e := by
  unfold judge
  split
  · unfold endedEarly
    split <;> exact fun h => by cases h
  · rw [if_pos h]
    exact fun h => by cases h

theorem State.Works.judge (h : s.Works noted slot c) (r : Merchant) (amount : Nat) :
    (judge s c r amount).state.WorksBeside noted slot (judge s c r amount).card s.memory := by
  obtain ⟨hj, hm, hh⟩ := (State.worksBeside_watchBlind (m := s.memory)).judge c r amount ⟨h, rfl, rfl⟩
  obtain ⟨hd, hr⟩ := judge_card s c r amount
  exact ⟨hj.sameValue hd hr, hm, hh⟩

/-! ### Referrals made (R73, R114, R115) -/

/-- The k-th number tried from n on. -/
def numberTried (n k : Nat) : Nat :=
  if 65535 ≤ n then (if k = 0 then n else k) else if n + k ≤ 65535 then n + k else n + k - 65535

theorem numberTried_zero (n : Nat) : numberTried n 0 = n := by
  unfold numberTried
  split
  · exact if_pos rfl
  · rw [if_pos (by omega)]
    rfl

theorem numberAfter_tried (n : Nat) {k : Nat} (hk : k < 65534) : numberAfter (numberTried n k) = numberTried n (k + 1) := by
  unfold numberAfter numberTried
  by_cases h : 65535 ≤ n
  · by_cases h0 : k = 0
    · simp [h, h0]
    · simp only [if_pos h, if_neg h0, if_neg (Nat.succ_ne_zero k), if_neg (show ¬65535 ≤ k by omega)]
  · simp only [if_neg h]
    split_ifs <;> omega

theorem numberTried_injective (n : Nat) {i j : Nat} (hi : i < 65535) (hj : j < 65535)
    (h : numberTried n i = numberTried n j) : i = j := by
  unfold numberTried at h
  split_ifs at h <;> omega

/-- A number given though it is held has passed over every number tried before it. -/
theorem freshNumber_held (entries : List Referral) (n : Nat) (fuel k : Nat) (hk : k + fuel < 65535)
    (h : entries.any (fun e => e.number == freshNumber entries fuel (numberTried n k)) = true) :
    ∀ j, k ≤ j → j ≤ k + fuel → entries.any (fun e => e.number == numberTried n j) = true := by
  induction fuel generalizing k with
  | zero =>
    intro j h1 h2
    have e : j = k := by omega
    rw [e]
    exact h
  | succ fuel ih =>
    unfold freshNumber at h
    split at h
    · rename_i hheld
      rw [numberAfter_tried n (by omega)] at h
      intro j h1 h2
      by_cases e : j = k
      · rw [e]
        exact hheld
      · exact ih (k + 1) (by omega) h j (by omega) (by omega)
    · rename_i hfree
      exact absurd h hfree

/-- A referral number given while fewer than 32 entries stand is held by none (R114). -/
theorem freshNumber_fresh {entries : List Referral} (hlen : entries.length < referralPlaces) (n : Nat) :
    ∀ e ∈ entries, e.number ≠ freshNumber entries referralPlaces n := by
  intro e he hne
  have held := freshNumber_held entries n referralPlaces 0 (by decide) (by
    rw [numberTried_zero]
    exact List.any_eq_true.mpr ⟨e, he, by simp [hne]⟩)
  have hnodup : ((List.range (referralPlaces + 1)).map (numberTried n)).Nodup := by
    refine List.Nodup.map_on (fun i hi j hj => numberTried_injective n ?_ ?_) List.nodup_range
    · have := List.mem_range.mp hi
      unfold referralPlaces at this
      omega
    · have := List.mem_range.mp hj
      unfold referralPlaces at this
      omega
  have hsub : (List.range (referralPlaces + 1)).map (numberTried n) ⊆ entries.map Referral.number := by
    intro x hx
    obtain ⟨k, hk, rfl⟩ := List.mem_map.mp hx
    have hk' := List.mem_range.mp hk
    obtain ⟨e, he, hn⟩ := List.any_eq_true.mp (held k (Nat.zero_le _) (by omega))
    exact List.mem_map.mpr ⟨e, he, by simpa using hn⟩
  have := (List.subperm_of_subset hnodup hsub).length_le
  simp only [List.length_map, List.length_range] at this
  omega

/-- A referral of the card being worked on made, and its flag set. -/
theorem State.Works.makeReferral (h : s.Works noted slot c) {tag : Nat} {kind : ReferralKind} {s' : State} {e : Referral}
    (hm : s.makeReferral c.number tag kind = some (s', e)) (hopen : c.referralOpen = false) :
    s'.Works noted slot { c with referralOpen := true } := by
  unfold State.makeReferral at hm
  split at hm
  · cases hm
  · rename_i hlen
    cases hm
    have hnot : ¬s.referred c.number := fun hF => by
      have := h.tally.referralOpen_iff.mpr hF
      rw [hopen] at this
      cases this
    refine ⟨?_, ?_, ?_⟩
    · refine RecordMemory.Tally.of_books (m := s.memory.putCard slot { c with referralOpen := true }) ?_
        (by cases slot <;> rfl)
      refine h.tally.reflag ⟨⟨rfl, rfl, rfl⟩, rfl, rfl, rfl⟩ fun n => ?_
      unfold State.referred
      dsimp only
      rw [List.map_append, List.mem_append, List.map_singleton, List.mem_singleton]
      by_cases e : n = c.number <;> simp [e]
    · show ((s.referrals ++ [_]).map Referral.number).Nodup
      rw [List.map_append]
      refine List.nodup_append.mpr ⟨h.numbers, List.nodup_singleton _, fun a ha b hb => ?_⟩
      obtain ⟨r, hr, rfl⟩ := List.mem_map.mp ha
      rw [List.mem_singleton.mp hb]
      exact freshNumber_fresh (Nat.lt_of_not_le hlen) _ r hr
    · show ((s.referrals ++ [_]).map Referral.card).Nodup
      rw [List.map_append]
      refine List.nodup_append.mpr ⟨h.cards, List.nodup_singleton _, fun a ha b hb => ?_⟩
      rw [List.mem_singleton.mp hb]
      rintro rfl
      exact hnot ha

/-! ### REDEEM and HOLD (R72 to R76, R80, R81) -/

theorem State.Works.declineAttempt (h : s.Works noted slot c) (wrote : Bool) (reason : DeclineReason)
    (method : Option Method) (mark freezer : Option Nat) (clamped : Bool) :
    (declineAttempt s slot c wrote reason method mark freezer clamped).1.Tallies noted := h.settle wrote

theorem State.Works.referAttempt (h : s.Works noted slot c) (hopen : c.referralOpen = false) (wrote : Bool) (tag : Nat)
    (kind : ReferralKind) (method : Option Method) (mark : Option Nat) :
    (referAttempt s slot c wrote tag kind method mark).1.Tallies noted := by
  unfold Sys2Proof.Machine.referAttempt
  split
  · exact h.declineAttempt _ _ _ _ _ _
  · rename_i s' e he
    exact (h.makeReferral he hopen).settle wrote

theorem State.Works.finishRedeem (h : s.Works noted slot c) {i : Nat} {r : Merchant} (hi : s.memory.merchant i = r)
    (hu : r.used = true) (wrote : Bool) (amount : Nat) (purse : Purse) (upTo : Bool) (method : Option Method)
    (mark : Option Nat) : (finishRedeem s slot c wrote i r amount purse upTo method mark).1.Tallies noted := by
  unfold Sys2Proof.Machine.finishRedeem
  split
  · exact h.declineAttempt _ _ _ _ _ _
  · exact State.Books.withMemory h (h.tally.redeem hi hu ‹_›)

theorem State.Works.finishHold (h : s.Works noted slot c) {i : Nat} {r : Merchant} (hi : s.memory.merchant i = r)
    (hu : r.used = true) (wrote : Bool) (amount life : Nat) (purse : Purse) (upTo : Bool) (method : Option Method)
    (mark : Option Nat) : (finishHold s slot c wrote i r amount life purse upTo method mark).1.Tallies noted := by
  unfold Sys2Proof.Machine.finishHold
  dsimp only
  split
  · exact h.declineAttempt _ _ _ _ _ _
  · rename_i p hp
    obtain ⟨hplace, hplaces⟩ := h.tally.place hi hu hp
    refine State.Books.withMemory h (hplace.commit none (fun v hv => by cases hv) ?_)
    rw [hplaces.number]
    exact RecordMemory.Tally.unnoted_sub

theorem State.Tallies.attemptDebit (h : s.Tallies noted) (hc : s.memory.cardAt slot = some c) {i : Nat} {r : Merchant}
    (hi : s.memory.merchant i = r) (hu : r.used = true) (tag : Nat) (d : DebitOperands) (request : Attempted) :
    (attemptDebit s tag slot c i r d request).1.Tallies noted := by
  obtain ⟨hj, hm, -⟩ := (h.touch hc).judge r d.amount
  have hr := (judge_card (s.withMemory (s.memory.touch c).memory) (s.memory.touch c).card r d.amount).2
  unfold Sys2Proof.Machine.attemptDebit
  dsimp only
  have hi' : (judge (s.withMemory (s.memory.touch c).memory) (s.memory.touch c).card r d.amount).state.memory.merchant i =
      r := by
    unfold RecordMemory.merchant at hi ⊢
    rw [hm]
    exact hi
  split
  · exact hj.declineAttempt _ _ _ _ _ _
  · rename_i e hv
    refine hj.referAttempt ?_ _ _ _ _ _
    rw [hr]
    exact Bool.eq_false_iff.mpr fun hopen => judge_open hopen e hv
  · split
    · exact hj.finishRedeem hi' hu _ _ _ _ _ _
    · exact hj.finishHold hi' hu _ _ _ _ _ _ _

theorem keeps_debit (tag card merchant : Nat) (d : Option DebitOperands) (request : Attempted) :
    Keeps (State.Tallies noted) (debitChange tag card merchant d request) := fun s h => by
  unfold debitChange
  split
  · exact h
  · split
    · exact h
    · split
      · exact h
      · split
        · exact h
        · rename_i i r hm
          split
          · exact h
          · rename_i slot c hf
            obtain ⟨hi, hu, -⟩ := RecordMemory.merchant_of_findMerchant h.tally.sorted hm
            exact h.attemptDebit (RecordMemory.Tally.card_of_findCard hf).1 hi hu _ _ _

/-! ### Entries dropped (R113) -/

/-- An entry of a number and card stands in the queue. -/
def State.Queues (s : State) (number card : Nat) : Prop := ∃ e ∈ s.referrals, e.number = number ∧ e.card = card

theorem State.referred_dropReferral (hn : (s.referrals.map Referral.number).Nodup)
    (hc : (s.referrals.map Referral.card).Nodup) {number card : Nat} (hq : s.Queues number card) (n : Nat) :
    (s.dropReferral number).referred n ↔ if n = card then False else s.referred n := by
  obtain ⟨e, he, rfl, rfl⟩ := hq
  unfold State.referred
  rw [State.dropReferral_referrals]
  simp only [List.mem_map, List.mem_filter, bne_iff_ne]
  split
  · rename_i hnc
    refine iff_of_false ?_ id
    rintro ⟨r, ⟨hr, hne⟩, rfl⟩
    exact hne (by rw [List.inj_on_of_nodup_map hc hr he hnc])
  · rename_i hnc
    refine ⟨fun ⟨r, ⟨hr, _⟩, hrn⟩ => ⟨r, hr, hrn⟩, fun ⟨r, hr, hrn⟩ => ⟨r, ⟨hr, fun hnum => hnc ?_⟩, hrn⟩⟩
    rw [← hrn, List.inj_on_of_nodup_map hn hr he hnum]

/-- An entry dropped, when the memory has its card's flag cleared. -/
theorem State.Books.dropReferral (h : s.Books noted m) {number : Nat} {m' : RecordMemory}
    (hm : m'.Tally 0 0 noted (s.dropReferral number).referred) : (s.dropReferral number).Books noted m' where
  tally := hm
  numbers := h.numbers.sublist ((List.filter_sublist).map _)
  cards := h.cards.sublist ((List.filter_sublist).map _)

/-- The card of an entry worked on, its entry dropped and its flag cleared. -/
theorem State.Works.dropReferral (h : s.Works noted slot c) {number : Nat} (hq : s.Queues number c.number)
    (hd : c.SameValue d) (hr : d.referralOpen = false) : (s.dropReferral number).Works noted slot d := by
  refine State.Books.dropReferral h (h.tally.reflag hd fun n => ?_)
  rw [State.referred_dropReferral h.numbers h.cards hq, hr]
  split <;> simp

/-! ### DECIDE (R117 to R121) -/

theorem State.findReferral_queues {number : Nat} {e : Referral} (h : s.findReferral number = some e) :
    e ∈ s.referrals ∧ e.number = number :=
  ⟨List.mem_of_find?_eq_some h, by simpa using List.find?_some h⟩

theorem State.Tallies.denyEntry (h : s.Tallies noted) (hc : s.memory.cardAt slot = some c) {e : Referral}
    (he : s.Queues e.number c.number) : (denyEntry s e slot c).1.Tallies noted := by
  refine ((h.work hc).dropReferral he (d := clearReferralOpen (if e.kind = .unlock then denyUnlock c else c)) ?_
    rfl).write
  split <;> exact ⟨⟨rfl, rfl, rfl⟩, rfl, rfl, rfl⟩

theorem State.Tallies.approveUnlockEntry (h : s.Tallies noted) (hc : s.memory.cardAt slot = some c) {e : Referral}
    (he : s.Queues e.number c.number) : (approveUnlockEntry s e slot c).1.Tallies noted :=
  ((h.work hc).dropReferral he (d := clearReferralOpen (approveUnlock c)) ⟨⟨rfl, rfl, rfl⟩, rfl, rfl, rfl⟩ rfl).write

theorem State.Tallies.approveDebit (h : s.Tallies noted) (hc : s.memory.cardAt slot = some c) {number : Nat}
    (hq : s.Queues number c.number) (terms : Terms) (request : Attempted) :
    (approveDebit (s.dropReferral number) slot c terms request).1.Tallies noted := by
  have hnum : (s.memory.touch c).card.number = c.number := (sweepCard_frame s.memory.today c).1.number
  have ht : ((s.dropReferral number).withMemory (s.memory.touch c).memory).Works noted slot
      (clearReferralOpen (s.memory.touch c).card) :=
    (h.touch hc).dropReferral (hnum ▸ hq) ⟨⟨rfl, rfl, rfl⟩, rfl, rfl, rfl⟩ rfl
  unfold Sys2Proof.Machine.approveDebit
  dsimp only
  split
  · rename_i i r _ hfound
    have hfound' : (s.memory.findMerchant terms.merchant) = some (i, r) := hfound
    obtain ⟨hi, hu, -⟩ := RecordMemory.merchant_of_findMerchant h.tally.sorted hfound'
    split
    · exact ht.finishRedeem hi hu _ _ _ _ _ _
    · exact ht.finishHold hi hu _ _ _ _ _ _ _
  · unfold endedEarly
    split
    · exact (ht.sameValue (d := ((clearReferralOpen (s.memory.touch c).card).block terms.merchant).1)
        ⟨⟨rfl, rfl, rfl⟩, rfl, rfl, rfl⟩ rfl).declineAttempt _ _ _ _ _ _
    · exact ht.declineAttempt _ _ _ _ _ _

theorem State.Tallies.approveEntry (h : s.Tallies noted) (hc : s.memory.cardAt slot = some c) {e : Referral}
    (he : s.Queues e.number c.number) : (approveEntry s e slot c).1.Tallies noted := by
  unfold Sys2Proof.Machine.approveEntry
  dsimp only
  split
  · exact h.approveDebit hc he _ _
  · exact h.approveDebit hc he _ _
  · exact h.approveDebit hc he _ _
  · exact h.approveUnlockEntry hc he

theorem keeps_decide (number decision : Nat) : Keeps (State.Tallies noted) (decideChange number decision) := fun s h => by
  unfold decideChange
  split
  · exact h
  · split
    · exact h
    · split
      · exact h
      · split
        · rename_i e he
          split
          · exact h
          · split
            · rename_i slot c hf
              obtain ⟨hc, hn⟩ := RecordMemory.Tally.card_of_findCard hf
              have hq : s.Queues e.number c.number := ⟨e, (State.findReferral_queues he).1, rfl, hn.symm⟩
              split
              · exact h.approveEntry hc hq
              · exact h.denyEntry hc hq
            · exact h
        · split <;> exact h

/-! ### UNLOCK and CLOSE-CARD (R46, R47, R67, R68) -/

theorem State.Tallies.unlockCard (h : s.Tallies noted) (hc : s.memory.cardAt slot = some c) (tag : Nat) :
    (unlockCard s tag slot c).1.Tallies noted := by
  have ht := h.touch hc
  unfold Sys2Proof.Machine.unlockCard
  dsimp only
  split
  · exact ht.settle _
  · rename_i hopen
    split
    · exact ht.settle _
    · split
      · exact (ht.sameValue (d := { (s.memory.touch c).card with softLocked := false })
          ⟨⟨rfl, rfl, rfl⟩, rfl, rfl, rfl⟩ rfl).settle _
      · split
        · exact ht.settle _
        · rename_i s' e he
          exact (ht.makeReferral he (Bool.eq_false_iff.mpr hopen)).settle _

theorem keeps_unlock (tag card : Nat) : Keeps (State.Tallies noted) (unlockChange tag card) := fun s h => by
  unfold unlockChange
  split
  · exact h
  · refine keeps_withCard (fun slot c s hf h => ?_) s h
    split
    · exact h
    · exact State.Tallies.unlockCard h (RecordMemory.Tally.card_of_findCard hf).1 tag

theorem keeps_closeCard (card : Nat) : Keeps (State.Tallies []) (closeCardChange card) := fun s h => by
  unfold closeCardChange
  split
  · exact h
  · refine keeps_withCard (fun slot c s hf h => ?_) s h
    have ht := h.touch (RecordMemory.Tally.card_of_findCard hf).1
    split
    · exact h
    · rename_i hholds
      dsimp only
      split
      · exact ht.settle _
      · rename_i hopen
        rw [closeTouched_eq]
        refine State.tallies_watchBlind.disarmAll _ ⟨?_, h.numbers, h.cards⟩
        have hs : (s.memory.touch c).memory.Sorted := { h.tally.sorted with }
        refine ht.tally.closed hs ?_ (Bool.eq_false_iff.mpr hopen)
        rw [RecordMemory.touch_card, (sweepCard_frame s.memory.today c).1.holds]
        simpa using hholds

/-! ### Lapses and CLOSE-TRADING (R122, R123, R126, R191) -/

theorem State.lapseEntry_numbers (s : State) (e : Referral) :
    (s.lapseEntry e).referrals.map Referral.number = s.referrals.map Referral.number ∧
      (s.lapseEntry e).referrals.map Referral.card = s.referrals.map Referral.card := by
  unfold State.lapseEntry
  dsimp only
  rw [List.map_map, List.map_map]
  constructor <;> refine List.map_congr_left fun r _ => ?_ <;> rw [Function.comp_apply] <;> split <;> rfl

theorem State.Tallies.lapseEntry (h : s.Tallies noted) (e : Referral) : (s.lapseEntry e).Tallies noted := by
  obtain ⟨hn, hc⟩ := s.lapseEntry_numbers e
  have hr : (s.lapseEntry e).referred = s.referred := by
    unfold State.referred
    rw [hc]
  refine ⟨?_, hn ▸ h.numbers, hc ▸ h.cards⟩
  rw [hr, State.lapseEntry_memory]
  split
  · refine h.tally.mapCard e.card (fun c => ⟨⟨rfl, rfl, rfl⟩, rfl, rfl, rfl⟩) (fun slot c hf n => ?_) fun _ _ => Iff.rfl
    exact h.tally.flags_same (RecordMemory.Tally.card_of_findCard hf).1 rfl n
  · exact h.tally

theorem State.queues_lapseEntry (e : Referral) {number card : Nat} (h : s.Queues number card) :
    (s.lapseEntry e).Queues number card := by
  obtain ⟨r, hr, rfl, rfl⟩ := h
  refine ⟨_, List.mem_map.mpr ⟨r, hr, rfl⟩, ?_⟩
  split <;> exact ⟨rfl, rfl⟩

theorem State.Tallies.placeLapseNotice (h : s.Tallies noted) {e : Referral} (hq : s.Queues e.number e.card) :
    (s.placeLapseNotice e).Tallies noted := by
  have hdrop := State.referred_dropReferral h.numbers h.cards hq
  have hb : (s.dropReferral e.number).Books noted (s.memory.mapCard e.card clearReferralOpen) := by
    refine State.Books.dropReferral h (h.tally.mapCard e.card (fun c => ⟨⟨rfl, rfl, rfl⟩, rfl, rfl, rfl⟩)
      (fun slot c hf n => ?_) fun hf => ?_)
    · rw [hdrop, (RecordMemory.Tally.card_of_findCard hf).2]
      split <;> simp [clearReferralOpen]
    · obtain ⟨r, hr, -, hrc⟩ := hq
      obtain ⟨slot, c, hc, hcn⟩ := h.tally.flags.present e.card (List.mem_map.mpr ⟨r, hr, hrc⟩)
      have := h.tally.cards.found slot c hc
      rw [hcn, hf] at this
      cases this
  exact ⟨hb.tally, hb.numbers, hb.cards⟩

theorem State.Tallies.offerLapse (h : s.Tallies noted) {e : Referral} (hq : s.Queues e.number e.card) :
    (s.offerLapse e).Tallies noted := by
  unfold State.offerLapse
  split
  · exact h.placeLapseNotice hq
  · exact ⟨h.tally, h.numbers, h.cards⟩

/-- Other entries stay in the queue when one offers its notice. -/
theorem State.queues_offerLapse {e : Referral} {number card : Nat} (h : s.Queues number card) (hne : number ≠ e.number) :
    (s.offerLapse e).Queues number card := by
  unfold State.offerLapse
  split
  · obtain ⟨r, hr, rfl, rfl⟩ := h
    exact ⟨r, List.mem_filter.mpr ⟨hr, bne_iff_ne.mpr hne⟩, rfl, rfl⟩
  · exact h

theorem State.Tallies.offerLapses (l : List Referral) : ∀ {s : State}, s.Tallies noted →
    (∀ e ∈ l, s.Queues e.number e.card) → (l.map Referral.number).Nodup → (l.foldl State.offerLapse s).Tallies noted := by
  induction l with
  | nil => exact fun h _ _ => h
  | cons e l ih =>
    intro s h hq hnd
    rw [List.map_cons, List.nodup_cons] at hnd
    refine ih (h.offerLapse (hq e List.mem_cons_self)) (fun r hr => ?_) hnd.2
    refine State.queues_offerLapse (hq r (List.mem_cons_of_mem _ hr)) fun hn => hnd.1 ?_
    rw [← hn]
    exact List.mem_map_of_mem hr

theorem State.Tallies.closeTrading (h : s.Tallies noted) (tag : Nat) : (s.closeTrading tag).Tallies noted := by
  have hlapsed : ∀ (l : List Referral) {t : State}, t.Tallies noted → (l.foldl State.lapseEntry t).Tallies noted ∧
      ∀ number card, t.Queues number card → (l.foldl State.lapseEntry t).Queues number card := by
    intro l
    induction l with
    | nil => exact fun ht => ⟨ht, fun _ _ hq => hq⟩
    | cons e l ih =>
      intro t ht
      obtain ⟨h1, h2⟩ := ih (ht.lapseEntry e)
      exact ⟨h1, fun n c hq => h2 n c (State.queues_lapseEntry e hq)⟩
  obtain ⟨h1, h2⟩ := hlapsed s.openReferrals (t := { s with engine := .setup }) ⟨h.tally, h.numbers, h.cards⟩
  unfold State.closeTrading
  dsimp only
  refine State.Tallies.offerLapses _ (State.tallies_portBlind.enter _ _ _ _ _ h1) (fun e he => ?_) ?_
  · exact h2 e.number e.card ⟨e, List.mem_of_mem_filter he, rfl, rfl⟩
  · exact h.numbers.sublist ((List.filter_sublist).map _)

theorem State.Tallies.serveLapse (h : s.Tallies noted) : s.serveLapse.Tallies noted := by
  unfold State.serveLapse
  split
  · rename_i number rest _
    split
    · split
      · rename_i e he
        exact State.Tallies.placeLapseNotice (s := { s with waiting := rest }) ⟨h.tally, h.numbers, h.cards⟩
          ⟨e, (State.findReferral_queues he).1, rfl, rfl⟩
      · exact ⟨h.tally, h.numbers, h.cards⟩
    · exact h
  · exact h

theorem State.Tallies.takeLapse (h : s.Tallies noted) {number : Nat} {e : Referral} (he : s.nextLapse number = some e) :
    (s.takeLapse e).Tallies noted := by
  have hmem : e ∈ s.referrals := by
    unfold State.nextLapse at he
    split at he
    · cases he
    · exact List.mem_of_mem_filter (List.mem_of_mem_filter (List.mem_of_find?_eq_some he))
  exact (h.lapseEntry e).offerLapse (State.queues_lapseEntry e ⟨e, hmem, rfl, rfl⟩)

end Sys2Proof.Machine
end

section
/-! A tender keeps the records in tally: its members leave cards whose bookkeeping its settlement makes (R90 to R94). -/

namespace Sys2Proof.Machine

variable {m : RecordMemory} {owed : Total} {noted noted' : List Nat} {F : Nat → Prop} {slot : Slot} {c d : Card}
  {s : State}

/-- More cards may wait for their bookkeeping. -/
theorem RecordMemory.Tally.mono (h : m.Tally 0 owed noted F) (hsub : noted ⊆ noted') : m.Tally 0 owed noted' F :=
  { h with cards := { h.cards with load := fun slot c hc hn => h.cards.load slot c hc fun hm => hn (hsub hm) } }

theorem subset_noteCard (number : Nat) (note : Bool) (cards : List Nat) : cards ⊆ noteCard number note cards := by
  unfold noteCard
  split
  · exact List.subset_append_left ..
  · exact List.Subset.refl _

theorem mem_noteCard (number : Nat) (cards : List Nat) : number ∈ noteCard number true cards := by
  unfold noteCard
  split
  · simp
  · rename_i h
    simpa using h

/-- A run of a tender between two members: its records tally but for the bookkeeping of the cards it changed, and its member
holds stand in slots of their own. -/
structure TenderRun.Tallies (run : TenderRun) : Prop where
  state : run.state.Tallies run.changed
  holds : ∀ d ∈ run.holds, (run.state.memory.holdSlot d.1).record = some d.2
  distinct : (run.holds.map Prod.fst).Nodup

theorem TenderRun.holds_record_of_placed (run : TenderRun) (s : State) (slot : Slot) (c : Card) (wrote : Bool)
    (n : Nat) (x : HoldRecord) (j : Judged) (drawn : Nat) :
    (run.record s slot c wrote (.placed n x) j drawn).holds = run.holds ++ [(n, x)] := by
  simp [TenderRun.holds, TenderRun.record, List.filterMap_append]

theorem TenderRun.holds_record_of_declined (run : TenderRun) (s : State) (slot : Slot) (c : Card) (wrote : Bool)
    (reason : DeclineReason) (j : Judged) (drawn : Nat) :
    (run.record s slot c wrote (.declined reason) j drawn).holds = run.holds := by
  simp [TenderRun.holds, TenderRun.record, List.filterMap_append]

/-- A member declined: its card is written back. -/
theorem TenderRun.Tallies.decline {run : TenderRun} (h : run.Tallies)
    (hs : s.WorksBeside run.changed slot c run.state.memory) (wrote : Bool) (reason : DeclineReason) (j : Judged) :
    (run.record s slot c wrote (.declined reason) j 0).Tallies := by
  obtain ⟨hw, -, hh⟩ := hs
  refine ⟨⟨(hw.tally.mono (subset_noteCard ..)), hw.numbers, hw.cards⟩, ?_, ?_⟩
  · rw [TenderRun.holds_record_of_declined]
    intro d hd
    have hslot : ((s.memory.putCard slot c).holdSlot d.1).record = some d.2 := by
      rw [RecordMemory.holdSlot_putCard]
      unfold RecordMemory.holdSlot
      rw [hh]
      exact h.holds d hd
    exact hslot
  · rw [TenderRun.holds_record_of_declined]
    exact h.distinct

/-- A member hold placed: its card waits for its bookkeeping. -/
theorem TenderRun.Tallies.placed {run : TenderRun} (h : run.Tallies)
    (hs : s.WorksBeside run.changed slot c run.state.memory) {p : Placed}
    (hp : (p.memory.putCard slot p.card).Tally 0 0 (c.number :: run.changed) s.referred) (hplaces : s.memory.Places c p)
    (wrote : Bool) (j : Judged) :
    (run.record (s.withMemory p.memory) slot p.card wrote (.placed p.handle.slot p.record) j p.record.total).Tallies := by
  obtain ⟨hw, -, hh⟩ := hs
  have hold : ∀ k, s.memory.holdSlot k = run.state.memory.holdSlot k := fun k => by
    unfold RecordMemory.holdSlot
    rw [hh]
  have hnew : ∀ k, ((p.memory.putCard slot p.card).holdSlot k) = if k = p.handle.slot then
      { s.memory.holdSlot p.handle.slot with record := some p.record } else run.state.memory.holdSlot k := fun k => by
    rw [RecordMemory.holdSlot_putCard, hplaces.slots, hold k]
  have hne : ∀ d ∈ run.holds, d.1 ≠ p.handle.slot := by
    intro d hd e
    have hd' := h.holds d hd
    rw [e, ← hold, hplaces.free] at hd'
    cases hd'
  refine ⟨⟨(hp.mono ?_), hw.numbers, hw.cards⟩, ?_, ?_⟩
  · have hnote : (wrote || decide (0 < p.record.total)) = true := by simp [hplaces.positive]
    show _ ⊆ noteCard p.card.number (wrote || decide (0 < p.record.total)) run.changed
    rw [hnote, hplaces.number]
    exact List.cons_subset.mpr ⟨mem_noteCard .., subset_noteCard ..⟩
  · rw [TenderRun.holds_record_of_placed]
    intro d hd
    show ((p.memory.putCard slot p.card).holdSlot d.1).record = some d.2
    rw [hnew]
    rcases List.mem_append.mp hd with hd | hd
    · rw [if_neg (hne d hd)]
      exact h.holds d hd
    · cases List.mem_singleton.mp hd
      rw [if_pos rfl]
  · rw [TenderRun.holds_record_of_placed, List.map_append]
    refine List.nodup_append.mpr ⟨h.distinct, List.nodup_singleton _, fun a ha b hb => ?_⟩
    obtain ⟨d, hd, rfl⟩ := List.mem_map.mp ha
    rw [List.mem_singleton.mp hb]
    exact hne d hd

theorem State.Works.placeMember (h : s.Works noted slot c) {i : Nat} {r : Merchant} (hi : s.memory.merchant i = r)
    (hu : r.used = true) {remainder : Nat} {purse : Purse} {p : Placed}
    (hp : placeMember s c i r remainder purse = .ok p) :
    (p.memory.putCard slot p.card).Tally 0 0 (c.number :: noted) s.referred ∧ s.memory.Places c p := by
  unfold Sys2Proof.Machine.placeMember at hp
  split at hp
  · split at hp
    · cases hp
    · split at hp <;> cases hp
  · exact h.tally.place hi hu hp

/-- One member evaluated (R91). -/
theorem TenderRun.Tallies.member {run : TenderRun} (h : run.Tallies) (merchant : Nat) (p : Member) :
    (run.member merchant p).Tallies := by
  have unplaced : ∀ member : MemberRun, (∀ n x, member.result ≠ .placed n x) →
      TenderRun.Tallies { run with members := run.members ++ [member] } := by
    intro member hm
    have hh : TenderRun.holds { run with members := run.members ++ [member] } = run.holds := by
      unfold TenderRun.holds
      rw [List.filterMap_append]
      cases hr : member.result with
      | placed n x => exact absurd hr (hm n x)
      | skipped => simp [hr]
      | declined reason => simp [hr]
    exact ⟨h.state, hh ▸ h.holds, hh ▸ h.distinct⟩
  unfold TenderRun.member
  split
  · exact unplaced _ fun _ _ e => by cases e
  · split
    · rename_i slot c i r hf hm
      obtain ⟨hi, hu, -⟩ := RecordMemory.merchant_of_findMerchant h.state.tally.sorted hm
      have hj := (State.Tallies.touch h.state (RecordMemory.Tally.card_of_findCard hf).1).judge r run.remainder
      have hjb : (judge (run.state.withMemory (run.state.memory.touch c).memory) (run.state.memory.touch c).card r
          run.remainder).state.WorksBeside run.changed slot _ run.state.memory := hj
      have hi' : (judge (run.state.withMemory (run.state.memory.touch c).memory) (run.state.memory.touch c).card r
          run.remainder).state.memory.merchant i = r := by
        unfold RecordMemory.merchant at hi ⊢
        rw [hjb.2.1]
        exact hi
      dsimp only
      split
      · exact h.decline hjb _ _ _
      · exact h.decline hjb _ _ _
      · split
        · exact h.decline hjb _ _ _
        · rename_i p hp
          obtain ⟨hplace, hplaces⟩ := hjb.1.placeMember hi' hu hp
          exact h.placed hjb hplace hplaces _ _
    · exact unplaced _ fun _ _ e => by cases e

/-! ### The settlement (R93) -/

theorem RecordMemory.holdSlot_freeHold (hs : m.Sorted) {n k : Nat} (x : HoldRecord) (cause : EndCause) (hk : k ≠ n) :
    (m.freeHold n x cause).holdSlot k = m.holdSlot k := by
  have h : ∀ y, (m.setHoldSlot n y).holdSlot k = m.holdSlot k := fun y => by
    rw [RecordMemory.holdSlot_setHoldSlot hs.holds, if_neg hk]
  unfold RecordMemory.freeHold
  dsimp only
  split <;> exact h _

theorem captureMember_holdSlot (hs : m.Sorted) (merchant : Nat) {n k : Nat} (x : HoldRecord) (hk : k ≠ n) :
    (captureMember merchant m n x).holdSlot k = m.holdSlot k := by
  unfold captureMember
  split
  · rename_i i r slot c _ _
    dsimp only
    rw [RecordMemory.holdSlot_putCard, RecordMemory.holdSlot_freeHold _ _ _ hk]
    · rfl
    · have hsf : RecordMemory.Sorted { m with funds := m.funds.spend x.paid x.parts } := { hs with }
      exact hsf.setMerchant _ _
  · rfl

theorem releaseMember_holdSlot (hs : m.Sorted) {n k : Nat} (x : HoldRecord) (hk : k ≠ n) :
    (releaseMember m n x).1.holdSlot k = m.holdSlot k := by
  unfold releaseMember
  split
  · rename_i slot c _
    dsimp only
    rw [RecordMemory.holdSlot_putCard, RecordMemory.holdSlot_freeHold _ _ _ hk]
    · rfl
    · exact { hs with }
  · rfl

/-- Member holds settled one by one, each in a slot of its own. -/
theorem settle_holds {α : Type} {memory : α → RecordMemory} {f : α → Nat × HoldRecord → α}
    (hf : ∀ a d, (memory a).Tally 0 owed noted F → ((memory a).holdSlot d.1).record = some d.2 →
      (memory (f a d)).Tally 0 owed noted F ∧ ∀ k, k ≠ d.1 → (memory (f a d)).holdSlot k = (memory a).holdSlot k)
    (l : List (Nat × HoldRecord)) : ∀ a, (memory a).Tally 0 owed noted F →
      (∀ d ∈ l, ((memory a).holdSlot d.1).record = some d.2) → (l.map Prod.fst).Nodup →
      (memory (l.foldl f a)).Tally 0 owed noted F := by
  induction l with
  | nil => exact fun _ h _ _ => h
  | cons d l ih =>
    intro a h hrec hnd
    rw [List.map_cons, List.nodup_cons] at hnd
    obtain ⟨h1, h2⟩ := hf a d h (hrec d List.mem_cons_self)
    refine ih _ h1 (fun e he => ?_) hnd.2
    rw [h2 e.1 fun e' => hnd.1 (e' ▸ List.mem_map_of_mem he)]
    exact hrec e (List.mem_cons_of_mem _ he)

theorem RecordMemory.Tally.noteChanges (l : List Nat) : ∀ {m : RecordMemory}, m.Tally 0 owed l F →
    (l.foldl Sys2Proof.Machine.noteChange m).Tally 0 owed [] F := by
  induction l with
  | nil => exact id
  | cons n l ih => exact fun h => ih h.noteChange

theorem TenderRun.Tallies.settle {run : TenderRun} (h : run.Tallies) (merchant amount : Nat) (acceptPartial : Bool) :
    (run.settle merchant amount acceptPartial).1.Tallies [] := by
  unfold TenderRun.settle
  dsimp only
  split
  · refine State.Books.withMemory h.state (RecordMemory.Tally.noteChanges _ ?_)
    refine settle_holds (memory := id) (fun m d hm hx => ⟨hm.captureMember hx, fun k hk => ?_⟩) run.holds
      run.state.memory h.state.tally h.holds h.distinct
    exact captureMember_holdSlot hm.sorted merchant d.2 hk
  · refine State.Books.withMemory h.state (RecordMemory.Tally.noteChanges _ ?_)
    refine settle_holds (memory := Prod.fst) (f := fun (acc : RecordMemory × Bool) d =>
      ((releaseMember acc.1 d.1 d.2).1, acc.2 || (releaseMember acc.1 d.1 d.2).2))
      (fun m d hm hx => ⟨hm.releaseMember hx, fun k hk => ?_⟩) run.holds
      (run.state.memory, false) h.state.tally h.holds h.distinct
    exact releaseMember_holdSlot hm.sorted d.2 hk

theorem keeps_tender (merchant amount settle count : Nat) (members : List MemberOperands) :
    Keeps (State.Tallies []) (tenderChange merchant amount settle count members) := fun s h => by
  unfold tenderChange
  split
  · exact h
  · split
    · exact h
    · split
      · split
        · exact h
        · split
          · exact h
          · split
            · exact h
            · have h0 : TenderRun.Tallies ⟨s, amount, [], [], none, false⟩ :=
                ⟨h, fun d hd => absurd hd List.not_mem_nil, List.nodup_nil⟩
              refine TenderRun.Tallies.settle ?_ _ _ _
              exact foldl_keeps (Q := TenderRun.Tallies) (fun run p hr => hr.member merchant p) _ _ h0
      · exact h

end Sys2Proof.Machine
end

section
/-! Every request, and every change of the other writers, keeps the records in tally. -/

namespace Sys2Proof.Machine

variable {s u : State} {slot : Slot} {c : Card}

/-! ### Requests on cards and holds -/

/-- A request on a present card's memory. -/
theorem keeps_onCard {card : Nat} {change : RecordMemory → Slot → Card → RecordMemory × Reply}
    (hc : ∀ {m : RecordMemory} {slot c F}, m.Tally 0 0 [] F → m.cardAt slot = some c →
      (change m slot c).1.Tally 0 0 [] F) :
    Keeps (State.Tallies []) (withCard card fun slot c => onMemory fun m => change m slot c) :=
  keeps_withCard fun _ _ _ hf h => h.onMemory (hc h.tally (RecordMemory.Tally.card_of_findCard hf).1)

theorem keeps_issue (card product sponsor life paid bonus : Nat) :
    Keeps (State.Tallies []) (issueChange card product sponsor life paid bonus) := fun s h => by
  unfold issueChange
  split
  · exact h
  · split
    · exact h
    · split
      · exact h
      · split
        · exact h
        · split
          · exact h
          · rename_i hactive
            split
            · exact h
            · split
              · exact h
              · rename_i hnew
                split
                · exact h
                · rename_i slot hslot
                  split
                  · exact h
                  · refine h.onMemory (h.tally.issueCard ?_ hslot (not_not.mp hactive))
                    simpa using hnew

theorem keeps_load (card amount : Nat) : Keeps (State.Tallies []) (loadChange card amount) := fun s h => by
  unfold loadChange
  split
  · exact h
  · split
    · exact h
    · exact keeps_onCard (fun hm hc => hm.loadCard hc amount) s h

theorem keeps_grantBonus (card sponsor life amount : Nat) :
    Keeps (State.Tallies []) (grantBonusChange card sponsor life amount) := fun s h => by
  unfold grantBonusChange
  split
  · exact h
  · split
    · exact h
    · rename_i sp _
      split
      · exact h
      · split
        · exact h
        · split
          · exact h
          · exact keeps_onCard (fun hm hc => hm.grantCard hc sp life amount) s h

theorem keeps_flag (card : Nat) {f : Card → Card} (hf : ∀ c : Card, c.SameValue (f c))
    (hr : ∀ c : Card, (f c).referralOpen = c.referralOpen) : Keeps (State.Tallies []) (flagChange card f) :=
  fun s h => by
    unfold flagChange
    split
    · exact h
    · exact keeps_onCard (change := fun m slot c => flagCard m slot c f) (fun hm hc => hm.flagCard hc hf hr) s h

theorem keeps_voidLast (card merchant stamp : Nat) : Keeps (State.Tallies []) (voidLastChange card merchant stamp) :=
  fun s h => by
    unfold voidLastChange
    split
    · exact h
    · split
      · exact h
      · exact keeps_onCard (fun hm hc => hm.voidCard hc merchant stamp) s h

theorem keeps_refund (card merchant paid count : Nat) (parts : List PartOperands) :
    Keeps (State.Tallies []) (refundChange card merchant paid count parts) := fun s h => by
  unfold refundChange
  split
  · exact h
  · split
    · exact h
    · rename_i ps total hops
      have htotal : total = paid + (ps.map Prod.snd).sum := by
        unfold refundOf at hops
        split at hops
        · split at hops
          · dsimp only at hops
            split at hops <;> cases hops
            rfl
          · cases hops
        · cases hops
      split
      · exact h
      · split
        · exact h
        · rename_i i r hm
          unfold withCard
          split
          · exact h
          · split
            · exact h
            · rename_i slot c hf
              obtain ⟨hi, hu, -⟩ := RecordMemory.merchant_of_findMerchant h.tally.sorted hm
              exact h.onMemory (h.tally.refundCard (RecordMemory.Tally.card_of_findCard hf).1 hi hu htotal)

theorem keeps_capture (n generation merchant amount : Nat) :
    Keeps (State.Tallies []) (captureChange n generation merchant amount) := fun s h => by
  unfold captureChange
  split
  · exact h
  · split
    · exact h
    · refine keeps_withHold (fun s x slot c i r hx hf hm h => h.onMemory ?_) s h
      obtain ⟨hc, hn⟩ := RecordMemory.Tally.card_of_findCard hf
      obtain ⟨hi, hu, -⟩ := RecordMemory.merchant_of_findMerchant h.tally.sorted hm
      exact h.tally.captureHold hc hx hn.symm hi hu

theorem keeps_release (n generation merchant : Nat) :
    Keeps (State.Tallies []) (releaseChange n generation merchant) := fun s h => by
  unfold releaseChange
  split
  · exact h
  · split
    · exact h
    · refine keeps_withHold (fun s x slot c i r hx hf hm h => h.onMemory ?_) s h
      obtain ⟨hc, hn⟩ := RecordMemory.Tally.card_of_findCard hf
      exact h.tally.giveBack hc .settled hx hn.symm

/-! ### Requests on products and merchants -/

theorem keeps_onTally {limit index : Nat} {change : RecordMemory → RecordMemory × Reply}
    (hc : ∀ {m : RecordMemory} {F}, m.Tally 0 0 [] F → (change m).1.Tally 0 0 [] F) :
    Keeps (State.Tallies []) (onIndex limit index change) := keeps_onIndex fun _ h => h.onMemory (hc h.tally)

theorem keeps_defineProduct (i : Nat) (fields : ProductOperands) :
    Keeps (State.Tallies []) (defineProductChange i fields) := fun s h => by
  unfold defineProductChange
  split
  · exact h
  · split
    · split
      · exact h.onMemory (h.tally.defineProductRecord _ _)
      · exact h
    · exact h

theorem keeps_defineMerchant (id : Nat) (p : MerchantOperands) :
    Keeps (State.Tallies []) (defineMerchantChange id p) := fun s h => by
  unfold defineMerchantChange
  split
  · exact h
  · split
    · exact h
    · exact h.onMemory (h.tally.defineMerchantRecord _ _)

theorem keeps_setStanding (id : Nat) {st : MerchantState} (hst : st ≠ .unused) :
    Keeps (State.Tallies []) (onMerchant id (setStanding st)) :=
  keeps_onMerchant fun _ _ _ hf h => h.onMemory (h.tally.setStanding hf hst)

theorem keeps_closeMerchant (id : Nat) : Keeps (State.Tallies []) (onMerchant id closeMerchantRecord) :=
  keeps_onMerchant fun _ _ _ hf h => h.onMemory (h.tally.closeMerchantRecord hf)

/-! ### Requests that leave the tallied records alone -/

/-- A state whose memory's books and whose Referral Queue are another's. -/
theorem State.Tallies.of_books (h : s.Tallies []) (hm : u.memory.books = s.memory.books)
    (hr : u.referrals = s.referrals) : u.Tallies [] := by
  have hF : u.referred = s.referred := by
    unfold State.referred
    rw [hr]
  exact ⟨hF ▸ h.tally.of_books hm, hr ▸ h.numbers, hr ▸ h.cards⟩

theorem keeps_setClock (reading : Nat) : Keeps (State.Tallies []) (setClockChange reading) := fun s h => by
  unfold setClockChange
  split
  · exact h
  · exact h.of_books rfl rfl

theorem keeps_closeDay : Keeps (State.Tallies []) closeDayChange := fun s h => by
  unfold closeDayChange
  split
  · exact h
  · split
    · exact h
    · split
      · exact h
      · exact h.of_books rfl rfl

theorem keeps_openTradingTally : Keeps (State.Tallies []) openTradingChange := fun s h => by
  unfold openTradingChange
  split
  · exact h.of_books rfl rfl
  · exact h

theorem keeps_setReferralTime (seconds : Nat) : Keeps (State.Tallies []) (setReferralTimeChange seconds) := fun s h => by
  unfold setReferralTimeChange
  split
  · exact h
  · split
    · exact h
    · exact h.of_books rfl rfl

theorem tally_retireSponsor {m : RecordMemory} {F : Nat → Prop} (i : Nat) (h : m.Tally 0 0 [] F) :
    (retireSponsorRecord i m).1.Tally 0 0 [] F := by
  unfold retireSponsorRecord
  split
  · exact h.of_books rfl
  · exact h
  · exact h

theorem keeps_defineTier (i : Nat) (fields : Option Tier) : Keeps (State.Tallies []) (defineTierChange i fields) :=
  fun s h => by
    unfold defineTierChange
    split
    · exact h
    · split
      · split
        · exact h.of_books rfl rfl
        · exact h
      · exact h

theorem keeps_defineWatch (i : Nat) (fields : WatchOperands) : Keeps (State.Tallies []) (defineWatchChange i fields) :=
  fun s h => by
    unfold defineWatchChange
    split
    · exact h
    · split
      · split
        · exact State.tallies_watchBlind s _ _ _ h
        · exact h
      · exact h

theorem keeps_rearmWatch (i : Nat) : Keeps (State.Tallies []) (rearmWatchChange i) := fun s h => by
  unfold rearmWatchChange
  split
  · exact h
  · split
    · exact h
    · dsimp only
      split
      · exact h
      · exact State.tallies_watchBlind s _ _ _ h
      · exact h
      · exact h

theorem State.Tallies.setDescriptor (h : s.Tallies []) (i : Nat) (d : Descriptor) : (s.setDescriptor i d).Tallies [] :=
  h.of_books rfl rfl

theorem keeps_startPayout (i mode ratio first last label : Nat) :
    Keeps (State.Tallies []) (startPayoutChange i mode ratio first last label) := fun s h => by
  unfold startPayoutChange
  split
  · exact h
  · split
    · exact h
    · split
      · exact h
      · split
        · exact h
        · exact h
        · exact h
        · exact h.setDescriptor _ _
        · exact h.setDescriptor _ _

theorem State.Tallies.stopRun (h : s.Tallies []) (i : Nat) (ends : Bool) : (s.stopRun i ends).1.Tallies [] := by
  unfold State.stopRun
  dsimp only
  split <;> exact h.of_books rfl rfl

theorem keeps_stopPayout (i form : Nat) : Keeps (State.Tallies []) (stopPayoutChange i form) := fun s h => by
  unfold stopPayoutChange
  split
  · exact h
  · split
    · exact h
    · split
      · exact h
      · split
        · exact h
        · exact h
        · exact h.stopRun _ _
        · exact h.stopRun _ _
        · exact h.stopRun _ _

theorem keeps_resumePayout (i : Nat) : Keeps (State.Tallies []) (resumePayoutChange i) := fun s h => by
  unfold resumePayoutChange
  split
  · exact h
  · split
    · exact h
    · dsimp only
      split
      · exact h.setDescriptor _ _
      · exact h
      · exact h
      · exact h
      · exact h

theorem keeps_format (day reading : Nat) : Keeps (State.Tallies []) (formatChange day reading) := fun s h => by
  unfold formatChange
  split
  · exact h
  · have hF : (s.formatted day reading).referred = fun _ => False := funext fun n => eq_false List.not_mem_nil
    exact ⟨hF ▸ RecordMemory.Tally.blank .., List.nodup_nil, List.nodup_nil⟩

/-! ### Every request -/

theorem State.Tallies.runRequest (i : Instr) (h : s.Tallies []) (hu : runRequest i s = .next u) : u.Tallies [] := by
  have ans : ∀ {i code tag change}, Keeps (State.Tallies []) change →
      answerRequest i code tag change s = .next u → u.Tallies [] :=
    fun hc hu => State.tallies_portBlind.answerRequest hc h hu
  cases i with
  | badCode code length tag => exact ans (keeps_refuse _) hu
  | format tag day reading => exact ans (keeps_format _ _) hu
  | setClock tag reading => exact ans (keeps_setClock _) hu
  | openTrading tag => exact ans keeps_openTradingTally hu
  | closeTrading tag =>
    replace hu : execCloseTrading tag s = .next u := hu
    unfold execCloseTrading at hu
    split at hu
    · cases hu
      exact h
    · have ht := State.tallies_portBlind.take ‹_› h
      split at hu <;> cases hu
      · exact State.Tallies.closeTrading ht _
      · exact State.tallies_portBlind.enter _ _ _ _ _ ht
  | closeDay tag => exact ans keeps_closeDay hu
  | inquireClock tag => exact ans keeps_inquireClock hu
  | issue tag card product sponsor life paid bonus => exact ans ((keeps_issue _ _ _ _ _ _).naming _) hu
  | load tag card amount => exact ans ((keeps_load _ _).naming _) hu
  | grantBonus tag card sponsor life amount => exact ans ((keeps_grantBonus _ _ _ _).naming _) hu
  | inquire tag card => exact ans ((keeps_inquire _).naming _) hu
  | freeze tag card =>
    exact ans ((keeps_flag card (f := fun c => { c with frozen := true }) (fun _ => ⟨⟨rfl, rfl, rfl⟩, rfl, rfl, rfl⟩)
      fun _ => rfl).naming _) hu
  | thaw tag card =>
    exact ans ((keeps_flag card (f := fun c => { c with frozen := false }) (fun _ => ⟨⟨rfl, rfl, rfl⟩, rfl, rfl, rfl⟩)
      fun _ => rfl).naming _) hu
  | lock tag card =>
    exact ans ((keeps_flag card (f := fun c => { c with softLocked := true }) (fun _ => ⟨⟨rfl, rfl, rfl⟩, rfl, rfl, rfl⟩)
      fun _ => rfl).naming _) hu
  | unlock tag card => exact ans ((keeps_unlock _ _).naming _) hu
  | closeCard tag card => exact ans ((keeps_closeCard _).naming _) hu
  | redeem tag card merchant amount selector sponsor allowPartial => exact ans ((keeps_debit _ _ _ _ _).naming _) hu
  | hold tag card merchant amount selector sponsor allowPartial life => exact ans ((keeps_debit _ _ _ _ _).naming _) hu
  | capture tag slot generation merchant amount => exact ans (keeps_capture _ _ _ _) hu
  | release tag slot generation merchant => exact ans (keeps_release _ _ _) hu
  | inquireHold tag slot generation => exact ans (keeps_inquireHold _ _) hu
  | tender tag merchant amount settle count members => exact ans ((keeps_tender _ _ _ _ _).naming _) hu
  | refund tag card merchant paid count parts => exact ans ((keeps_refund _ _ _ _ _).naming _) hu
  | voidLast tag card merchant stamp => exact ans ((keeps_voidLast _ _ _).naming _) hu
  | decide tag number decision => exact ans (keeps_decide _ _) hu
  | setReferralTime tag seconds => exact ans (keeps_setReferralTime _) hu
  | inquireReferral tag number => exact ans (keeps_inquireReferral _) hu
  | defineProduct tag product fields => exact ans (keeps_defineProduct _ _) hu
  | withdrawProduct tag product => exact ans (keeps_onTally fun h => h.withdrawProductRecord _) hu
  | reinstateProduct tag product => exact ans (keeps_onTally fun h => h.reinstateProductRecord _) hu
  | inquireProduct tag product => exact ans (keeps_onTally fun h => h) hu
  | defineSponsor tag sponsor => exact ans (keeps_onTally fun h => h.of_books rfl) hu
  | retireSponsor tag sponsor => exact ans (keeps_onTally fun h => tally_retireSponsor _ h) hu
  | inquireSponsor tag sponsor => exact ans (keeps_onTally fun h => h) hu
  | inquireFunds tag => exact ans keeps_inquireFunds hu
  | defineMerchant tag merchant category trust tier floor allowance period => exact ans (keeps_defineMerchant _ _) hu
  | suspendMerchant tag merchant => exact ans (keeps_setStanding _ (by decide)) hu
  | reinstateMerchant tag merchant => exact ans (keeps_setStanding _ (by decide)) hu
  | closeMerchant tag merchant => exact ans (keeps_closeMerchant _) hu
  | inquireMerchant tag form page index merchant => exact ans (keeps_inquireMerchant _ _ _ _) hu
  | defineTier tag tier rate itemFee minFee maxFee => exact ans (keeps_defineTier _ _) hu
  | inquireTier tag tier => exact ans (keeps_onTally fun h => h) hu
  | defineWatch tag entry fields => exact ans (keeps_defineWatch _ _) hu
  | rearmWatch tag entry => exact ans (keeps_rearmWatch _) hu
  | inquireWatch tag entry => exact ans (keeps_inquireWatch _) hu
  | startPayout tag descriptor mode ratio first last label => exact ans (keeps_startPayout _ _ _ _ _ _) hu
  | stopPayout tag descriptor form => exact ans (keeps_stopPayout _ _) hu
  | resumePayout tag descriptor => exact ans (keeps_resumePayout _) hu
  | inquirePayout tag descriptor => exact ans (keeps_inquirePayout _) hu
  | _ =>
    cases hu
    exact h

theorem State.Tallies.nextRequest (h : s.Tallies []) : s.nextRequest.Tallies [] := by
  unfold State.nextRequest
  split
  · exact h
  · exact outcomeState_keeps h fun u => h.runRequest _

/-! ### The payout engine and the day sweep (R158 to R181) -/

/-- A cut made of a used record (R161). -/
theorem State.Tallies.cutMerchant (h : s.Tallies []) (i : Nat)
    (hu : (s.memory.merchant (s.memory.descriptor i).cursor).used = true) : (s.cutMerchant i).Tallies [] :=
  ⟨(h.tally.cut _ hu).of_books rfl, h.numbers, h.cards⟩

theorem Descriptor.used_of_cuts {d : Descriptor} {r : Merchant} (h : d.cuts r = true) : r.used = true :=
  decide_eq_true ((Descriptor.cuts_iff d r).mp h).1

theorem State.Tallies.takeTurn (h : s.Tallies []) (i : Nat) : (s.takeTurn i).Tallies [] := by
  unfold State.takeTurn State.orWait
  dsimp only
  split
  · split <;> exact h.of_books rfl rfl
  · split
    · rename_i hcut
      split
      · exact h.cutMerchant i (Descriptor.used_of_cuts hcut)
      · exact h.of_books rfl rfl
    · exact h.setDescriptor _ _

theorem State.Tallies.turn (h : s.Tallies []) : s.turn.Tallies [] := by
  unfold State.turn
  split
  · exact h
  · split
    · rename_i i _
      exact State.Tallies.takeTurn (s := { s with lastServed := i }) (h.of_books rfl rfl) i
    · exact h

theorem State.Tallies.serveStep (h : s.Tallies []) (i : Nat) : (s.serveStep i).Tallies [] := by
  unfold State.serveStep
  dsimp only
  split
  · exact h.of_books rfl rfl
  · split
    · rename_i hcut
      exact h.cutMerchant i (Descriptor.used_of_cuts hcut)
    · exact h.setDescriptor _ _

theorem State.Tallies.serveDescriptor (h : s.Tallies []) : s.serveDescriptor.Tallies [] := by
  unfold State.serveDescriptor
  split
  · rename_i i rest _
    split
    · split
      · exact State.Tallies.serveStep (s := { s with waiting := rest }) (h.of_books rfl rfl) i
      · exact h.of_books rfl rfl
    · exact h
  · exact h

theorem State.Tallies.sweepOnce (h : s.Tallies []) : s.sweepOnce.Tallies [] := by
  have he : State.Tallies [] { s with memory := s.memory.examine } := ⟨h.tally.examine, h.numbers, h.cards⟩
  unfold State.sweepOnce
  split
  · dsimp only
    split
    · exact he.of_books rfl rfl
    · split <;> exact he.of_books rfl rfl
  · exact h

theorem State.Tallies.serveSweep (h : s.Tallies []) : s.serveSweep.Tallies [] := by
  unfold State.serveSweep
  split
  · split
    · exact h.of_books rfl rfl
    · exact h
  · exact h

/-! ### The clock expiries (R86, R122, R123) -/

theorem State.Tallies.execHoldExpiry (h : s.Tallies []) (slot : Nat) (hu : execHoldExpiry slot s = .next u) :
    u.Tallies [] := by
  refine whenPowered_keeps (fun h => ?_) h hu
  split
  · exact h
  · split
    · rename_i d hd
      have hmem := List.mem_of_mem_filter (List.mem_of_find?_eq_some hd)
      have hslot : d.2.1 = slot := by simpa using List.find?_some hd
      exact ⟨h.tally.expireHold (hslot ▸ RecordMemory.dueHolds_record h.tally.sorted hmem), h.numbers, h.cards⟩
    · exact h

theorem State.Tallies.execLapse (h : s.Tallies []) (number : Nat) (hu : execLapse number s = .next u) :
    u.Tallies [] := by
  refine whenPowered_keeps (fun h => ?_) h hu
  split
  · exact h
  · split
    · rename_i e he
      exact State.Tallies.takeLapse h he
    · exact h

theorem State.Tallies.payoutChange (h : s.Tallies []) (w : PayoutWriter) : (s.payoutChange w).Tallies [] := by
  cases w with
  | turn => exact h.turn
  | service => exact h.serveDescriptor

theorem State.Tallies.sweepChange (h : s.Tallies []) : s.sweepChange.Tallies [] := by
  unfold State.sweepChange
  split
  · exact h.serveSweep
  · exact h.sweepOnce

theorem State.Tallies.expiryChange (h : s.Tallies []) (w : ExpiryWriter) : (s.expiryChange w).Tallies [] := by
  cases w with
  | hold slot => exact outcomeState_keeps h fun u => h.execHoldExpiry slot
  | lapse number => exact outcomeState_keeps h fun u => h.execLapse number
  | notice => exact State.Tallies.serveLapse h

end Sys2Proof.Machine
end

section
/-! The agreement of the records is the tally with nothing in hand, and that of a powered board's state is the tally with its
Referral Queue (R20, R28, R33, R53, R77, R113). -/

namespace Sys2Proof.Machine

variable {m : RecordMemory} {s : State}

/-! ### The lists of cards, holds and merchants -/

theorem RecordMemory.mem_cards (hs : m.Sorted) {c : Card} : c ∈ m.cards ↔ ∃ slot, m.cardAt slot = some c := by
  unfold RecordMemory.cards
  simp only [List.mem_append, List.mem_map, Prod.exists, exists_eq_right]
  constructor
  · rintro (⟨n, h⟩ | ⟨n, h⟩)
    · exact ⟨.main n, Table.find_of_mem hs.main h⟩
    · exact ⟨.overflow n, Table.find_of_mem hs.pool h⟩
  · rintro ⟨slot, h⟩
    cases slot with
    | main n => exact Or.inl ⟨n, Table.mem_of_find h⟩
    | overflow n => exact Or.inr ⟨n, Table.mem_of_find h⟩

theorem RecordMemory.mem_openHolds (hs : m.Sorted) {x : HoldRecord} :
    x ∈ m.openHolds ↔ ∃ n, (m.holdSlot n).record = some x := by
  unfold RecordMemory.openHolds RecordMemory.holdSlot Table.get
  simp only [List.mem_filterMap, Prod.exists]
  constructor
  · rintro ⟨n, y, hm, hx⟩
    exact ⟨n, by rw [Table.find_of_mem hs.holds hm]; exact hx⟩
  · rintro ⟨n, hx⟩
    cases hf : m.holds.find n with
    | none =>
      rw [hf] at hx
      cases hx
    | some y =>
      rw [hf] at hx
      exact ⟨n, y, Table.mem_of_find hf, hx⟩

theorem RecordMemory.merchant_of_mem (hs : m.Sorted) {e : Nat × Merchant} (he : e ∈ m.merchants) :
    m.merchant e.1 = e.2 := by
  unfold RecordMemory.merchant Table.get
  rw [Table.find_of_mem hs.merchants he]
  rfl

section
variable {G H : Type} [AddCommGroup G] [AddCommGroup H]

theorem RecordMemory.sumCards_eq (f : Card → G) (m : RecordMemory) : m.sumCards f = (m.cards.map f).sum := by
  unfold RecordMemory.sumCards RecordMemory.cards Table.total
  rw [List.map_append, List.sum_append, List.map_map, List.map_map]
  rfl

theorem RecordMemory.sumHolds_eq (f : HoldRecord → G) (m : RecordMemory) : m.sumHolds f = (m.openHolds.map f).sum := by
  unfold RecordMemory.sumHolds RecordMemory.openHolds
  induction m.holds with
  | nil => rfl
  | cons e t ih =>
    rw [Table.total_cons, ih, List.filterMap_cons]
    cases e.2.record with
    | none => exact zero_add _
    | some x => exact (List.sum_cons ..).symm

theorem RecordMemory.sumCards_hom (φ : G →+ H) (f : Card → G) (m : RecordMemory) :
    φ (m.sumCards f) = (m.cards.map fun c => φ (f c)).sum := by
  rw [RecordMemory.sumCards_eq, map_list_sum, List.map_map]
  rfl

theorem RecordMemory.sumHolds_hom (φ : G →+ H) (f : HoldRecord → G) (m : RecordMemory) :
    φ (m.sumHolds f) = (m.openHolds.map fun x => φ (f x)).sum := by
  rw [RecordMemory.sumHolds_eq, map_list_sum, List.map_map]
  rfl

theorem RecordMemory.sumMerchants_eq (f : Merchant → G) (m : RecordMemory) :
    m.sumMerchants f = ((m.merchants.filter fun e => e.2.used).map fun e => f e.2).sum := by
  unfold RecordMemory.sumMerchants
  induction m.merchants with
  | nil => rfl
  | cons e t ih =>
    rw [Table.total_cons, ih, List.filter_cons]
    split
    · rfl
    · exact zero_add _

end

theorem sum_countP {α : Type} (p : α → Prop) [DecidablePred p] (l : List α) :
    (l.map fun a => if p a then (1 : ℤ) else 0).sum = l.countP fun a => decide (p a) := by
  induction l with
  | nil => rfl
  | cons a l ih =>
    rw [List.map_cons, List.sum_cons, ih, List.countP_cons]
    by_cases h : p a
    · simp [h, add_comm]
    · simp [h]

/-! ### The totals (R20) -/

/-- A pair of liabilities by its entries. -/
def sponsorHom (s : Fin 8) : Worth →+ Total :=
  (Pi.evalAddMonoidHom (fun _ : Fin 8 => Total) s).comp (AddMonoidHom.snd Total (Fin 8 → Total))

theorem Worth.eq_iff (a b : Worth) :
    a = b ↔ AddMonoidHom.fst Total (Fin 8 → Total) a = AddMonoidHom.fst Total (Fin 8 → Total) b ∧
      ∀ s, sponsorHom s a = sponsorHom s b :=
  Prod.ext_iff.trans (and_congr_right' funext_iff)

theorem RecordMemory.liabilitiesAgree_iff (m : RecordMemory) : m.LiabilitiesAgree ↔
    m.funds.liabilities = m.sumCards Card.worth + m.sumHolds HoldRecord.worth ∧
      m.funds.due = m.sumMerchants fun r => moneyInt r.position.due := by
  have hpaid : (fun c : Card => AddMonoidHom.fst Total (Fin 8 → Total) c.worth) = fun c => money c.paid :=
    funext fun c => worth_fst ..
  have hpaid' : (fun x : HoldRecord => AddMonoidHom.fst Total (Fin 8 → Total) x.worth) = fun x => money x.paid :=
    funext fun c => worth_fst ..
  have hbonus : ∀ s, (fun c : Card => sponsorHom s c.worth) = fun c => sponsorMoney s c.lots :=
    fun s => funext fun c => worth_snd ..
  have hbonus' : ∀ s, (fun x : HoldRecord => sponsorHom s x.worth) = fun x => sponsorMoney s x.parts :=
    fun s => funext fun c => worth_snd ..
  rw [Worth.eq_iff]
  simp only [map_add, RecordMemory.sumCards_hom, RecordMemory.sumHolds_hom, hpaid, hpaid', hbonus, hbonus',
    RecordMemory.sumMerchants_eq]
  exact ⟨fun ⟨h1, h2, h3⟩ => ⟨⟨h1, h2⟩, h3⟩, fun ⟨⟨h1, h2⟩, h3⟩ => ⟨h1, h2, h3⟩⟩

/-! ### The cards, the holds and the merchants -/

theorem RecordMemory.cardsAgree_iff (hs : m.Sorted) : m.CardsAgree ↔ m.CardsTally [] := by
  have hissued : ∀ i, (m.product i).issued = m.cards.countP (fun c => c.product = i) ↔
      ((m.product i).issued : ℤ) = m.sumCards fun c => if c.product = i then 1 else 0 := fun i => by
    rw [RecordMemory.sumCards_eq, sum_countP]
    exact Nat.cast_inj.symm
  constructor
  · intro h
    exact ⟨h.found, fun i => (hissued i).mp (h.issued i), h.unused,
      fun slot c hc => h.lots c ((RecordMemory.mem_cards hs).mpr ⟨slot, hc⟩),
      fun slot c hc _ => h.load c ((RecordMemory.mem_cards hs).mpr ⟨slot, hc⟩)⟩
  · intro h
    refine ⟨h.found, fun i => (hissued i).mpr (h.issued i), h.unused, fun c hc => ?_, fun c hc => ?_⟩
    · obtain ⟨slot, hslot⟩ := (RecordMemory.mem_cards hs).mp hc
      exact h.lots slot c hslot
    · obtain ⟨slot, hslot⟩ := (RecordMemory.mem_cards hs).mp hc
      exact h.load slot c hslot List.not_mem_nil

theorem RecordMemory.holdsAgree_iff (hs : m.Sorted) (hc : m.CardsTally []) :
    m.HoldsAgree ↔ m.ListsTally ∧ m.MerchantsTally := by
  have hcount : ∀ id, m.sumHolds (holdsAt id) = (m.openHolds.countP fun x => x.merchant = id : ℕ) := fun id => by
    rw [RecordMemory.sumHolds_eq]
    exact sum_countP (fun x : HoldRecord => x.merchant = id) _
  constructor
  · intro h
    refine ⟨⟨fun n x hx => ?_, fun slot c hslot => h.named c ((RecordMemory.mem_cards hs).mpr ⟨slot, hslot⟩),
      fun n x hx => h.parts x ((RecordMemory.mem_openHolds hs).mpr ⟨n, hx⟩)⟩, fun n x hx => ?_, fun i j hi hj e => ?_,
      fun i hi => ?_⟩
    · obtain ⟨slot, c, hf, hk⟩ := h.listed n x hx
      obtain ⟨hn, hslot, -⟩ := RecordMemory.findCard_spec hf
      exact ⟨slot, c, hslot, hn, hk⟩
    · obtain ⟨⟨i, r⟩, hf⟩ := h.merchant x ((RecordMemory.mem_openHolds hs).mpr ⟨n, hx⟩)
      obtain ⟨rfl, hu, hid⟩ := RecordMemory.merchant_of_findMerchant hs hf
      exact ⟨i, hu, hid⟩
    · have h1 := h.merchants _ (RecordMemory.mem_merchants hi) hi
      have h2 := h.merchants _ (RecordMemory.mem_merchants hj) hj
      rw [e, h2] at h1
      exact (congrArg Prod.fst (Option.some.inj h1)).symm
    · rw [hcount]
      exact congrArg Nat.cast (h.counted _ (RecordMemory.mem_merchants hi) hi)
  · rintro ⟨hl, hm⟩
    refine ⟨fun n x hx => ?_, fun c hc => ?_, fun x hx => ?_, fun x hx => ?_, fun e he hu => ?_, fun e he hu => ?_⟩
    · obtain ⟨slot, c, hslot, hn, hk⟩ := hl.listed n x hx
      exact ⟨slot, c, hn ▸ hc.found slot c hslot, hk⟩
    · obtain ⟨slot, hslot⟩ := (RecordMemory.mem_cards hs).mp hc
      exact hl.named slot c hslot
    · obtain ⟨n, hn⟩ := (RecordMemory.mem_openHolds hs).mp hx
      exact hl.parts n x hn
    · obtain ⟨n, hn⟩ := (RecordMemory.mem_openHolds hs).mp hx
      obtain ⟨i, hu, hid⟩ := hm.merchant n x hn
      exact ⟨_, hid ▸ hm.findMerchant hs hu⟩
    · have hr := RecordMemory.merchant_of_mem hs he
      have := hm.findMerchant hs (i := e.1) (by rwa [hr])
      rwa [hr] at this
    · have hr := RecordMemory.merchant_of_mem hs he
      have := hm.counted e.1 (by rwa [hr])
      rw [hcount, hr] at this
      exact Nat.cast_injective this

/-! ### The agreement -/

/-- The cards whose referral-open flags are set. -/
def RecordMemory.flagged (m : RecordMemory) (n : Nat) : Prop :=
  ∃ slot c, m.cardAt slot = some c ∧ c.number = n ∧ c.referralOpen = true

theorem RecordMemory.CardsTally.flagged (h : m.CardsTally []) : m.FlagsTally m.flagged := by
  refine ⟨fun slot c hc => ⟨fun ho => ⟨slot, c, hc, rfl, ho⟩, ?_⟩, fun n ⟨slot, c, hc, hn, _⟩ => ⟨slot, c, hc, hn⟩⟩
  rintro ⟨y, e, he, hn, ho⟩
  have hy := h.same_slot he hc hn
  rw [hy, hc] at he
  cases he
  exact ho

/-- Records that agree tally, with the flags they have. -/
theorem RecordMemory.Agrees.tally (h : m.Agrees) (hs : m.Sorted) : m.Tally 0 0 [] m.flagged := by
  obtain ⟨hl, hc, hh⟩ := h
  obtain ⟨h1, h2⟩ := m.liabilitiesAgree_iff.mp hl
  have hc' := (RecordMemory.cardsAgree_iff hs).mp hc
  obtain ⟨h3, h4⟩ := (RecordMemory.holdsAgree_iff hs hc').mp hh
  exact ⟨hs, h1.trans (add_zero _).symm, h2.trans (add_zero _).symm, hc', h3, h4, hc'.flagged⟩

theorem RecordMemory.Tally.agrees {F : Nat → Prop} (h : m.Tally 0 0 [] F) : m.Agrees :=
  ⟨m.liabilitiesAgree_iff.mpr ⟨h.liabilities.trans (add_zero _), h.due.trans (add_zero _)⟩,
    (RecordMemory.cardsAgree_iff h.sorted).mpr h.cards,
    (RecordMemory.holdsAgree_iff h.sorted h.cards).mpr ⟨h.lists, h.merchants⟩⟩

theorem RecordMemory.rollForward_empty (m : RecordMemory) : m.rollForward UpdateSlots.empty = m := rfl

/-- On a powered board the records that agree tally with the Referral Queue. -/
theorem State.Agrees.tallies (h : s.Agrees) (hp : s.powered = true) (hs : s.memory.Sorted) : s.Tallies [] := by
  have hr := h.records
  rw [h.between hp, RecordMemory.rollForward_empty] at hr
  have ht := hr.tally hs
  have hq := h.referrals hp
  refine ⟨{ ht with flags := ⟨fun slot c hc => ⟨fun ho => ?_, fun hF => ?_⟩, fun n hn => ?_⟩ }, hq.numbers, hq.cards⟩
  · obtain ⟨e, he, hn⟩ := hq.flags c ((RecordMemory.mem_cards hs).mpr ⟨slot, hc⟩) ho
    exact List.mem_map.mpr ⟨e, he, hn⟩
  · obtain ⟨e, he, hn⟩ := List.mem_map.mp hF
    obtain ⟨y, d, hf, ho⟩ := hq.entries e he
    rw [hn, ht.cards.found slot c hc] at hf
    cases hf
    exact ho
  · obtain ⟨e, he, rfl⟩ := List.mem_map.mp hn
    obtain ⟨y, d, hf, -⟩ := hq.entries e he
    obtain ⟨hd, hdn⟩ := RecordMemory.Tally.card_of_findCard hf
    exact ⟨y, d, hd, hdn⟩

/-- A state with EMPTY slots whose records tally with the Referral Queue agrees. -/
theorem State.Tallies.agrees (h : s.Tallies []) (hslots : s.slots = UpdateSlots.empty) : s.Agrees := by
  refine ⟨fun _ => hslots, ?_, fun _ => ⟨h.numbers, h.cards, fun e he => ?_, fun c hc ho => ?_⟩⟩
  · rw [hslots, RecordMemory.rollForward_empty]
    exact h.tally.agrees
  · obtain ⟨slot, c, hc, hn⟩ := h.tally.flags.present e.card (List.mem_map_of_mem he)
    have hF := (h.tally.flags.flags slot c hc).mpr (hn ▸ List.mem_map_of_mem he)
    exact ⟨slot, c, hn ▸ h.tally.cards.found slot c hc, hF⟩
  · obtain ⟨slot, hslot⟩ := (RecordMemory.mem_cards h.tally.sorted).mp hc
    obtain ⟨e, he, hn⟩ := List.mem_map.mp ((h.tally.flags.flags slot c hslot).mp ho)
    exact ⟨e, he, hn⟩

end Sys2Proof.Machine
end

section
/-! Two changes of Record Memory joined: the records tally when each change alone leaves them so, and one of the two moves no
card, merchant or hold to another place (R193). -/

namespace Sys2Proof.Machine

variable {m a b c : RecordMemory}

/-- A change that makes and removes no card, product or merchant and opens no hold, as those of the payout engine, the day
sweep and the clock expiries. -/
structure RecordMemory.Framed (m b : RecordMemory) : Prop where
  chains : b.chains = m.chains
  products : b.products = m.products
  cards : ∀ y, (b.cardAt y).map Card.number = (m.cardAt y).map Card.number
  merchants : ∀ i, (b.merchant i).used = (m.merchant i).used ∧ (b.merchant i).id = (m.merchant i).id
  holds : ∀ n, b.holdSlot n = m.holdSlot n ∨ (b.holdSlot n).record = none

theorem RecordMemory.Framed.refl (m : RecordMemory) : m.Framed m :=
  ⟨rfl, rfl, fun _ => rfl, fun _ => ⟨rfl, rfl⟩, fun _ => Or.inl rfl⟩

theorem RecordMemory.Framed.trans (h : m.Framed a) (k : a.Framed b) : m.Framed b where
  chains := k.chains.trans h.chains
  products := k.products.trans h.products
  cards y := (k.cards y).trans (h.cards y)
  merchants i := ⟨(k.merchants i).1.trans (h.merchants i).1, (k.merchants i).2.trans (h.merchants i).2⟩
  holds n := (k.holds n).elim (fun e => (h.holds n).imp e.trans fun h => by rw [e]; exact h) Or.inr

/-- A memory joins the changes that two others make to a first. -/
structure RecordMemory.Joins (m a b c : RecordMemory) : Prop where
  main : Table.Joins m.mainCards a.mainCards b.mainCards c.mainCards
  pool : Table.Joins m.poolCards a.poolCards b.poolCards c.poolCards
  chains : Table.Joins m.chains a.chains b.chains c.chains
  products : Table.Joins m.products a.products b.products c.products
  merchants : Table.Joins m.merchants a.merchants b.merchants c.merchants
  holds : Table.Joins m.holds a.holds b.holds c.holds
  liabilities : c.funds.liabilities + m.funds.liabilities = a.funds.liabilities + b.funds.liabilities
  due : c.funds.due + m.funds.due = a.funds.due + b.funds.due

theorem Table.Joins.symm {α : Type} {m a b c : Table α} (h : Table.Joins m a b c) : Table.Joins m b a c :=
  fun k => (h k).symm

theorem RecordMemory.Joins.symm (h : m.Joins a b c) : m.Joins b a c :=
  ⟨h.main.symm, h.pool.symm, h.chains.symm, h.products.symm, h.merchants.symm, h.holds.symm,
    h.liabilities.trans (add_comm ..), h.due.trans (add_comm ..)⟩

/-- A table that the second change leaves alone is the first change's. -/
theorem Table.Joins.eq_left {α : Type} {m a b c : Table α} (h : Table.Joins m a b c) (hb : b = m)
    (ha : a.rising = true) (hc : c.rising = true) : c = a := by
  refine Table.ext_find hc ha fun k => ?_
  rcases h k with ⟨-, e⟩ | ⟨e1, e2⟩
  · exact e
  · rw [e2, hb, e1]

theorem RecordMemory.Joins.cardAt (j : m.Joins a b c) (y : Slot) :
    (b.cardAt y = m.cardAt y ∧ c.cardAt y = a.cardAt y) ∨ (a.cardAt y = m.cardAt y ∧ c.cardAt y = b.cardAt y) := by
  cases y with
  | main n => exact j.main n
  | overflow n => exact j.pool n

theorem Table.Joins.get {α : Type} {m a b c : Table α} (h : Table.Joins m a b c) (d : α) (k : Nat) :
    (b.get d k = m.get d k ∧ c.get d k = a.get d k) ∨ (a.get d k = m.get d k ∧ c.get d k = b.get d k) := by
  unfold Table.get
  rcases h k with ⟨h1, h2⟩ | ⟨h1, h2⟩
  · exact Or.inl ⟨by rw [h1], by rw [h2]⟩
  · exact Or.inr ⟨by rw [h1], by rw [h2]⟩

theorem RecordMemory.Joins.holdSlot (j : m.Joins a b c) (n : Nat) :
    (b.holdSlot n = m.holdSlot n ∧ c.holdSlot n = a.holdSlot n) ∨
      (a.holdSlot n = m.holdSlot n ∧ c.holdSlot n = b.holdSlot n) := j.holds.get HoldSlot.free n

theorem RecordMemory.Joins.merchant (j : m.Joins a b c) (i : Nat) :
    (b.merchant i = m.merchant i ∧ c.merchant i = a.merchant i) ∨
      (a.merchant i = m.merchant i ∧ c.merchant i = b.merchant i) := j.merchants.get Merchant.unused i

section
variable {G : Type} [AddCommGroup G]

theorem RecordMemory.Joins.sumCards (j : m.Joins a b c) (f : Card → G) (hm : m.Sorted) (ha : a.Sorted) (hb : b.Sorted)
    (hc : c.Sorted) : c.sumCards f + m.sumCards f = a.sumCards f + b.sumCards f := by
  have h1 := j.main.total f hm.main ha.main hb.main hc.main
  have h2 := j.pool.total f hm.pool ha.pool hb.pool hc.pool
  unfold RecordMemory.sumCards
  rw [add_add_add_comm, h1, h2, add_add_add_comm]

theorem RecordMemory.Joins.sumHolds (j : m.Joins a b c) (f : HoldRecord → G) (hm : m.Sorted) (ha : a.Sorted)
    (hb : b.Sorted) (hc : c.Sorted) : c.sumHolds f + m.sumHolds f = a.sumHolds f + b.sumHolds f :=
  j.holds.total _ hm.holds ha.holds hb.holds hc.holds

theorem RecordMemory.Joins.sumMerchants (j : m.Joins a b c) (f : Merchant → G) (hm : m.Sorted) (ha : a.Sorted)
    (hb : b.Sorted) (hc : c.Sorted) : c.sumMerchants f + m.sumMerchants f = a.sumMerchants f + b.sumMerchants f :=
  j.merchants.total _ hm.merchants ha.merchants hb.merchants hc.merchants

end

/-! ### The joined records -/

section
variable {Fm Fa Fb : Nat → Prop} (hm : m.Tally 0 0 [] Fm) (ha : a.Tally 0 0 [] Fa) (hb : b.Tally 0 0 [] Fb)
  (hf : m.Framed b) (hc : c.Sorted) (j : m.Joins a b c)

include hf j in
/-- Every slot of the joined Card Table has a card of the first change's number. -/
theorem RecordMemory.Joins.number (y : Slot) : (c.cardAt y).map Card.number = (a.cardAt y).map Card.number := by
  rcases j.cardAt y with ⟨-, e⟩ | ⟨e1, e2⟩
  · rw [e]
  · rw [e2, e1, hf.cards]

include hf j in
/-- An OPEN hold of the joined Hold Pool is the first change's, and the second leaves its slot. -/
theorem RecordMemory.Joins.open_hold {n : Nat} {x : HoldRecord} (hx : (c.holdSlot n).record = some x) :
    b.holdSlot n = m.holdSlot n ∧ c.holdSlot n = a.holdSlot n := by
  rcases j.holdSlot n with h | ⟨e1, e2⟩
  · exact h
  · rcases hf.holds n with e | e
    · exact ⟨e, e2.trans (e.trans e1.symm)⟩
    · rw [e2, e] at hx
      cases hx

include hf j in
/-- A merchant record of the joined table has the first change's id and use. -/
theorem RecordMemory.Joins.merchant_id (i : Nat) :
    (c.merchant i).used = (a.merchant i).used ∧ (c.merchant i).id = (a.merchant i).id := by
  rcases j.merchant i with ⟨-, e⟩ | ⟨e1, e2⟩
  · rw [e]
    exact ⟨rfl, rfl⟩
  · rw [e2, e1]
    exact hf.merchants i

include hm ha hb hf hc j in
theorem RecordMemory.Joins.cardsTally : c.CardsTally [] := by
  have hchains := j.chains.eq_left hf.chains ha.sorted.chains hc.chains
  have hproducts := j.products.eq_left hf.products ha.sorted.products hc.products
  have hway : ∀ n y, y ∈ c.slotsOf n ↔ y ∈ a.slotsOf n := fun n y => by
    rw [RecordMemory.mem_slotsOf, RecordMemory.mem_slotsOf]
    unfold RecordMemory.chain
    rw [hchains]
  have hproduct : ∀ i, c.product i = a.product i := fun i => by
    unfold RecordMemory.product
    rw [hproducts]
  have hcard : ∀ {y e}, c.cardAt y = some e → ∃ d, a.cardAt y = some d ∧ d.number = e.number := by
    intro y e he
    have hn := j.number hf y
    rw [he] at hn
    exact Option.map_eq_some_iff.mp hn.symm
  refine ⟨fun y e he => ?_, fun i => ?_, fun i => ?_, fun y e he => ?_, fun y e he => ?_⟩
  · obtain ⟨d, hd, hdn⟩ := hcard he
    refine RecordMemory.findCard_of_unique ((hway _ _).mpr (hdn ▸ ha.cards.reached hd)) he fun z g hg hn => ?_
    obtain ⟨k, hk, hkn⟩ := hcard hg
    exact ha.cards.same_slot hk hd (hkn.trans (hn.trans hdn.symm))
  · have hsum := j.sumCards (fun e : Card => if e.product = i then (1 : ℤ) else 0) hm.sorted ha.sorted hb.sorted hc
    have hbm : b.product i = m.product i := by
      unfold RecordMemory.product
      rw [hf.products]
    rw [← hm.cards.issued, ← ha.cards.issued, ← hb.cards.issued, hbm] at hsum
    rw [hproduct]
    exact (add_right_cancel hsum).symm
  · rw [hproduct]
    exact ha.cards.unused i
  · rcases j.cardAt y with ⟨-, e2⟩ | ⟨-, e2⟩ <;> rw [e2] at he
    · exact ha.cards.lots y e he
    · exact hb.cards.lots y e he
  · rcases j.cardAt y with ⟨-, e2⟩ | ⟨-, e2⟩ <;> rw [e2] at he
    · exact ha.cards.load y e he
    · exact hb.cards.load y e he

include hm ha hb hf j in
theorem RecordMemory.Joins.listsTally : c.ListsTally := by
  have hbcard : ∀ {y e}, m.cardAt y = some e → ∃ d, b.cardAt y = some d ∧ d.number = e.number := by
    intro y e he
    have hn := hf.cards y
    rw [he] at hn
    exact Option.map_eq_some_iff.mp hn
  refine ⟨fun n x hx => ?_, fun y e he => ?_, fun n x hx => ?_⟩
  · obtain ⟨ebm, eca⟩ := j.open_hold hf hx
    rw [eca] at hx ⊢
    obtain ⟨y, e, he, hn, hk⟩ := ha.lists.listed n x hx
    rcases j.cardAt y with ⟨-, e2⟩ | ⟨e1, e2⟩
    · exact ⟨y, e, e2.trans he, hn, hk⟩
    · have hem : m.cardAt y = some e := e1.symm.trans he
      obtain ⟨hg, z, hz, hzc⟩ := (hm.lists.named y e hem).2 _ hk
      dsimp only at hg hz
      obtain ⟨y', d, hd, hdn, hdk⟩ := hb.lists.listed n z (by rw [ebm]; exact hz)
      obtain ⟨d', hd', hdn'⟩ := hbcard hem
      have hy : y' = y := hb.cards.same_slot hd hd' (hdn.trans (hzc.trans hdn'.symm))
      subst hy
      refine ⟨y', d, e2.trans hd, hdn.trans (hzc.trans hn), ?_⟩
      rw [ebm, hg] at hdk
      exact hdk
  · rcases j.cardAt y with ⟨e1, e2⟩ | ⟨e1, e2⟩
    · rw [e2] at he
      obtain ⟨hnd, hnames⟩ := ha.lists.named y e he
      refine ⟨hnd, fun k hk => ?_⟩
      have same : c.holdSlot k.slot = a.holdSlot k.slot := by
        rcases j.holdSlot k.slot with ⟨-, h⟩ | ⟨h1, h2⟩
        · exact h
        · rcases hf.holds k.slot with h3 | h3
          · rw [h2, h3, h1]
          · exfalso
            obtain ⟨hg, x, hx, hxc⟩ := hnames k hk
            rw [h1] at hg hx
            obtain ⟨y0, e0, he0, hn0, hk0⟩ := hm.lists.listed _ x hx
            have hby : b.cardAt y0 = some e0 := by
              rcases j.cardAt y0 with ⟨h4, -⟩ | ⟨h4, -⟩
              · rw [h4, he0]
              · have hy : y0 = y := ha.cards.same_slot (h4.trans he0) he (hn0.trans hxc)
                rw [hy, e1, ← hy, he0]
            obtain ⟨-, z, hz, -⟩ := (hb.lists.named y0 e0 hby).2 _ hk0
            rw [h3] at hz
            cases hz
      rw [same]
      exact hnames k hk
    · rw [e2] at he
      obtain ⟨hnd, hnames⟩ := hb.lists.named y e he
      refine ⟨hnd, fun k hk => ?_⟩
      obtain ⟨hg, x, hx, hxc⟩ := hnames k hk
      rcases j.holdSlot k.slot with ⟨h1, h2⟩ | ⟨-, h2⟩
      · rw [h1] at hg hx
        obtain ⟨y0, e0, he0, hn0, hk0⟩ := hm.lists.listed _ x hx
        obtain ⟨d, hd, hdn⟩ := hbcard he0
        have hy : y0 = y := hb.cards.same_slot hd he (hdn.trans (hn0.trans hxc))
        subst hy
        rw [hg] at hk0
        obtain ⟨hga, z, hz, hzc⟩ := (ha.lists.named y0 e0 (e1.trans he0)).2 _ hk0
        rw [h2]
        exact ⟨hga, z, hz, hzc.trans (hn0.trans hxc)⟩
      · rw [h2]
        exact ⟨hg, x, hx, hxc⟩
  · rcases j.holdSlot n with ⟨-, e⟩ | ⟨-, e⟩ <;> rw [e] at hx
    · exact ha.lists.parts n x hx
    · exact hb.lists.parts n x hx

include hm ha hb hf hc j in
theorem RecordMemory.Joins.merchantsTally : c.MerchantsTally := by
  have hid := j.merchant_id hf
  refine ⟨fun n x hx => ?_, fun i k hi hk e => ?_, fun i hi => ?_⟩
  · rw [(j.open_hold hf hx).2] at hx
    obtain ⟨i, hi, hx⟩ := ha.merchants.merchant n x hx
    exact ⟨i, (hid i).1.trans hi, (hid i).2.trans hx⟩
  · rw [(hid i).1] at hi
    rw [(hid k).1] at hk
    rw [(hid i).2, (hid k).2] at e
    exact ha.merchants.unique i k hi hk e
  · rw [(hid i).1] at hi
    rw [(hid i).2]
    have hsum := j.sumHolds (holdsAt (a.merchant i).id) hm.sorted ha.sorted hb.sorted hc
    rcases j.merchant i with ⟨e1, e2⟩ | ⟨e1, e2⟩
    · have hbm : b.sumHolds (holdsAt (a.merchant i).id) = m.sumHolds (holdsAt (a.merchant i).id) := by
        by_cases hex : ∃ k, (m.merchant k).used = true ∧ (m.merchant k).id = (a.merchant i).id
        · obtain ⟨k, hk, hkid⟩ := hex
          have hbk : b.merchant k = m.merchant k := by
            rcases j.merchant k with ⟨h, -⟩ | ⟨h, -⟩
            · exact h
            · have hki : k = i := ha.merchants.unique k i (by rw [h]; exact hk) hi (by rw [h]; exact hkid)
              rw [hki]
              exact e1
          have h1 := hm.merchants.counted k hk
          have h2 := hb.merchants.counted k (by rw [hbk]; exact hk)
          rw [hkid] at h1
          rw [hbk, hkid] at h2
          exact h2.symm.trans h1
        · rw [RecordMemory.sum_of_no_holds hm.sorted fun n x hx e => ?_,
            RecordMemory.sum_of_no_holds hb.sorted fun n x hx e => ?_]
          · obtain ⟨k, hk, hkid⟩ := hb.merchants.merchant n x hx
            rw [(hf.merchants k).1] at hk
            rw [(hf.merchants k).2] at hkid
            exact hex ⟨k, hk, hkid.trans e⟩
          · obtain ⟨k, hk, hkid⟩ := hm.merchants.merchant n x hx
            exact hex ⟨k, hk, hkid.trans e⟩
      rw [hbm] at hsum
      rw [e2, ha.merchants.counted i hi]
      exact (add_right_cancel hsum).symm
    · have h1 := ha.merchants.counted i hi
      have h2 := hm.merchants.counted i (by rw [← e1]; exact hi)
      have h3 := hb.merchants.counted i (by rw [(hf.merchants i).1, ← e1]; exact hi)
      rw [(hf.merchants i).2, ← e1] at h3
      rw [← e1, h1] at h2
      rw [← h2, add_comm (a.sumHolds _)] at hsum
      rw [e2, h3]
      exact (add_right_cancel hsum).symm

include hm ha hb hf hc j in
/-- The joined records tally. -/
theorem RecordMemory.Joins.tally : c.Tally 0 0 [] c.flagged := by
  have hcards := j.cardsTally hm ha hb hf hc
  exact {
    sorted := hc
    liabilities := by
      have h1 := j.liabilities
      have h2 := j.sumCards Card.worth hm.sorted ha.sorted hb.sorted hc
      have h3 := j.sumHolds HoldRecord.worth hm.sorted ha.sorted hb.sorted hc
      rw [hm.liabilities, ha.liabilities, hb.liabilities] at h1
      refine add_right_cancel (h1.trans ?_)
      rw [eq_sub_of_add_eq h2, eq_sub_of_add_eq h3]
      abel
    due := by
      have h1 := j.due
      have h2 := j.sumMerchants (fun r => moneyInt r.position.due) hm.sorted ha.sorted hb.sorted hc
      rw [hm.due, ha.due, hb.due] at h1
      refine add_right_cancel (h1.trans ?_)
      rw [eq_sub_of_add_eq h2]
      abel
    cards := hcards
    lists := j.listsTally hm ha hb hf
    merchants := j.merchantsTally hm ha hb hf hc
    flags := hcards.flagged }

end

end Sys2Proof.Machine
end

section
/-! The update slots' writes, table by table: what a list of writes leaves at an index, and what rolling a stopped writer's slot
forward makes of Record Memory (R193). -/

namespace Sys2Proof.Machine

variable {m m' : RecordMemory} {α : Type} [DecidableEq α]

/-! ### Tables written -/

theorem Table.find_write {α : Type} {t : Table α} (h : t.rising = true) (k i : Nat) (v : Option α) :
    (t.write k v).find i = if i = k then v else t.find i := by
  split
  · rename_i e
    subst e
    cases v with
    | none => exact Table.find_erase_same i h
    | some w => exact Table.find_insert_same t i w
  · rename_i e
    cases v with
    | none => exact Table.find_erase_other t e
    | some w => exact Table.find_insert_other t w e

/-- A difference lists exactly the indexes at which the tables differ, with the second table's entries. -/
theorem Table.mem_diff_iff {a b : Table α} (ha : a.rising = true) (hb : b.rising = true) (k : Nat) (v : Option α) :
    (k, v) ∈ a.diff b ↔ v = b.find k ∧ a.find k ≠ b.find k := by
  unfold Table.diff
  rw [List.mem_append, List.mem_map, List.mem_map]
  constructor
  · rintro (⟨⟨j, w⟩, he, heq⟩ | ⟨⟨j, w⟩, he, heq⟩) <;> cases heq <;> rw [List.mem_filter] at he
    · rw [Table.find_of_mem hb he.1]
      exact ⟨rfl, by simpa using he.2⟩
    · rw [Table.find_of_mem ha he.1, Option.isNone_iff_eq_none.mp he.2]
      exact ⟨rfl, fun h => by cases h⟩
  · rintro ⟨rfl, hne⟩
    cases hf : b.find k with
    | some w =>
      rw [hf] at hne
      exact Or.inl ⟨(k, w), List.mem_filter.mpr ⟨Table.mem_of_find hf, by simpa using hne⟩, rfl⟩
    | none =>
      rw [hf] at hne
      obtain ⟨w, hw⟩ := Option.ne_none_iff_exists'.mp hne
      exact Or.inr ⟨(k, w), List.mem_filter.mpr ⟨Table.mem_of_find hw, by simp [hf]⟩, rfl⟩

/-! ### The tables of Record Memory and their writes -/

/-- A table of Record Memory with the writes that name its records. -/
structure RecordField (α : Type) [DecidableEq α] where
  get : RecordMemory → Table α
  make : Nat → Option α → RecordWrite
  made : ∀ w, (∃ k v, w = make k v) ∨ ∀ m, get (RecordMemory.applyWrite m w) = get m
  apply : ∀ m k v, get (RecordMemory.applyWrite m (make k v)) = (get m).write k v
  same : ∀ k v v', (make k v).sameRecord (make k v') = true
  mem_writesTo : ∀ a b k v, make k v ∈ RecordMemory.writesTo a b ↔ (k, v) ∈ (get a).diff (get b)
  rising : ∀ m, RecordMemory.Sorted m → (get m).rising = true
  withFunds : ∀ (m : RecordMemory) f, get { m with funds := f } = get m
  uncredited : ∀ m, get (RecordMemory.uncredited m) = get m

theorem mem_tableWrites (a b : Table α) (f : Nat → Option α → RecordWrite) (w : RecordWrite) :
    w ∈ tableWrites a b f ↔ ∃ e ∈ a.diff b, f e.1 e.2 = w := List.mem_map

theorem mem_valueWrite (a b : α) (w w' : RecordWrite) : w ∈ valueWrite a b w' ↔ a ≠ b ∧ w = w' := by
  unfold valueWrite
  split <;> simp [*]

def mainField : RecordField Card where
  get m := m.mainCards
  make := .mainCard
  made w := by cases w <;> simp [RecordMemory.applyWrite]
  apply _ _ _ := rfl
  same _ _ _ := by simp [RecordWrite.sameRecord]
  mem_writesTo a b k v := by simp [RecordMemory.writesTo, mem_tableWrites, mem_valueWrite]
  rising _ h := h.main
  withFunds _ _ := rfl
  uncredited _ := rfl

def poolField : RecordField Card where
  get m := m.poolCards
  make := .poolCard
  made w := by cases w <;> simp [RecordMemory.applyWrite]
  apply _ _ _ := rfl
  same _ _ _ := by simp [RecordWrite.sameRecord]
  mem_writesTo a b k v := by simp [RecordMemory.writesTo, mem_tableWrites, mem_valueWrite]
  rising _ h := h.pool
  withFunds _ _ := rfl
  uncredited _ := rfl

def chainField : RecordField (List Nat) where
  get m := m.chains
  make := .chain
  made w := by cases w <;> simp [RecordMemory.applyWrite]
  apply _ _ _ := rfl
  same _ _ _ := by simp [RecordWrite.sameRecord]
  mem_writesTo a b k v := by simp [RecordMemory.writesTo, mem_tableWrites, mem_valueWrite]
  rising _ h := h.chains
  withFunds _ _ := rfl
  uncredited _ := rfl

def productField : RecordField Product where
  get m := m.products
  make := .product
  made w := by cases w <;> simp [RecordMemory.applyWrite]
  apply _ _ _ := rfl
  same _ _ _ := by simp [RecordWrite.sameRecord]
  mem_writesTo a b k v := by simp [RecordMemory.writesTo, mem_tableWrites, mem_valueWrite]
  rising _ h := h.products
  withFunds _ _ := rfl
  uncredited _ := rfl

def merchantField : RecordField Merchant where
  get m := m.merchants
  make := .merchant
  made w := by cases w <;> simp [RecordMemory.applyWrite]
  apply _ _ _ := rfl
  same _ _ _ := by simp [RecordWrite.sameRecord]
  mem_writesTo a b k v := by simp [RecordMemory.writesTo, mem_tableWrites, mem_valueWrite]
  rising _ h := h.merchants
  withFunds _ _ := rfl
  uncredited _ := rfl

def holdField : RecordField HoldSlot where
  get m := m.holds
  make := .hold
  made w := by cases w <;> simp [RecordMemory.applyWrite]
  apply _ _ _ := rfl
  same _ _ _ := by simp [RecordWrite.sameRecord]
  mem_writesTo a b k v := by simp [RecordMemory.writesTo, mem_tableWrites, mem_valueWrite]
  rising _ h := h.holds
  withFunds _ _ := rfl
  uncredited _ := rfl

/-! ### Writes applied -/

theorem RecordMemory.Sorted.applyWrite (h : m.Sorted) (w : RecordWrite) : (m.applyWrite w).Sorted := by
  cases w with
  | mainCard i v => exact { h with main := Table.rising_write i v h.main }
  | poolCard i v => exact { h with pool := Table.rising_write i v h.pool }
  | chain i v => exact { h with chains := Table.rising_write i v h.chains }
  | product i v => exact { h with products := Table.rising_write i v h.products }
  | merchant i v => exact { h with merchants := Table.rising_write i v h.merchants }
  | hold i v => exact { h with holds := Table.rising_write i v h.holds }
  | _ => exact { h with }

theorem RecordMemory.Sorted.applyAll (h : m.Sorted) (writes : List RecordWrite) : (m.applyAll writes).Sorted :=
  foldl_keeps (Q := RecordMemory.Sorted) (fun _ w hm => hm.applyWrite w) writes m h

theorem RecordMemory.Sorted.rollSlot (h : m.Sorted) (x : UpdateSlot) : (m.rollSlot x).Sorted := by
  unfold RecordMemory.rollSlot
  split
  · dsimp only
    split
    · exact h.applyAll _
    · exact { h.applyAll _ with }
  · exact h

/-- Slots rolled forward or discarded in their order. -/
def RecordMemory.rollAll (m : RecordMemory) (slots : List UpdateSlot) : RecordMemory := slots.foldl RecordMemory.rollSlot m

theorem RecordMemory.rollAll_append (m : RecordMemory) (slots : List UpdateSlot) (x : UpdateSlot) :
    m.rollAll (slots ++ [x]) = (m.rollAll slots).rollSlot x := List.foldl_append ..

theorem RecordMemory.Sorted.rollAll (h : m.Sorted) (slots : List UpdateSlot) : (m.rollAll slots).Sorted :=
  foldl_keeps (Q := RecordMemory.Sorted) (fun _ x hm => hm.rollSlot x) slots m h

variable (f : RecordField α)

/-- The entry at an index after writes that all give it one value. -/
theorem RecordField.find_applyAll {k : Nat} {x : Option α} (W : List RecordWrite) : ∀ {m : RecordMemory}, m.Sorted →
    (∀ v, f.make k v ∈ W → v = x) → ((f.get m).find k = x ∨ ∃ v, f.make k v ∈ W) →
    (f.get (m.applyAll W)).find k = x := by
  induction W with
  | nil => exact fun _ _ h => h.resolve_right fun ⟨_, hv⟩ => List.not_mem_nil hv
  | cons w rest ih =>
    intro m hs hx h
    refine ih (hs.applyWrite w) (fun v hv => hx v (List.mem_cons_of_mem _ hv)) ?_
    by_cases hw : ∃ v, w = f.make k v
    · obtain ⟨v, rfl⟩ := hw
      left
      rw [f.apply, Table.find_write (f.rising m hs), if_pos rfl]
      exact hx v List.mem_cons_self
    · have hfind : (f.get (m.applyWrite w)).find k = (f.get m).find k := by
        rcases f.made w with ⟨j, v, rfl⟩ | h
        · rw [f.apply, Table.find_write (f.rising m hs), if_neg]
          rintro rfl
          exact hw ⟨v, rfl⟩
        · rw [h]
      rw [hfind]
      refine h.imp id ?_
      rintro ⟨v, hv⟩
      exact ⟨v, (List.mem_cons.mp hv).resolve_left fun e => hw ⟨v, e.symm⟩⟩

/-- Writes that do not name a record leave it. -/
theorem RecordField.find_applyAll_other (hs : m.Sorted) {k : Nat} {W : List RecordWrite} (h : ∀ v, f.make k v ∉ W) :
    (f.get (m.applyAll W)).find k = (f.get m).find k :=
  f.find_applyAll W hs (fun v hv => absurd hv (h v)) (Or.inl rfl)

/-- What writes leave at an index depends on the entry alone that stood there. -/
theorem RecordField.find_applyAll_congr {k : Nat} (W : List RecordWrite) : ∀ {m m' : RecordMemory}, m.Sorted → m'.Sorted →
    (f.get m).find k = (f.get m').find k → (f.get (m.applyAll W)).find k = (f.get (m'.applyAll W)).find k := by
  induction W with
  | nil => exact fun _ _ h => h
  | cons w rest ih =>
    intro m m' hs hs' h
    refine ih (hs.applyWrite w) (hs'.applyWrite w) ?_
    rcases f.made w with ⟨j, v, rfl⟩ | hw
    · rw [f.apply, f.apply, Table.find_write (f.rising m hs), Table.find_write (f.rising m' hs'), h]
    · rw [hw, hw, h]

theorem RecordField.find_rollSlot_congr {k : Nat} (x : UpdateSlot) (hs : m.Sorted) (hs' : m'.Sorted)
    (h : (f.get m).find k = (f.get m').find k) : (f.get (m.rollSlot x)).find k = (f.get (m'.rollSlot x)).find k := by
  cases x with
  | empty => exact h
  | filling => exact h
  | sealed records amounts applied checkPasses =>
    have hw := f.find_applyAll_congr records hs hs' h
    cases checkPasses with
    | false => exact h
    | true =>
      simp only [RecordMemory.rollSlot]
      split
      · exact hw
      · exact ((congrArg (·.find k) (f.withFunds _ _)).trans hw).trans (congrArg (·.find k) (f.withFunds _ _)).symm

theorem RecordField.find_rollAll_congr {k : Nat} (slots : List UpdateSlot) : ∀ {m m' : RecordMemory}, m.Sorted → m'.Sorted →
    (f.get m).find k = (f.get m').find k → (f.get (m.rollAll slots)).find k = (f.get (m'.rollAll slots)).find k := by
  induction slots with
  | nil => exact fun _ _ h => h
  | cons x rest ih =>
    exact fun hs hs' h => ih (hs.rollSlot x) (hs'.rollSlot x) (f.find_rollSlot_congr x hs hs' h)

/-! ### Amounts added -/

/-- What a slot's roll adds to the liabilities and to due does not depend on the memory. -/
theorem RecordMemory.rollAll_adds (slots : List UpdateSlot) : ∃ (w : Worth) (t : Total), ∀ m : RecordMemory,
    (m.rollAll slots).funds.liabilities = m.funds.liabilities + w ∧ (m.rollAll slots).funds.due = m.funds.due + t := by
  induction slots with
  | nil => exact ⟨0, 0, fun m => ⟨(add_zero _).symm, (add_zero _).symm⟩⟩
  | cons x rest ih =>
    have one : ∃ (w : Worth) (t : Total), ∀ m : RecordMemory,
        (m.rollSlot x).funds.liabilities = m.funds.liabilities + w ∧ (m.rollSlot x).funds.due = m.funds.due + t := by
      have none : (∀ m : RecordMemory, (m.rollSlot x).funds = m.funds) → ∃ (w : Worth) (t : Total), ∀ m : RecordMemory,
          (m.rollSlot x).funds.liabilities = m.funds.liabilities + w ∧ (m.rollSlot x).funds.due = m.funds.due + t :=
        fun h => ⟨0, 0, fun m => by rw [h]; exact ⟨(add_zero _).symm, (add_zero _).symm⟩⟩
      cases x with
      | empty => exact none fun _ => rfl
      | filling => exact none fun _ => rfl
      | sealed records amounts applied checkPasses =>
        cases checkPasses with
        | false => exact none fun _ => rfl
        | true =>
          cases applied with
          | true => exact none fun m => m.applyAll_funds records
          | false =>
            refine ⟨amounts.liabilities, amounts.due, fun m => ?_⟩
            show ((m.applyAll records).funds.add amounts).liabilities = _ ∧ ((m.applyAll records).funds.add amounts).due = _
            rw [Funds.liabilities_add, RecordMemory.applyAll_funds]
            exact ⟨rfl, rfl⟩
    obtain ⟨w1, t1, h1⟩ := one
    obtain ⟨w2, t2, h2⟩ := ih
    refine ⟨w1 + w2, t1 + t2, fun m => ?_⟩
    obtain ⟨h3, h4⟩ := h1 m
    obtain ⟨h5, h6⟩ := h2 (m.rollSlot x)
    rw [h3, add_assoc] at h5
    rw [h4, add_assoc] at h6
    exact ⟨h5, h6⟩

end Sys2Proof.Machine
end

section
/-! The changes of the payout engine, the day sweep and the clock expiries move no card, merchant or hold to another place
(R161, R162, R179, R86, R122). -/

namespace Sys2Proof.Machine

variable {m b b' : RecordMemory} {s u : State} {slot : Slot} {c d : Card}

/-! ### Single updates -/

/-- The fund totals and the other records bear on no place. -/
theorem RecordMemory.Framed.of_books (h : m.Framed b) {f : Funds}
    (e : b'.books = RecordMemory.books { b with funds := f }) : m.Framed b' := by
  cases b
  cases b'
  simp only [RecordMemory.books, Prod.mk.injEq] at e
  obtain ⟨rfl, rfl, rfl, rfl, rfl, rfl, rfl⟩ := e
  exact ⟨h.chains, h.products, h.cards, h.merchants, h.holds⟩

theorem RecordMemory.Framed.putCard (h : m.Framed b) (hc : m.cardAt slot = some c) (hd : d.number = c.number) :
    m.Framed (b.putCard slot d) where
  chains := by cases slot <;> exact h.chains
  products := by cases slot <;> exact h.products
  cards y := by
    rw [RecordMemory.cardAt_putCard]
    split
    · rename_i e
      rw [e, hc, Option.map_some, Option.map_some, hd]
    · exact h.cards y
  merchants i := by
    rw [RecordMemory.merchant_putCard]
    exact h.merchants i
  holds n := by
    rw [RecordMemory.holdSlot_putCard]
    exact h.holds n

theorem RecordMemory.Framed.settle (h : m.Framed b) (hc : m.cardAt slot = some c) (hd : d.number = c.number)
    (wrote : Bool) : m.Framed (b.settle slot d wrote).1 := by
  unfold RecordMemory.settle
  split
  · exact h.putCard hc hd
  · exact h.putCard hc hd

theorem RecordMemory.Framed.setMerchant (h : m.Framed b) (hs : b.Sorted) {i : Nat} {r : Merchant}
    (hu : r.used = (b.merchant i).used) (hid : r.id = (b.merchant i).id) : m.Framed (b.setMerchant i r) where
  chains := h.chains
  products := h.products
  cards := h.cards
  merchants k := by
    rw [RecordMemory.merchant_setMerchant hs.merchants]
    split
    · rename_i e
      rw [hu, hid, e]
      exact h.merchants i
    · exact h.merchants k
  holds := h.holds

theorem RecordMemory.Framed.setHoldSlot (h : m.Framed b) (hs : b.Sorted) (n : Nat) {x : HoldSlot} (hx : x.record = none) :
    m.Framed (b.setHoldSlot n x) where
  chains := h.chains
  products := h.products
  cards := h.cards
  merchants := h.merchants
  holds k := by
    rw [RecordMemory.holdSlot_setHoldSlot hs.holds]
    split
    · exact Or.inr hx
    · exact h.holds k

theorem RecordMemory.Framed.freeHold (h : m.Framed b) (hs : b.Sorted) (n : Nat) (x : HoldRecord) (cause : EndCause) :
    m.Framed (b.freeHold n x cause) := by
  have hb := h.setHoldSlot hs n (x := ⟨((b.holdSlot n).generation + 1) % halfSpan,
    some ⟨(b.holdSlot n).generation, x.merchant, cause⟩, none⟩) rfl
  unfold RecordMemory.freeHold
  dsimp only
  split
  · rename_i hf
    obtain ⟨hi, -, -⟩ := RecordMemory.merchant_of_findMerchant (hs.setHoldSlot n _) hf
    exact hb.setMerchant (hs.setHoldSlot n _) (by rw [hi]; rfl) (by rw [hi])
  · exact hb

theorem RecordMemory.Framed.mapCard (number : Nat) {f : Card → Card} (hf : ∀ c, (f c).number = c.number) :
    m.Framed (m.mapCard number f) := by
  unfold RecordMemory.mapCard
  split
  · rename_i slot c hc
    exact (RecordMemory.Framed.refl m).putCard (RecordMemory.Tally.card_of_findCard hc).1 (hf c)
  · exact .refl m

/-! ### The payout engine (R161, R162) -/

theorem State.framed_cutMerchant (hs : s.memory.Sorted) (i : Nat) : s.memory.Framed (s.cutMerchant i).memory := by
  unfold State.cutMerchant
  dsimp only
  generalize cutOf _ _ = r
  generalize s.memory.funds.settleCut r = f
  have hf : s.memory.Framed { s.memory with funds := f } := (RecordMemory.Framed.refl _).of_books rfl
  have hk := hf.setMerchant { hs with } (i := (s.memory.descriptor i).cursor)
    (r := (s.memory.merchant (s.memory.descriptor i).cursor).afterCut r) (Merchant.used_afterCut ..) rfl
  exact hk.of_books rfl

theorem State.framed_setDescriptor (s : State) (i : Nat) (d : Descriptor) : s.memory.Framed (s.setDescriptor i d).memory :=
  (RecordMemory.Framed.refl _).of_books rfl

theorem State.framed_takeTurn (hs : s.memory.Sorted) (i : Nat) : s.memory.Framed (s.takeTurn i).memory := by
  unfold State.takeTurn State.orWait
  dsimp only
  split
  · split <;> exact (RecordMemory.Framed.refl _).of_books rfl
  · split
    · split
      · exact State.framed_cutMerchant hs i
      · exact (RecordMemory.Framed.refl _).of_books rfl
    · exact s.framed_setDescriptor i _

theorem State.framed_turn (hs : s.memory.Sorted) : s.memory.Framed s.turn.memory := by
  unfold State.turn
  split
  · exact .refl _
  · split
    · rename_i i _
      exact State.framed_takeTurn (s := { s with lastServed := i }) hs i
    · exact .refl _

theorem State.framed_serveStep (hs : s.memory.Sorted) (i : Nat) : s.memory.Framed (s.serveStep i).memory := by
  unfold State.serveStep
  dsimp only
  split
  · exact (RecordMemory.Framed.refl _).of_books rfl
  · split
    · exact State.framed_cutMerchant hs i
    · exact s.framed_setDescriptor i _

theorem State.framed_serveDescriptor (hs : s.memory.Sorted) : s.memory.Framed s.serveDescriptor.memory := by
  unfold State.serveDescriptor
  split
  · rename_i i rest _
    split
    · split
      · exact State.framed_serveStep (s := { s with waiting := rest }) hs i
      · exact (RecordMemory.Framed.refl _).of_books rfl
    · exact .refl _
  · exact .refl _

theorem State.framed_payoutChange (hs : s.memory.Sorted) (w : PayoutWriter) : s.memory.Framed (s.payoutChange w).memory := by
  cases w with
  | turn => exact State.framed_turn hs
  | service => exact State.framed_serveDescriptor hs

/-! ### The day sweep (R179, R181) -/

theorem RecordMemory.framed_examine (m : RecordMemory) : m.Framed m.examine := by
  unfold RecordMemory.examine
  split
  · exact .refl m
  · rename_i c hc
    split
    · exact (RecordMemory.Framed.refl m).of_books rfl
    · refine RecordMemory.Framed.settle ?_ hc (sweepCard_frame m.sweep.day c).1.number _
      exact (RecordMemory.Framed.refl m).of_books rfl

theorem State.framed_sweepOnce (s : State) : s.memory.Framed s.sweepOnce.memory := by
  unfold State.sweepOnce
  split
  · dsimp only
    split
    · exact s.memory.framed_examine.of_books rfl
    · split <;> exact s.memory.framed_examine.of_books rfl
  · exact .refl _

theorem State.framed_serveSweep (s : State) : s.memory.Framed s.serveSweep.memory := by
  unfold State.serveSweep
  split
  · split
    · exact (RecordMemory.Framed.refl _).of_books rfl
    · exact .refl _
  · exact .refl _

theorem State.framed_sweepChange (s : State) : s.memory.Framed s.sweepChange.memory := by
  unfold State.sweepChange
  split
  · exact s.framed_serveSweep
  · exact s.framed_sweepOnce

/-! ### The clock expiries (R86, R122, R123) -/

theorem RecordMemory.framed_giveBack (hs : m.Sorted) (hc : m.cardAt slot = some c) (n : Nat) (x : HoldRecord)
    (cause : EndCause) : m.Framed (m.giveBack n x slot c cause).1 := by
  unfold RecordMemory.giveBack
  have hf : m.Framed ((m.touch c).memory.returnValue (m.touch c).card x.paid x.parts).1 :=
    (RecordMemory.Framed.refl m).of_books rfl
  exact (hf.freeHold { hs with } n x cause).putCard hc (sweepCard_frame m.today c).1.number

theorem RecordMemory.framed_expireHold (hs : m.Sorted) (n : Nat) (x : HoldRecord) : m.Framed (m.expireHold n x) := by
  unfold RecordMemory.expireHold
  split
  · rename_i hf
    exact RecordMemory.framed_giveBack hs (RecordMemory.Tally.card_of_findCard hf).1 n x .expired
  · exact .refl m

theorem State.framed_lapseEntry (s : State) (e : Referral) : s.memory.Framed (s.lapseEntry e).memory := by
  rw [State.lapseEntry_memory]
  split
  · exact .mapCard _ fun _ => rfl
  · exact .refl _

theorem State.framed_placeLapseNotice (s : State) (e : Referral) : s.memory.Framed (s.placeLapseNotice e).memory :=
  .mapCard _ fun _ => rfl

theorem State.framed_offerLapse (s : State) (e : Referral) : s.memory.Framed (s.offerLapse e).memory := by
  unfold State.offerLapse
  split
  · exact s.framed_placeLapseNotice e
  · exact .refl _

theorem State.framed_serveLapse (s : State) : s.memory.Framed s.serveLapse.memory := by
  unfold State.serveLapse
  split
  · split
    · split
      · exact State.framed_placeLapseNotice _ _
      · exact .refl _
    · exact .refl _
  · exact .refl _

theorem State.framed_execHoldExpiry (hs : s.memory.Sorted) (slot : Nat) (hu : execHoldExpiry slot s = .next u) :
    s.memory.Framed u.memory := by
  refine whenPowered_keeps (P := fun u => s.memory.Framed u.memory) (fun h => ?_) (.refl _) hu
  split
  · exact h
  · split
    · exact RecordMemory.framed_expireHold hs slot _
    · exact h

theorem State.framed_execLapse (number : Nat) (hu : execLapse number s = .next u) : s.memory.Framed u.memory := by
  refine whenPowered_keeps (P := fun u => s.memory.Framed u.memory) (fun h => ?_) (.refl _) hu
  split
  · exact h
  · split
    · exact (s.framed_lapseEntry _).trans (State.framed_offerLapse _ _)
    · exact h

theorem State.framed_expiryChange (hs : s.memory.Sorted) (w : ExpiryWriter) :
    s.memory.Framed (s.expiryChange w).memory := by
  cases w with
  | hold slot =>
    exact outcomeState_keeps (P := fun u => s.memory.Framed u.memory) (.refl _) fun _ => State.framed_execHoldExpiry hs slot
  | lapse number =>
    exact outcomeState_keeps (P := fun u => s.memory.Framed u.memory) (.refl _) fun _ => State.framed_execLapse number
  | notice => exact s.framed_serveLapse

end Sys2Proof.Machine
end

section
/-! A writer stopped at a stage of its change: whatever the stages of the writers before it, rolling the slots forward gives the
changes made, each whole or not at all, and the records tally (R193). -/

namespace Sys2Proof.Machine

variable {m a M : RecordMemory} {acc : Stopped} {slots : List UpdateSlot} {before after : State} {s : State}

/-! ### One change begun -/

/-- The retained records that a change gives new contents. -/
def RecordMemory.changesTo (m a : RecordMemory) : List RecordWrite := m.uncredited.writesTo a.uncredited

theorem RecordField.mem_changesTo {α : Type} [DecidableEq α] (f : RecordField α) (hm : m.Sorted) (ha : a.Sorted) (k : Nat)
    (v : Option α) : f.make k v ∈ m.changesTo a ↔ v = (f.get a).find k ∧ (f.get m).find k ≠ (f.get a).find k := by
  rw [RecordMemory.changesTo, f.mem_writesTo, f.uncredited, f.uncredited, Table.mem_diff_iff (f.rising m hm) (f.rising a ha)]

/-- A memory with what stage 3 had applied of a change when it was stopped. -/
def RecordMemory.begun (m : RecordMemory) (records : List RecordWrite) (amounts : Funds) (written : Nat) (applied : Bool) :
    RecordMemory :=
  if applied then
    { m.applyAll (records.take written) with funds := (m.applyAll (records.take written)).funds.add amounts }
  else m.applyAll (records.take written)

theorem RecordMemory.Sorted.begun (h : m.Sorted) (records : List RecordWrite) (amounts : Funds) (written : Nat)
    (applied : Bool) : (m.begun records amounts written applied).Sorted := by
  unfold RecordMemory.begun
  split
  · exact { h.applyAll _ with }
  · exact h.applyAll _

theorem RecordField.get_begun {α : Type} [DecidableEq α] (f : RecordField α) (m : RecordMemory) (records : List RecordWrite)
    (amounts : Funds) (written : Nat) (applied : Bool) :
    f.get (m.begun records amounts written applied) = f.get (m.applyAll (records.take written)) := by
  unfold RecordMemory.begun
  split
  · exact f.withFunds _ _
  · rfl

theorem RecordField.get_rollSealed {α : Type} [DecidableEq α] (f : RecordField α) (m : RecordMemory)
    (records : List RecordWrite) (amounts : Funds) (applied : Bool) :
    f.get (m.rollSlot (.sealed records amounts applied true)) = f.get (m.applyAll records) := by
  cases applied with
  | true => rfl
  | false => exact f.withFunds _ _

/-- A change begun and its slot rolled forward: its amounts are added once, before the roll or in it. -/
theorem RecordMemory.begun_adds (slots : List UpdateSlot) (m : RecordMemory) (records : List RecordWrite) (amounts : Funds)
    (written : Nat) (applied : Bool) :
    (((m.begun records amounts written applied).rollAll slots).rollSlot
        (.sealed records amounts applied true)).funds.liabilities = (m.rollAll slots).funds.liabilities + amounts.liabilities ∧
    (((m.begun records amounts written applied).rollAll slots).rollSlot
        (.sealed records amounts applied true)).funds.due = (m.rollAll slots).funds.due + amounts.due := by
  obtain ⟨w, t, h⟩ := RecordMemory.rollAll_adds slots
  obtain ⟨hw, ht⟩ := h m
  obtain ⟨hbw, hbt⟩ := h (m.begun records amounts written applied)
  cases applied with
  | true =>
    have hr : ∀ x : RecordMemory, (x.rollSlot (.sealed records amounts true true)).funds = x.funds :=
      fun x => x.applyAll_funds records
    have hb : (m.begun records amounts written true).funds = m.funds.add amounts :=
      congrArg (Funds.add · amounts) (m.applyAll_funds _)
    rw [hr, hbw, hbt, hw, ht, hb, Funds.liabilities_add]
    exact ⟨add_right_comm .., add_right_comm ..⟩
  | false =>
    have hr : ∀ x : RecordMemory, (x.rollSlot (.sealed records amounts false true)).funds = x.funds.add amounts :=
      fun x => congrArg (Funds.add · amounts) (x.applyAll_funds records)
    have hb : (m.begun records amounts written false).funds = m.funds := m.applyAll_funds _
    rw [hr, Funds.liabilities_add, hw, ← hb, ← hbw]
    refine ⟨rfl, ?_⟩
    show _ + amounts.due = _
    rw [hbt, ht, hb]

section
variable {α : Type} [DecidableEq α] (f : RecordField α) {records : List RecordWrite} {amounts : Funds} {written : Nat}
  {applied : Bool} {k : Nat}

/-- A record that a change names has the change's contents after the roll. -/
theorem RecordField.find_begun_named (hM : M.Sorted) {x : Option α} (hx : ∀ v, f.make k v ∈ records → v = x)
    (hk : ∃ v, f.make k v ∈ records) :
    (f.get (((M.begun records amounts written applied).rollAll slots).rollSlot
      (.sealed records amounts applied true))).find k = x := by
  rw [f.get_rollSealed]
  exact f.find_applyAll records ((hM.begun ..).rollAll slots) hx (Or.inr hk)

/-- A record that a change does not name is what the slots before it leave. -/
theorem RecordField.find_begun_other (hM : M.Sorted) (hk : ∀ v, f.make k v ∉ records) :
    (f.get (((M.begun records amounts written applied).rollAll slots).rollSlot
      (.sealed records amounts applied true))).find k = (f.get (M.rollAll slots)).find k := by
  rw [f.get_rollSealed, f.find_applyAll_other ((hM.begun ..).rollAll slots) hk]
  refine f.find_rollAll_congr slots (hM.begun ..) hM ?_
  rw [f.get_begun]
  exact f.find_applyAll_other hM fun v hv => hk v (List.mem_of_mem_take hv)

/-- A change begun and rolled forward joins what the slots before it make, when they name none of its records. -/
theorem RecordField.joins_begun (hm : m.Sorted) (ha : a.Sorted) (hM : M.Sorted)
    (hn : ∀ k v, f.make k v ∈ m.changesTo a → (f.get (M.rollAll slots)).find k = (f.get m).find k) :
    Table.Joins (f.get m) (f.get (M.rollAll slots)) (f.get a)
      (f.get (((M.begun (m.changesTo a) amounts written applied).rollAll slots).rollSlot
        (.sealed (m.changesTo a) amounts applied true))) := fun k => by
  by_cases hk : ∃ v, f.make k v ∈ m.changesTo a
  · right
    obtain ⟨v, hv⟩ := hk
    exact ⟨hn k v hv, f.find_begun_named hM (fun w hw => ((f.mem_changesTo hm ha k w).mp hw).1) ⟨v, hv⟩⟩
  · left
    rw [not_exists] at hk
    refine ⟨?_, f.find_begun_other hM hk⟩
    by_contra hne
    exact hk _ ((f.mem_changesTo hm ha k _).mpr ⟨rfl, fun e => hne e.symm⟩)

end

/-- The change begun and rolled forward, beside what the slots before it make. -/
theorem RecordMemory.joins_begun (hm : m.Sorted) (ha : a.Sorted) (hM : M.Sorted) {written : Nat} {applied : Bool}
    (hn : ∀ {α : Type} [DecidableEq α] (f : RecordField α) k v, f.make k v ∈ m.changesTo a →
      (f.get (M.rollAll slots)).find k = (f.get m).find k) :
    m.Joins (M.rollAll slots) a
      (((M.begun (m.changesTo a) (a.funds.sub m.funds) written applied).rollAll slots).rollSlot
        (.sealed (m.changesTo a) (a.funds.sub m.funds) applied true)) := by
  obtain ⟨hw, ht⟩ := RecordMemory.begun_adds slots M (m.changesTo a) (a.funds.sub m.funds) written applied
  refine ⟨mainField.joins_begun hm ha hM (hn _), poolField.joins_begun hm ha hM (hn _), chainField.joins_begun hm ha hM (hn _),
    productField.joins_begun hm ha hM (hn _), merchantField.joins_begun hm ha hM (hn _), holdField.joins_begun hm ha hM (hn _),
    ?_, ?_⟩
  · rw [hw, Funds.liabilities_sub]
    abel
  · rw [ht]
    show _ + (a.funds.due - m.funds.due) + _ = _
    abel

/-! ### The writers stopped one after another -/

/-- Whatever has been stopped so far, rolling the slots forward makes records that tally, and leaves the records that no slot
names. -/
structure Stopped.Rolls (m : RecordMemory) (acc : Stopped) (slots : List UpdateSlot) : Prop where
  sorted : acc.memory.Sorted
  tally : ∃ F, (acc.memory.rollAll slots).Tally 0 0 [] F
  unnamed : ∀ {α : Type} [DecidableEq α] (f : RecordField α) k, (∀ v, f.make k v ∉ acc.named) →
    (f.get (acc.memory.rollAll slots)).find k = (f.get m).find k

theorem Stopped.Rolls.start {F : Nat → Prop} (h : m.Tally 0 0 [] F) (answers : List Answer) :
    Stopped.Rolls m ⟨m, [], answers⟩ [] := ⟨h.sorted, ⟨F, h⟩, fun _ _ _ => rfl⟩

/-- A slot that is discarded. -/
theorem Stopped.Rolls.discard (h : Stopped.Rolls m acc slots) {x : UpdateSlot} (hx : ∀ b : RecordMemory, b.rollSlot x = b)
    {named : List RecordWrite} (hn : ∀ w ∈ acc.named, w ∈ named) (answers : List Answer) :
    Stopped.Rolls m ⟨acc.memory, named, answers⟩ (slots ++ [x]) := by
  refine ⟨h.sorted, ?_, fun f k hk => ?_⟩
  · rw [RecordMemory.rollAll_append, hx]
    exact h.tally
  · rw [RecordMemory.rollAll_append, hx]
    exact h.unnamed f k fun v hv => hk v (hn _ hv)

/-- The writes name no record that an earlier slot names. -/
theorem RecordField.unnamed_of_apart {α : Type} [DecidableEq α] (f : RecordField α) {writes named : List RecordWrite}
    (h : ¬ (writes.any fun w => named.any (RecordWrite.sameRecord w)) = true) {k : Nat} {v : Option α}
    (hv : f.make k v ∈ writes) (v' : Option α) : f.make k v' ∉ named := fun hn =>
  h (List.any_eq_true.mpr ⟨_, hv, List.any_eq_true.mpr ⟨_, hn, f.same k v v'⟩⟩)

/-- One writer more: its change is one that tallies alone, and moves no record to another place unless it is the first. -/
theorem Stopped.Rolls.writer (h : Stopped.Rolls m acc slots) (hb : before.memory = m) {Fm Fa : Nat → Prop}
    (hm : m.Tally 0 0 [] Fm) (ha : after.memory.Tally 0 0 [] Fa)
    (hf : m.Framed (acc.memory.rollAll slots) ∨ m.Framed after.memory) (stage : Stage) :
    Stopped.Rolls m (acc.writer before after stage).1 (slots ++ [(acc.writer before after stage).2]) := by
  unfold Stopped.writer
  rw [hb]
  split
  · exact h.discard (fun _ => rfl) (fun _ hw => hw) _
  · split
    · exact h.discard (fun _ => rfl) (fun _ hw => hw) _
    · rename_i checkPasses written applied
      dsimp only
      split
      · exact h.discard (fun _ => rfl) (fun _ hw => hw) _
      · rename_i hapart
        split
        · exact h.discard (fun _ => rfl) (fun _ hw => List.mem_append_left _ hw) _
        · have hn : ∀ {α : Type} [DecidableEq α] (f : RecordField α) k v, f.make k v ∈ m.changesTo after.memory →
              (f.get (acc.memory.rollAll slots)).find k = (f.get m).find k :=
            fun f k v hv => h.unnamed f k (f.unnamed_of_apart hapart hv)
          have hs : ∀ written, (acc.memory.begun (m.changesTo after.memory) (after.memory.funds.sub m.funds) written
              applied).Sorted := fun written => h.sorted.begun ..
          obtain ⟨F, hr⟩ := h.tally
          have j := RecordMemory.joins_begun hm.sorted ha.sorted h.sorted hn (written := written) (applied := applied)
          refine ⟨hs written, ?_, fun f k hk => ?_⟩
          · rw [RecordMemory.rollAll_append]
            rcases hf with hf | hf
            · exact ⟨_, j.symm.tally hm ha hr hf (((hs written).rollAll slots).rollSlot _)⟩
            · exact ⟨_, j.tally hm hr ha hf (((hs written).rollAll slots).rollSlot _)⟩
          · rw [RecordMemory.rollAll_append]
            refine (f.find_begun_other h.sorted fun v hv => hk v (List.mem_append_right _ hv)).trans ?_
            exact h.unnamed f k fun v hv => hk v (List.mem_append_left _ hv)

/-! ### All four writers -/

theorem Stopped.Rolls.maybe (h : Stopped.Rolls s.memory acc slots) (hs : s.Tallies [])
    (work : Option ((State → State) × Stage))
    (hw : ∀ w ∈ work, ∀ t : State, t.memory = s.memory → t.Tallies [] → (w.1 t).Tallies [] ∧
      (s.memory.Framed (acc.memory.rollAll slots) ∨ s.memory.Framed (w.1 t).memory)) :
    Stopped.Rolls s.memory (acc.maybe s work).1 (slots ++ [(acc.maybe s work).2]) := by
  unfold Stopped.maybe
  split
  · exact h.discard (fun _ => rfl) (fun _ hw => hw) _
  · rename_i change stage
    obtain ⟨ht, hf⟩ := hw _ rfl { s with answers := acc.answers } rfl (hs.of_books rfl rfl)
    exact h.writer (before := { s with answers := acc.answers }) rfl hs.tally ht.tally hf stage

/-- Stopped within any of its changes, a board's records tally once its slots are rolled forward. -/
theorem State.Tallies.writersCut (h : s.Tallies []) (request : Option ((State → State) × Stage))
    (hr : ∀ w ∈ request, ∀ t : State, t.Tallies [] → (w.1 t).Tallies []) (cut : Interruption) :
    (s.writersCut request cut).memory.Sorted ∧
      ∃ F, ((s.writersCut request cut).memory.rollForward (s.writersCut request cut).slots).Tally 0 0 [] F := by
  have ra := (Stopped.Rolls.start h.tally s.answers).maybe h request fun w hw t _ ht => ⟨hr w hw t ht, Or.inl (.refl _)⟩
  have rb := ra.maybe h (cut.payout.map fun w => (fun t => t.payoutChange w.1, w.2)) fun w hw t hm ht => by
    obtain ⟨v, _, rfl⟩ := Option.map_eq_some_iff.mp hw
    exact ⟨ht.payoutChange v.1, Or.inr (hm ▸ State.framed_payoutChange ht.tally.sorted v.1)⟩
  have rc := rb.maybe h (cut.sweep.map fun stage => (State.sweepChange, stage)) fun w hw t hm ht => by
    obtain ⟨_, _, rfl⟩ := Option.map_eq_some_iff.mp hw
    exact ⟨ht.sweepChange, Or.inr (hm ▸ t.framed_sweepChange)⟩
  have rd := rc.maybe h (cut.expiry.map fun w => (fun t => t.expiryChange w.1, w.2)) fun w hw t hm ht => by
    obtain ⟨v, _, rfl⟩ := Option.map_eq_some_iff.mp hw
    exact ⟨ht.expiryChange v.1, Or.inr (hm ▸ State.framed_expiryChange ht.tally.sorted v.1)⟩
  exact ⟨rd.sorted, rd.tally⟩

end Sys2Proof.Machine
end

section
/-! Stops, recovery and every command: the records stay in agreement (R20, R28, R33, R53, R77, R113, R193). -/

namespace Sys2Proof.Machine

variable {m m' : RecordMemory} {s u : State} {F : Nat → Prop}

/-! ### Records rolled forward -/

theorem RecordMemory.books_applyAll (writes : List RecordWrite) :
    ∀ {m m' : RecordMemory}, m'.books = m.books → (m'.applyAll writes).books = (m.applyAll writes).books := by
  induction writes with
  | nil => exact id
  | cons w rest ih =>
    intro m m' h
    refine ih ?_
    cases m
    cases m'
    simp only [RecordMemory.books, Prod.mk.injEq] at h
    obtain ⟨rfl, rfl, rfl, rfl, rfl, rfl, rfl⟩ := h
    cases w <;> rfl

theorem RecordMemory.books_withFunds {f : Funds} (h : m'.books = m.books) :
    RecordMemory.books { m' with funds := f } = RecordMemory.books { m with funds := f } := by
  simp only [RecordMemory.books, Prod.mk.injEq] at h ⊢
  obtain ⟨h1, h2, h3, h4, h5, h6, -⟩ := h
  exact ⟨h1, h2, h3, h4, h5, h6, True.intro⟩

theorem RecordMemory.books_rollSlot (x : UpdateSlot) (h : m'.books = m.books) :
    (m'.rollSlot x).books = (m.rollSlot x).books := by
  unfold RecordMemory.rollSlot
  split
  · rename_i records amounts applied
    have hw := RecordMemory.books_applyAll records h
    have hf : m'.funds = m.funds := congrArg (·.2.2.2.2.2.2) h
    dsimp only
    split
    · exact hw
    · rw [RecordMemory.applyAll_funds, RecordMemory.applyAll_funds, hf]
      exact RecordMemory.books_withFunds hw
  · exact h

theorem RecordMemory.books_rollForward (slots : UpdateSlots) (h : m'.books = m.books) :
    (m'.rollForward slots).books = (m.rollForward slots).books :=
  books_rollSlot _ (books_rollSlot _ (books_rollSlot _ (books_rollSlot _ h)))

theorem RecordMemory.Sorted.rollForward (h : m.Sorted) (slots : UpdateSlots) : (m.rollForward slots).Sorted :=
  h.rollAll [slots.request, slots.payout, slots.sweep, slots.expiry]

/-! ### Boards between changes -/

/-- The records tally with the Referral Queue, and no change is under way. -/
def State.Settled (s : State) : Prop := s.Tallies [] ∧ s.slots = UpdateSlots.empty

theorem State.Settled.agrees (h : s.Settled) : s.Agrees := h.1.agrees h.2

theorem State.Settled.same (h : s.Settled) (hm : u.memory.books = s.memory.books) (hr : u.referrals = s.referrals)
    (hs : u.slots = s.slots) : u.Settled := ⟨h.1.of_books hm hr, hs.trans h.2⟩

/-- A start: the working state holds no referral. -/
theorem State.Settled.start (ht : u.memory.Tally 0 0 [] fun _ => False) (hr : u.referrals = [])
    (hs : u.slots = UpdateSlots.empty) : u.Settled := by
  have hF : u.referred = fun _ => False := funext fun n => eq_false (by simp [State.referred, hr])
  exact ⟨⟨hF ▸ ht, by rw [hr]; exact List.nodup_nil, by rw [hr]; exact List.nodup_nil⟩, hs⟩

theorem State.settled_recover (h : (s.memory.rollForward s.slots).Tally 0 0 [] F) (ties : List Nat) :
    (s.recover ties).Settled := .start (h.recovered ties) rfl rfl

theorem State.settled_startCold (s : State) (reading : Nat) : (s.startCold reading).Settled :=
  .start (RecordMemory.Tally.blank ..) rfl rfl

/-! ### Stops (R193, R195) -/

/-- Stopped within any of its changes, FORMAT's among them, a board's records tally once its slots are rolled forward. -/
theorem State.Tallies.interrupted (h : s.Tallies []) (cut : Interruption) :
    ∃ F, ((s.interrupted cut).memory.rollForward (s.interrupted cut).slots).Tally 0 0 [] F := by
  unfold State.interrupted
  split
  · obtain ⟨-, F, ht⟩ := h.writersCut none (fun w hw => by cases hw) cut
    refine ⟨F, ht.of_books (RecordMemory.books_rollForward _ ?_)⟩
    unfold State.formatCut
    dsimp only
    split <;> rfl
  · refine (h.writersCut _ (fun w hw t ht => ?_) cut).2
    obtain ⟨_, _, rfl⟩ := Option.map_eq_some_iff.mp hw
    exact ht.nextRequest

theorem State.Tallies.resetEngine (h : s.Tallies []) (cut : Interruption) (ties : List Nat) :
    (s.resetEngine cut ties).Settled := by
  obtain ⟨F, ht⟩ := h.interrupted cut
  unfold State.resetEngine
  dsimp only
  split
  · exact State.settled_recover ht ties
  · exact State.settled_startCold _ _

theorem State.Tallies.powerLoss (h : s.Tallies []) (cut : Interruption) (hp : u.powered = false)
    (hm : u.memory = (s.interrupted cut).memory) (hs : u.slots = (s.interrupted cut).slots) : u.Agrees := by
  obtain ⟨F, ht⟩ := h.interrupted cut
  have off : u.powered ≠ true := by simp [hp]
  refine ⟨fun h => absurd h off, ?_, fun h => absurd h off⟩
  rw [hm, hs]
  exact ht.agrees

/-! ### The port and the window (R184 to R186, R196, R197) -/

theorem State.Settled.post (h : s.Settled) : s.post.Settled := by
  unfold State.post
  split <;> exact h.same rfl rfl rfl

theorem State.Settled.releaseAnswer (h : s.Settled) : s.releaseAnswer.Settled := by
  unfold State.releaseAnswer
  split
  · exact h
  · exact h.same rfl rfl rfl

theorem State.Settled.setEnable (h : s.Settled) (bit : Bool) : (s.setEnable bit).Settled := h.same rfl rfl rfl

theorem State.Settled.storePost (h : s.Settled) (offset : Nat) (bytes : List Byte) :
    (s.storePost offset bytes).Settled := by
  induction bytes generalizing offset s with
  | nil => exact h
  | cons b rest ih => exact ih (s := { s with postArea := s.postArea.set offset b }) (h.same rfl rfl rfl) _

theorem State.Settled.writeWindow (h : s.Settled) (offset value : Nat) : (s.writeWindow offset value).Settled := by
  unfold State.writeWindow
  split
  · exact h.same rfl rfl rfl
  · split
    · unfold State.writeControl
      dsimp only
      split
      · exact (h.setEnable _).1.resetEngine _ _
      · exact h.setEnable _
    · split
      · exact h.post
      · split
        · exact h.releaseAnswer
        · exact h.storePost _ _

/-! ### The update slots between changes -/

/-- The invariant that asks nothing of Record Memory: what is kept is the slots alone. -/
theorem RecordMemory.kept_true : RecordMemory.Kept fun _ => True where
  product _ _ h := h
  merchant _ _ h := h
  tier _ _ h := h
  sponsor _ _ h := h
  hold _ _ h := h
  watch _ _ h := h
  descriptor _ _ h := h
  descriptors _ h := h
  put _ _ h := h
  place _ _ h := h
  remove _ _ h := h
  sweep _ h := h
  referralTime _ h := h
  nextReferral _ h := h
  clock _ h := h
  today _ h := h
  funds _ _ h := h

/-- No change is under way. -/
def State.Between (s : State) : Prop := s.Upheld (fun _ => True) (· = UpdateSlots.empty)

theorem State.Settled.between (h : s.Settled) : s.Between := ⟨True.intro, h.2⟩

theorem State.Settled.runRequest (h : s.Settled) (i : Instr) (hu : runRequest i s = .next u) : u.Settled :=
  ⟨h.1.runRequest i hu, (RecordMemory.kept_true.runRequest (N := (· = UpdateSlots.empty)) (fun _ _ _ _ => True.intro) rfl i
    h.between hu).2⟩

/-! ### Every command -/

theorem State.Settled.exec (h : s.Settled) (i : Instr) (hu : exec i s = .next u) : u.Agrees := by
  have k := RecordMemory.kept_true
  have req : Sys2Proof.Machine.runRequest i s = .next u → u.Agrees := fun hu => (h.runRequest i hu).agrees
  have pow : ∀ {f : State → State}, whenPowered s f = .next u → (f s).Settled → u.Agrees :=
    fun hu hf => (whenPowered_keeps (P := State.Settled) (fun _ => hf) h hu).agrees
  cases i with
  | postWord value => exact pow hu h.post
  | overrunFlag bit => exact pow (f := fun s => s.writeOverrun bit) hu (h.same rfl rfl rfl)
  | releaseWord value => exact pow hu h.releaseAnswer
  | interruptEnable bit => exact pow (f := fun s => s.setEnable bit) hu (h.setEnable bit)
  | engineReset bit cut ties =>
    refine pow hu ?_
    split
    · exact h.1.resetEngine cut ties
    · exact h
  | windowWrite offset value =>
    replace hu : execWindowWrite offset value s = .next u := hu
    unfold execWindowWrite at hu
    split at hu
    · cases hu
    · exact pow hu (h.writeWindow offset value)
  | powerOn ties =>
    cases hu
    split
    · refine (State.settled_recover (F := s.referred) ?_ ties).agrees
      rw [h.2]
      exact h.1.tally
    · exact (State.settled_startCold s 0).agrees
  | linkReset => exact pow hu (h.same rfl rfl rfl)
  | clockTick =>
    cases hu
    split
    · exact h.agrees
    · exact State.Settled.agrees (h.same rfl rfl rfl)
  | holdExpiry slot =>
    exact State.Settled.agrees ⟨h.1.execHoldExpiry slot hu, (k.execHoldExpiry slot h.between hu).2⟩
  | lapse number => exact State.Settled.agrees ⟨h.1.execLapse number hu, (k.execLapse number h.between hu).2⟩
  | windowExpiry entry card =>
    refine pow hu ?_
    split
    · exact ⟨State.tallies_watchBlind.disarm card entry h.1, (k.watchBlind.disarm card entry h.between).2⟩
    · exact h
  | turn => exact pow hu ⟨h.1.turn, (k.turn h.between).2⟩
  | descriptorService => exact pow hu ⟨h.1.serveDescriptor, (k.serveDescriptor h.between).2⟩
  | lapseNotice => exact pow hu ⟨State.Tallies.serveLapse h.1, (k.serveLapse h.between).2⟩
  | sweepStep => exact pow hu ⟨h.1.sweepOnce, (k.sweepOnce h.between).2⟩
  | sweepEnd => exact pow hu ⟨h.1.serveSweep, (k.serveSweep h.between).2⟩
  | powerLoss batteryKept checkPasses cut =>
    simp only [Sys2Proof.Machine.exec, execPowerLoss] at hu
    exact whenPowered_keeps (P := State.Agrees) (fun _ => h.1.powerLoss cut rfl rfl rfl) h.agrees hu
  | _ => exact req hu

/-- A board without power takes no request. -/
theorem runRequest_off (hp : s.powered = false) (i : Instr) : runRequest i s = .next s := by
  have hn : ∀ i, s.take i = none := fun i => Option.eq_none_iff_forall_ne_some.mpr fun t ht => by
    have := (State.take_eq_some.mp ht).1
    rw [hp] at this
    cases this
  have wait : ∀ i code tag change, answerRequest i code tag change s = .next s := fun i => answerRequest_waits (hn i)
  cases i with
  | closeTrading tag =>
    show execCloseTrading tag s = .next s
    simp only [execCloseTrading, hn]
  | postWord | overrunFlag | releaseWord | interruptEnable | engineReset | windowWrite | powerOn | linkReset | clockTick
  | holdExpiry | lapse | windowExpiry | turn | descriptorService | lapseNotice | sweepStep | sweepEnd | powerLoss => rfl
  | _ => exact wait _ _ _ _

/-- On a board without power only the start and the backup oscillator change anything. -/
theorem State.Agrees.exec_off (h : s.Agrees) (hs : s.memory.Sorted) (hp : s.powered = false) (i : Instr)
    (hu : exec i s = .next u) : u.Agrees := by
  have off : ∀ {f : State → State}, whenPowered s f = .next u → u.Agrees := fun hu => by
    rw [whenPowered_off hp] at hu
    cases hu
    exact h
  have wait : runRequest i s = .next u → u.Agrees := fun hu => by
    rw [runRequest_off hp] at hu
    cases hu
    exact h
  have ht := h.records.tally (hs.rollForward s.slots)
  cases i with
  | windowWrite offset value =>
    replace hu : execWindowWrite offset value s = .next u := hu
    unfold execWindowWrite at hu
    split at hu
    · cases hu
    · exact off hu
  | powerOn ties =>
    cases hu
    split
    · exact (State.settled_recover ht ties).agrees
    · exact (State.settled_startCold s 0).agrees
  | clockTick =>
    cases hu
    split
    · exact h
    · have hne : s.powered ≠ true := by simp [hp]
      refine ⟨fun h => absurd h hne, ?_, fun h => absurd h hne⟩
      exact (ht.of_books (RecordMemory.books_rollForward (m' := s.memory.tick) s.slots rfl)).agrees
  | postWord | overrunFlag | releaseWord | interruptEnable | engineReset | linkReset | holdExpiry | lapse | windowExpiry
  | turn | descriptorService | lapseNotice | sweepStep | sweepEnd | powerLoss =>
    simp only [Sys2Proof.Machine.exec, execPostWord, execOverrunFlag, execReleaseWord, execInterruptEnable, execEngineReset,
      execLinkReset, execHoldExpiry, execLapse, execWindowExpiry, execTurn, execDescriptorService, execLapseNotice,
      execSweepStep, execSweepEnd, execPowerLoss, whenPowered_off hp, Host.Outcome.next.injEq] at hu
    exact hu ▸ h
  | _ => exact wait hu

theorem State.Agrees.exec (h : s.Agrees) (hs : s.memory.Sorted) (i : Instr) (hu : exec i s = .next u) : u.Agrees := by
  cases hp : s.powered with
  | false => exact h.exec_off hs hp i hu
  | true => exact State.Settled.exec ⟨h.tallies hp hs, h.between hp⟩ i hu

/-- Settles O58: a powered board's records tally with its Referral Queue and every command keeps that; a stop leaves slots whose
roll forward joins the changes made, and a start brings the joined records to their recovered values. -/
theorem stepKeepsTheRecordsInAgreement : Obligations.StepKeepsTheRecordsInAgreement := by
  intro s u hw h hu
  have hs : s.memory.Sorted := by
    simp only [State.tablesWf, Bool.and_eq_true] at hw
    exact .of_tablesWf hw.1.1.1.1.1
  unfold step at hu
  split at hu
  · cases hu
    exact h
  · rename_i rest _
    exact State.Agrees.exec (s := { s with pending := rest }) ⟨h.between, h.records, fun hp => { h.referrals hp with }⟩ hs _ hu

end Sys2Proof.Machine
end

section
/-! Requests that name one card: how one is refused and how one is answered, said once (R1, R31, R36, R187), with the
touch, the inquiries and the staff controls (R37, R43 to R45, R66, R89). -/

namespace Sys2Proof.Machine

variable {s t : State} {i : Instr} {code tag card : Nat} {change : Change} {slot : Slot} {c : Card}

/-! ### The answer to a request that names one card -/

/-- A refusal: nothing but the queues changes, and ZERO stands by the card named (R1). -/
theorem answerRequest_refuse (h : s.take i = some t) {r : RefusalReason} (hc : change t = refuse r t) :
    answerRequest i code tag (naming [card] change) s = .next (t.enter code (.refused r)
      { AnswerFlags.none with zero := (t.memory.findCard card).any fun e => decide (t.memory.total e.2 = 0) } tag
      .empty) := by
  have hr : (change t).2.outcome = .refused r := by rw [hc]; rfl
  rw [answerRequest_taken h, naming_refused hr, hc, ← refusalFlags_one]
  rfl

/-- A request that is not refused answers what its change answers. -/
theorem answerRequest_answer (h : s.take i = some t) {r : State × Reply} (hc : change t = r)
    (hr : ∀ x, r.2.outcome ≠ .refused x) :
    answerRequest i code tag (naming [card] change) s =
      .next (r.1.enter code r.2.outcome r.2.flags tag r.2.body) := by
  subst hc
  rw [answerRequest_taken h, naming_else hr]

/-- The ZERO of a refusal that names a present card. -/
theorem zero_of_found (hf : t.memory.findCard card = some (slot, c)) :
    ((t.memory.findCard card).any fun e => decide (t.memory.total e.2 = 0)) = decide (t.memory.total c = 0) := by
  rw [hf]
  rfl

theorem withCard_found (hw : wellFormedNumber card = true) (hf : t.memory.findCard card = some (slot, c))
    (change : Slot → Card → Change) : withCard card change t = change slot c t := by
  simp only [withCard, hw, hf, Bool.not_true, Bool.false_eq_true, if_false]

theorem withCard_absent (hw : wellFormedNumber card = true) (hf : t.memory.findCard card = none)
    (change : Slot → Card → Change) : withCard card change t = refuse .unknownCard t := by
  simp only [withCard, hw, hf, Bool.not_true, Bool.false_eq_true, if_false]

/-- A request whose change on a present card is made on Record Memory alone. -/
theorem answerRequest_onCard (h : s.take i = some t) (hw : wellFormedNumber card = true)
    (hf : t.memory.findCard card = some (slot, c)) {f : RecordMemory → Slot → Card → RecordMemory × Reply}
    (hc : change t = withCard card (fun slot c => onMemory fun m => f m slot c) t) {r : RecordMemory × Reply}
    (hr : f t.memory slot c = r) (hn : ∀ x, r.2.outcome ≠ .refused x) :
    answerRequest i code tag (naming [card] change) s =
      .next ((t.withMemory r.1).enter code r.2.outcome r.2.flags tag r.2.body) := by
  subst hr
  exact answerRequest_answer h (hc.trans (withCard_found hw hf _)) hn

/-! ### Flags, capped days and settled cards -/

theorem zeroOnly_eq (m : RecordMemory) (c : Card) :
    zeroOnly m c = ⟨decide (m.total c = 0), false, false, false, false⟩ := by
  rw [zeroOnly, zeroFlag_eq]
  rfl

/-- A card with value carries no ZERO. -/
theorem zeroOnly_of_pos {m : RecordMemory} (h : 0 < m.total c) : zeroOnly m c = AnswerFlags.none := by
  rw [zeroOnly_eq, decide_eq_false (Nat.ne_of_gt h)]
  rfl

theorem cappedDay_eq (today life : Nat) :
    cappedDay today life = (min 65535 (today + life), decide (65535 < today + life)) := by
  by_cases h : 65535 < today + life
  · rw [Nat.min_eq_left (Nat.le_of_lt h), decide_eq_true h]
    exact if_pos h
  · rw [Nat.min_eq_right (Nat.le_of_not_lt h), decide_eq_false h]
    exact if_neg h

/-- What settling a touched card writes, and the counter it answers (R29, R30). -/
theorem RecordMemory.settle_pair (m : RecordMemory) (slot : Slot) (c : Card) (wrote : Bool) :
    m.settle slot c wrote =
      (if wrote = true then
        m.putCard slot { c with counter := (c.counter + 1) % 65536, lastActivity := m.today, last := none }
      else m.putCard slot c,
      if wrote = true then some ((c.counter + 1) % 65536) else none) := by
  cases wrote <;> rfl

/-! ### The touch (R37) -/

theorem RecordMemory.touch_current {m : RecordMemory} (h : m.today ≤ c.sweptThrough) : m.touch c = ⟨m, c, false⟩ := by
  simp only [touch, sweepCard_current h]
  rfl

theorem RecordMemory.touch_behind {m : RecordMemory} (h : c.sweptThrough < m.today) :
    m.touch c =
      { memory := { m with
          funds := (c.lots.filter fun l => decide (l.expiry < m.today)).foldl Funds.writeOffLot m.funds }
        card := { c with
          lots := c.lots.filter fun l => decide (m.today ≤ l.expiry)
          base := if c.expiry < m.today then .expired else c.base
          sweptThrough := m.today }
        wrote := decide (∃ l ∈ c.lots, l.expiry < m.today) } := by
  have hw : (!(c.lots.filter fun l => decide (l.expiry < m.today)).isEmpty) =
      decide (∃ l ∈ c.lots, l.expiry < m.today) := by
    rw [Bool.eq_iff_iff]
    simp
  simp only [touch, sweepCard_behind h, hw]

theorem RecordMemory.touch_total (m : RecordMemory) (c d : Card) : (m.touch c).memory.total d = m.total d := rfl

theorem RecordMemory.touch_product (m : RecordMemory) (c : Card) : (m.touch c).card.product = c.product :=
  (sweepCard_frame m.today c).1.product

/-- Settles O22: by the two cases of the touch. -/
theorem touchSweepsTheCard : Obligations.TouchSweepsTheCard := by
  intro m c
  refine ⟨RecordMemory.touch_current, fun h => ?_, fun l hl => ?_⟩
  · rw [RecordMemory.touch_behind h]
    exact ⟨rfl, rfl, decide_eq_true_iff⟩
  · rcases Nat.lt_or_ge c.sweptThrough m.today with h | h
    · rw [RecordMemory.touch_behind h] at hl
      exact .inr (of_decide_eq_true (List.mem_filter.mp hl).2)
    · exact .inl h

/-! ### INQUIRE and INQUIRE-HOLD (R43, R89) -/

theorem inquireChange_eq (he : t.engine ≠ .unformatted) : inquireChange card t =
    withCard card (fun _ c s => (s, ⟨.done, zeroOnly s.memory c, .card (reportCard s.memory c)⟩)) t :=
  if_neg he

/-- The flags of an INQUIRE-HOLD answered DONE: the ZERO of the hold's card, when it is present (R1). -/
def holdFlags (m : RecordMemory) (h : HoldRecord) : AnswerFlags :=
  match m.findCard h.card with
  | some (_, c) => zeroOnly m c
  | none => AnswerFlags.none

theorem inquireHoldChange_found {n generation : Nat} {x : HoldRecord} (he : t.engine ≠ .unformatted)
    (hn : n < holdSlots)
    (hx : (t.memory.holdSlot n).resolve generation = .found x) :
    inquireHoldChange n generation t = (t, ⟨.done, holdFlags t.memory x, .holdReport x x.total⟩) := by
  rw [inquireHoldChange, if_neg he, if_neg (Nat.not_le.mpr hn), hx]
  rfl

theorem inquireHoldChange_tooLate {n generation merchant : Nat} (he : t.engine ≠ .unformatted) (hn : n < holdSlots)
    (hx : (t.memory.holdSlot n).resolve generation = .tooLate merchant) :
    inquireHoldChange n generation t = (t, ⟨.declined .tooLate, AnswerFlags.none, .empty⟩) := by
  rw [inquireHoldChange, if_neg he, if_neg (Nat.not_le.mpr hn), hx]

/-- Settles O27: each inquiry by what its lookup gives. -/
theorem inquiriesReportTheRecord : Obligations.InquiriesReportTheRecord := by
  intro s t tag he
  refine ⟨fun card slot c h hw hf => ?_, fun card h hw hf => ?_, fun n generation x h hn hx => ?_,
    fun n generation merchant h hn hx => ?_⟩
  · refine ⟨reportCard t.memory c, ?_, rfl, rfl, rfl, rfl, rfl, rfl, rfl, rfl, fun h => if_pos h, rfl, rfl, rfl, rfl,
      rfl, rfl, rfl, rfl, rfl, decide_eq_true_iff⟩
    rw [← zeroOnly_eq]
    exact answerRequest_answer h ((inquireChange_eq he).trans (withCard_found hw hf _)) nofun
  · refine (answerRequest_refuse h ((inquireChange_eq he).trans (withCard_absent hw hf _))).trans ?_
    rw [hf]
    rfl
  · refine ⟨holdFlags t.memory x, (answerRequest_taken h ..).trans ?_⟩
    rw [inquireHoldChange_found he hn hx]
    rfl
  · refine (answerRequest_taken h ..).trans ?_
    rw [inquireHoldChange_tooLate he hn hx]

/-! ### FREEZE, THAW and LOCK (R44, R45, R66) -/

/-- A request that writes flags of a present card: the card is touched, then settled with its new flags. -/
theorem answerRequest_flagChange (h : s.take i = some t) (he : t.engine ≠ .unformatted)
    (hw : wellFormedNumber card = true) (hf : t.memory.findCard card = some (slot, c)) (f : Card → Card) :
    answerRequest i code tag (naming [card] (flagChange card f)) s =
      let k := t.memory.touch c
      let c' := f k.card
      let m := k.memory.settle slot c' k.wrote
      .next ((t.withMemory m.1).enter code .done (zeroOnly m.1 c') tag (.touched m.2)) :=
  answerRequest_onCard (f := fun m slot c => flagCard m slot c f) h hw hf (if_neg he) rfl nofun

/-- Settles O28: each of the three is a request that writes one flag. -/
theorem staffControlsWriteOneFlag : Obligations.StaffControlsWriteOneFlag := by
  intro s t tag card slot c he hw hf
  refine ⟨fun h => ?_, fun h => ?_, fun h => ?_⟩ <;>
    · refine (answerRequest_flagChange h he hw hf _).trans ?_
      simp only [RecordMemory.settle_pair]
      rfl

end Sys2Proof.Machine
end

section
/-! LOAD and GRANT-BONUS on a touched card (R40 to R42). -/

namespace Sys2Proof.Machine

variable {s t : State} {slot : Slot} {c : Card}

/-! ### LOAD (R40, R41) -/

/-- What a LOAD that passes its checks writes and answers (R41). -/
def loadedCard (m : RecordMemory) (slot : Slot) (c : Card) (amount life : Nat) : RecordMemory × Reply :=
  let stamp := (c.counter + 1) % 65536
  let day := min 65535 (m.today + life)
  (({ m with funds := m.funds.takeIn amount } : RecordMemory).putCard slot
    { c with
      paid := c.paid + amount, awaitingLoad := false, expiry := day, base := .active, counter := stamp
      lastActivity := m.today, last := some ⟨.load, stamp, m.today, amount, []⟩ },
    ⟨.done, ⟨false, false, decide (65535 < m.today + life), false, false⟩,
      .loaded (c.paid + amount) day .active stamp⟩)

/-- A card with paid value has a total value above 0. -/
theorem RecordMemory.total_pos_of_paid (m : RecordMemory) (h : 0 < c.paid) : 0 < m.total c := by
  unfold RecordMemory.total Card.free
  omega

/-- A LOAD on the touched card: its declines in order, or the load. -/
theorem loadCard_eq (m : RecordMemory) (slot : Slot) (c : Card) {amount : Nat} (ha : 1 ≤ amount) :
    loadCard m slot c amount =
      let k := m.touch c
      let p := m.product c.product
      if amount < p.minLoad ∨ p.maxLoad < amount then declineTouched k.memory slot k.card k.wrote .loadRange
      else if p.reload = false ∧ k.card.awaitingLoad = false then
        declineTouched k.memory slot k.card k.wrote .loadRange
      else if p.maxBalance < m.total k.card + amount then declineTouched k.memory slot k.card k.wrote .overLimit
      else loadedCard k.memory slot k.card amount p.cardLife := by
  have hp : (m.touch c).memory.product (m.touch c).card.product = m.product c.product := by
    rw [RecordMemory.touch_product]
    rfl
  simp only [loadCard, hp, RecordMemory.touch_total, cappedDay_eq, Bool.and_eq_true, Bool.not_eq_true']
  split
  · rfl
  split
  · rfl
  split
  · rfl
  rw [zeroOnly_of_pos (RecordMemory.total_pos_of_paid _ (Nat.lt_of_lt_of_le ha (Nat.le_add_left ..)))]
  rfl

theorem exec_load_found {tag card amount : Nat} (h : s.take (.load tag card amount) = some t)
    (he : t.engine = .trading) (ha : inRange 1 maxAmount amount = true) (hw : wellFormedNumber card = true)
    (hf : t.memory.findCard card = some (slot, c)) {r : RecordMemory × Reply}
    (hr : loadCard t.memory slot c amount = r) (hn : ∀ x, r.2.outcome ≠ .refused x) :
    exec (.load tag card amount) s =
      .next ((t.withMemory r.1).enter 8 r.2.outcome r.2.flags tag r.2.body) := by
  refine answerRequest_onCard (f := fun m slot c => loadCard m slot c amount) h hw hf ?_ hr hn
  simp only [loadChange, he, ha, ne_eq, not_true_eq_false, if_false, Bool.not_true, Bool.false_eq_true]

theorem inRange_iff (least most n : Nat) : inRange least most n = true ↔ least ≤ n ∧ n ≤ most := by
  simp only [inRange, Bool.and_eq_true, decide_eq_true_eq]

/-- Settles O25: by the cases of `loadCard_eq`. -/
theorem loadAddsPaidValue : Obligations.LoadAddsPaidValue := by
  intro s t tag card amount slot c h he ha hb hw hf
  have run := fun r => exec_load_found (r := r) h he ((inRange_iff ..).mpr ⟨ha, hb⟩) hw hf
  have eq := loadCard_eq t.memory slot c ha
  dsimp only at eq ⊢
  split
  · rename_i hrange
    exact run _ (eq.trans (if_pos hrange)) nofun
  rename_i hrange
  rw [if_neg hrange] at eq
  split
  · rename_i hreload
    exact run _ (eq.trans (if_pos hreload)) nofun
  rename_i hreload
  rw [if_neg hreload] at eq
  split
  · rename_i hover
    exact run _ (eq.trans (if_pos hover)) nofun
  · rename_i hover
    exact run _ (eq.trans (if_neg hover)) nofun

/-! ### GRANT-BONUS (R42) -/

/-- A grant joins the lot of its sponsor and day, takes a free place, or finds none. -/
theorem grantLot_eq (lots : List Lot) (p : Lot) :
    grantLot lots p =
      if lots.any (sameLot p) = false ∧ 4 ≤ lots.length then none
      else some (if lots.any (sameLot p) = true then joinLot p lots else insertLot p lots) := by
  unfold grantLot lotPlaces
  cases lots.any (sameLot p) with
  | true => simp
  | false =>
    by_cases h : lots.length < 4
    · simp [h]
    · simp [h, Nat.le_of_not_lt h]

/-- The lot that a placed grant joined or made is on the card, with the grant's amount at least. -/
theorem grantLot_find {lots lots' : List Lot} {p : Lot} (h : grantLot lots p = some lots') :
    ∃ l, lots'.find? (sameLot p) = some l ∧ p.amount ≤ l.amount := by
  unfold grantLot at h
  split at h
  · rename_i hany
    cases h
    obtain ⟨l, hl⟩ := Option.isSome_iff_exists.mp (List.find?_isSome.mpr (List.any_eq_true.mp hany))
    have hsame : sameLot p ∘ (fun l => if sameLot p l then { l with amount := l.amount + p.amount } else l) =
        sameLot p := by
      funext k
      dsimp only [Function.comp]
      split <;> rfl
    refine ⟨{ l with amount := l.amount + p.amount }, ?_, Nat.le_add_left ..⟩
    rw [joinLot, List.find?_map, hsame, hl, Option.map_some, if_pos (List.find?_some hl)]
  · rename_i hany
    split at h <;> cases h
    obtain ⟨before, after, hl, hi⟩ := insertLot_split p lots
    have hbefore : before.find? (sameLot p) = none := by
      refine List.find?_eq_none.mpr fun l hm hs => hany (List.any_eq_true.mpr ⟨l, ?_, hs⟩)
      exact hl ▸ List.mem_append_left _ hm
    refine ⟨p, ?_, le_rfl⟩
    rw [hi, List.find?_append, hbefore, List.find?_cons_of_pos ((sameLot_iff p p).mpr ⟨rfl, rfl⟩)]
    rfl

/-- What a GRANT-BONUS that finds a place writes and answers (R42). -/
def grantedCard (m : RecordMemory) (slot : Slot) (c : Card) (part : Lot) (clamped : Bool) (lots : List Lot) :
    RecordMemory × Reply :=
  let stamp := (c.counter + 1) % 65536
  (({ m with funds := m.funds.grant part.sponsor part.amount } : RecordMemory).putCard slot
    { c with lots := lots, counter := stamp, lastActivity := m.today, last := none },
    ⟨.done, ⟨false, false, clamped, false, false⟩,
      .grantedBonus ((lots.find? (sameLot part)).getD part) stamp⟩)

/-- A card with a lot of value has a total value above 0. -/
theorem RecordMemory.total_pos_of_lot (m : RecordMemory) {l : Lot} (hl : l ∈ c.lots) (h : 0 < l.amount) :
    0 < m.total c := by
  have : l.amount ≤ sumLots c.lots := List.single_le_sum (by simp) _ (List.mem_map_of_mem hl)
  unfold RecordMemory.total Card.free
  omega

/-- A GRANT-BONUS on the touched card: its declines in order, or the grant. -/
theorem grantCard_eq (m : RecordMemory) (slot : Slot) (c : Card) (sponsor : Fin 8) (life : Nat) {amount : Nat}
    (ha : 1 ≤ amount) :
    grantCard m slot c sponsor life amount =
      let k := m.touch c
      let p := m.product c.product
      let day := m.today + if life = 0 then p.bonusLife else life
      let part : Lot := ⟨sponsor, min 65535 day, amount⟩
      if k.card.base = .expired then declineTouched k.memory slot k.card k.wrote .cardExpired
      else if p.maxBalance < m.total k.card + amount then declineTouched k.memory slot k.card k.wrote .overLimit
      else if k.card.lots.any (sameLot part) = false ∧ 4 ≤ k.card.lots.length then
        declineTouched k.memory slot k.card k.wrote .lotsFull
      else grantedCard k.memory slot k.card part (decide (65535 < day))
        (if k.card.lots.any (sameLot part) = true then joinLot part k.card.lots else insertLot part k.card.lots) := by
  have hp : (m.touch c).memory.product (m.touch c).card.product = m.product c.product := by
    rw [RecordMemory.touch_product]
    rfl
  simp only [grantCard, hp, RecordMemory.touch_total, RecordMemory.touch_today, cappedDay_eq]
  generalize (if life = 0 then (m.product c.product).bonusLife else life) = days
  split
  · rfl
  split
  · rfl
  split
  · rename_i hg
    rw [grantLot_eq] at hg
    split at hg
    · rename_i hfull
      rw [if_pos hfull]
    · cases hg
  · rename_i lots hg
    obtain ⟨l, hl, hal⟩ := grantLot_find hg
    rw [zeroOnly_of_pos (RecordMemory.total_pos_of_lot _ (List.mem_of_find?_eq_some hl) (Nat.lt_of_lt_of_le ha hal))]
    rw [grantLot_eq] at hg
    split at hg
    · cases hg
    · rename_i hroom
      cases hg
      rw [if_neg hroom]
      rfl

theorem exec_grantBonus_found {tag card sponsor life amount : Nat} {sp : Fin 8}
    (h : s.take (.grantBonus tag card sponsor life amount) = some t) (he : t.engine = .trading)
    (hsp : sponsorOf sponsor = some sp) (ha : inRange 1 maxAmount amount = true) (hl : inRange 0 730 life = true)
    (hw : wellFormedNumber card = true) (hs : t.memory.sponsor sponsor = .active)
    (hf : t.memory.findCard card = some (slot, c)) {r : RecordMemory × Reply}
    (hr : grantCard t.memory slot c sp life amount = r) (hn : ∀ x, r.2.outcome ≠ .refused x) :
    exec (.grantBonus tag card sponsor life amount) s =
      .next ((t.withMemory r.1).enter 9 r.2.outcome r.2.flags tag r.2.body) := by
  refine answerRequest_onCard (f := fun m slot c => grantCard m slot c sp life amount) h hw hf ?_ hr hn
  simp only [grantBonusChange, he, hsp, ha, hl, hw, hs, ne_eq, not_true_eq_false, if_false, Bool.and_self,
    Bool.not_true, Bool.false_eq_true]

/-- Settles O26: by the cases of `grantCard_eq`. -/
theorem grantBonusAddsALot : Obligations.GrantBonusAddsALot := by
  intro s t tag card sponsor life amount sp slot c h he hsp ha hb hlife hw hs hf
  have run := fun r => exec_grantBonus_found (r := r) h he hsp ((inRange_iff ..).mpr ⟨ha, hb⟩)
    ((inRange_iff ..).mpr ⟨Nat.zero_le _, hlife⟩) hw hs hf
  have eq := grantCard_eq t.memory slot c sp life ha
  dsimp only at eq ⊢
  generalize (if life = 0 then (t.memory.product c.product).bonusLife else life) = days at eq ⊢
  split
  · rename_i hexpired
    exact run _ (eq.trans (if_pos hexpired)) nofun
  rename_i hexpired
  rw [if_neg hexpired] at eq
  split
  · rename_i hover
    exact run _ (eq.trans (if_pos hover)) nofun
  rename_i hover
  rw [if_neg hover] at eq
  split
  · rename_i hfull
    exact run _ (eq.trans (if_pos hfull)) nofun
  · rename_i hroom
    obtain ⟨l, hl, -⟩ := grantLot_find ((grantLot_eq ..).trans (if_neg hroom))
    obtain ⟨hsponsor, hexpiry⟩ := (sameLot_iff ..).mp (List.find?_some hl)
    refine ⟨l, List.mem_of_find?_eq_some hl, hsponsor, hexpiry, ?_⟩
    refine (run _ (eq.trans (if_neg hroom)) nofun).trans ?_
    rw [grantedCard, hl]
    rfl

end Sys2Proof.Machine
end

section
/-! CLOSE-CARD: the card leaves its slot and every armed-card list (R35, R46, R47, R131). -/

namespace Sys2Proof.Machine

variable {s t : State} {m : RecordMemory} {slot : Slot} {c : Card} {card : Nat}

/-! ### The armed-card lists (R47, R131) -/

/-- No armed card of an entry's list has the number. -/
def State.Unarmed (s : State) (card e : Nat) : Prop := ∀ a ∈ s.armedList e, a.card ≠ card

/-- The card off an entry's list, when the list holds it: one step of `State.disarmAll`. -/
def State.disarmListed (s : State) (card i : Nat) : State :=
  if (s.armedList i).any (fun e => e.card == card) then s.disarm card i else s

theorem State.disarmAll_eq (s : State) (card : Nat) :
    s.disarmAll card = (List.range 16).foldl (fun s i => s.disarmListed card i) s := rfl

theorem State.armed_disarm (s : State) (card i : Nat) :
    (s.disarm card i).armed = s.armed.set [] i ((s.armedList i).filter fun e => e.card != card) := rfl

theorem State.armedList_disarm (h : s.armed.rising = true) (card i e : Nat) :
    (s.disarm card i).armedList e =
      if e = i then (s.armedList i).filter fun a => a.card != card else s.armedList e := by
  unfold State.armedList
  rw [State.armed_disarm]
  split
  · rename_i he
    rw [he, Table.get_set_same _ _ _ h]
    rfl
  · rename_i he
    rw [Table.get_set_other _ _ _ he]

theorem State.disarmListed_rising (h : s.armed.rising = true) (card i : Nat) :
    (s.disarmListed card i).armed.rising = true := by
  unfold State.disarmListed
  split
  · rw [State.armed_disarm]
    exact Table.rising_set _ _ _ h
  · exact h

/-- A card taken off one entry's list is off that list, and stays off the lists it was off. -/
theorem State.disarmListed_unarmed (h : s.armed.rising = true) {card i e : Nat} (he : e = i ∨ s.Unarmed card e) :
    (s.disarmListed card i).Unarmed card e := by
  unfold State.disarmListed State.Unarmed
  split
  · rw [State.armedList_disarm h]
    split
    · intro a ha
      simpa using (List.mem_filter.mp ha).2
    · rename_i hne
      exact he.resolve_left hne
  · rename_i hany
    rcases he with rfl | he
    · simpa using hany
    · exact he

theorem State.foldl_disarmListed_unarmed (card : Nat) (l : List Nat) :
    ∀ {s : State}, s.armed.rising = true → ∀ e, e ∈ l ∨ s.Unarmed card e →
      (l.foldl (fun s i => s.disarmListed card i) s).Unarmed card e := by
  induction l with
  | nil => exact fun _ e he => he.resolve_left List.not_mem_nil
  | cons i l ih =>
    intro s h e he
    refine ih (State.disarmListed_rising h card i) e ?_
    rcases he with he | he
    · exact (List.mem_cons.mp he).elim (fun hi => .inr (State.disarmListed_unarmed h (.inl hi))) .inl
    · exact .inr (State.disarmListed_unarmed h (.inr he))

theorem State.disarmAll_unarmed (h : s.armed.rising = true) (card : Nat) {e : Nat} (he : e < 16) :
    (s.disarmAll card).Unarmed card e := by
  rw [State.disarmAll_eq]
  exact State.foldl_disarmListed_unarmed card _ h e (.inl (List.mem_range.mpr he))

/-- Of Record Memory, a card taken off the lists changes the watch entries alone. -/
theorem State.disarmAll_memory (s : State) (card : Nat) :
    ∃ watches, (s.disarmAll card).memory = { s.memory with watches := watches } :=
  WatchBlind.disarmAll (P := fun u => ∃ watches, u.memory = { s.memory with watches := watches })
    (fun s i w _ ⟨_, h⟩ => ⟨(s.memory.setWatchEntry i w).watches, by
      rw [State.setArmedList_memory, RecordMemory.setWatchEntry, h]⟩) card ⟨_, rfl⟩

theorem State.disarmAll_referrals (s : State) (card : Nat) : (s.disarmAll card).referrals = s.referrals :=
  WatchBlind.disarmAll (P := fun u => u.referrals = s.referrals) (fun _ _ _ _ h => h) card rfl

/-! ### The closure's change of Record Memory (R35, R47) -/

theorem RecordMemory.cardAt_removeCard_other (m : RecordMemory) {slot y : Slot} (c : Card) (h : y ≠ slot) :
    (m.removeCard slot c).cardAt y = m.cardAt y := by
  cases slot with
  | main n =>
    cases y with
    | main k => exact Table.find_erase_other _ fun e => h (congrArg Slot.main e)
    | overflow k => rfl
  | overflow n =>
    cases y with
    | main k => rfl
    | overflow k => exact Table.find_erase_other _ fun e => h (congrArg Slot.overflow e)

theorem RecordMemory.closed_cardAt_same (hm : m.mainCards.rising = true) (hp : m.poolCards.rising = true)
    (slot : Slot) (c : Card) : (m.closed slot c).cardAt slot = none := by
  cases slot with
  | main n => exact Table.find_erase_same n hm
  | overflow n => exact Table.find_erase_same n hp

theorem RecordMemory.closed_cardAt_other (m : RecordMemory) {slot y : Slot} (c : Card) (h : y ≠ slot) :
    (m.closed slot c).cardAt y = m.cardAt y := by
  refine (RecordMemory.cardAt_removeCard_other _ c h).trans ?_
  cases y <;> rfl

theorem RecordMemory.closed_product (h : m.products.rising = true) (slot : Slot) (c : Card) :
    (m.closed slot c).product c.product =
      { m.product c.product with issued := (m.product c.product).issued - 1 } := by
  have hp : (m.closed slot c).products = m.products.set Product.unused c.product
      { m.product c.product with issued := (m.product c.product).issued - 1 } := by
    cases slot <;> rfl
  rw [RecordMemory.product, hp]
  exact Table.get_set_same _ _ _ h

theorem RecordMemory.closed_funds (m : RecordMemory) (slot : Slot) (c : Card) :
    (m.closed slot c).funds = c.lots.foldl Funds.writeOffLot (m.funds.cashOutPaid c.paid) := by
  rw [RecordMemory.closed_eq]

theorem RecordMemory.closed_merchants (m : RecordMemory) (slot : Slot) (c : Card) :
    (m.closed slot c).merchants = m.merchants := by
  cases slot <;> rfl

theorem RecordMemory.closed_holds (m : RecordMemory) (slot : Slot) (c : Card) :
    (m.closed slot c).holds = m.holds := by
  cases slot <;> rfl

/-! ### CLOSE-CARD (R46, R47) -/

/-- The lots that a touch writes off: the expired ones of a card behind today. -/
theorem sweepCard_written (day : Nat) (c : Card) :
    (sweepCard day c).written =
      if c.sweptThrough < day then c.lots.filter (fun l => decide (l.expiry < day)) else [] := by
  unfold sweepCard
  split <;> rfl

/-- A closure changes Record Memory as R47 says, and the watch entries that waited for the card. -/
theorem closeTouched_memory (s : State) (slot : Slot) (c : Card) (swept : List Lot) :
    ∃ watches, (closeTouched s slot c swept).1.memory = { s.memory.closed slot c with watches := watches } := by
  rw [closeTouched_eq]
  exact State.disarmAll_memory { s with memory := s.memory.closed slot c } c.number

theorem closeTouched_referrals (s : State) (slot : Slot) (c : Card) (swept : List Lot) :
    (closeTouched s slot c swept).1.referrals = s.referrals := by
  rw [closeTouched_eq]
  exact State.disarmAll_referrals { s with memory := s.memory.closed slot c } c.number

theorem closeTouched_unarmed (h : s.armed.rising = true) (slot : Slot) (c : Card) (swept : List Lot) {e : Nat}
    (he : e < 16) : (closeTouched s slot c swept).1.Unarmed c.number e := by
  rw [closeTouched_eq]
  exact State.disarmAll_unarmed (s := { s with memory := s.memory.closed slot c }) h c.number he

/-- A CLOSE-CARD on a present card: its refusal, its decline on the touched card, or the closure. -/
theorem closeCardChange_found (he : t.engine = .trading) (hw : wellFormedNumber card = true)
    (hf : t.memory.findCard card = some (slot, c)) :
    closeCardChange card t =
      let k := t.memory.touch c
      if c.holds ≠ [] then refuse .holdsOpen t
      else if c.referralOpen = true then
        let r := declineTouched k.memory slot k.card k.wrote .cardBusy
        (t.withMemory r.1, r.2)
      else closeTouched (t.withMemory k.memory) slot k.card (sweepCard t.memory.today c).written := by
  have hr : (t.memory.touch c).card.referralOpen = c.referralOpen := (sweepCard_frame t.memory.today c).2.1
  refine (if_neg (not_not.mpr he)).trans ((withCard_found hw hf _).trans ?_)
  simp only [hr, Bool.not_eq_true', List.isEmpty_eq_false_iff]
  rfl

/-- Settles O30: by the cases of `closeCardChange_found`, and what the closure writes. -/
theorem closeCardCashesOut : Obligations.CloseCardCashesOut := by
  intro s t tag card slot c h he hw hf
  have eq := closeCardChange_found he hw hf
  dsimp only at eq ⊢
  split
  · rename_i hholds
    rw [if_pos hholds] at eq
    refine (answerRequest_refuse h eq).trans ?_
    rw [zero_of_found hf]
    rfl
  rename_i hholds
  rw [if_neg hholds] at eq
  split
  · rename_i hopen
    exact answerRequest_answer h (eq.trans (if_pos hopen)) nofun
  rename_i hopen
  have run := answerRequest_answer (code := 15) (tag := tag) (card := card) h (eq.trans (if_neg hopen)) nofun
  rw [sweepCard_written] at run
  generalize (if c.sweptThrough < t.memory.today then c.lots.filter (fun l => decide (l.expiry < t.memory.today))
    else []) = swept at run ⊢
  have hnumber : (t.memory.touch c).card.number = card :=
    (sweepCard_frame t.memory.today c).1.number.trans (RecordMemory.findCard_spec hf).1
  have hproduct := t.memory.touch_product c
  set k := t.memory.touch c
  refine ⟨_, run, ?_⟩
  obtain ⟨watches, hu⟩ := closeTouched_memory (t.withMemory k.memory) slot k.card swept
  rw [hu, closeTouched_referrals, ← hproduct]
  refine ⟨k.memory.closed_funds slot k.card,
    fun hm hp => RecordMemory.closed_cardAt_same (m := k.memory) hm hp slot k.card,
    fun other hother => (k.memory.closed_cardAt_other k.card hother).trans ?_,
    fun hp => RecordMemory.closed_product (m := k.memory) hp slot k.card,
    fun ha e he => ?_, k.memory.closed_merchants slot k.card, k.memory.closed_holds slot k.card, rfl⟩
  · cases other <;> rfl
  · rw [← hnumber]
    exact closeTouched_unarmed (s := t.withMemory k.memory) ha slot k.card swept he

end Sys2Proof.Machine
end

section
/-! ISSUE: its checks in the order of R36, and the card it places where a lookup finds it (R33, R34, R36, R38, R39). -/

namespace Sys2Proof.Machine

variable {s t : State} {m : RecordMemory} {slot : Slot} {c : Card}
  {tag card product sponsor life paid bonus : Nat} {grant : Option (Fin 8 × Nat × Nat)}

/-! ### The bonus operands (R38, R198) -/

/-- The bonus operands fail their range check exactly when a sponsor is given and one of them is out of range. -/
theorem issueBonusOf_eq_none : issueBonusOf sponsor life bonus = none ↔
    sponsor ≠ 255 ∧ (8 ≤ sponsor ∨ bonus < 1 ∨ 10000000 < bonus ∨ 730 < life) := by
  unfold issueBonusOf sponsorOf
  by_cases ha : sponsor = 255
  · simp [ha]
  by_cases hs : sponsor < 8
  · simp [ha, hs, inRange_iff, maxAmount]
    omega
  · simp [ha, hs, Nat.le_of_not_lt hs]

/-- The bonus operands that pass: no sponsor, or a sponsor from 0 to 7 with an amount of at least 1. -/
theorem issueBonusOf_cases (h : issueBonusOf sponsor life bonus = some grant) :
    grant = none ∧ sponsor = 255 ∨ ∃ hs : sponsor < 8, grant = some (⟨sponsor, hs⟩, life, bonus) ∧ 1 ≤ bonus := by
  unfold issueBonusOf sponsorOf at h
  by_cases ha : sponsor = 255
  · rw [if_pos ha] at h
    cases h
    exact .inl ⟨rfl, ha⟩
  rw [if_neg ha] at h
  by_cases hs : sponsor < 8
  · rw [dif_pos hs] at h
    dsimp only at h
    split at h <;> cases h
    rename_i hr
    rw [Bool.and_eq_true, inRange_iff] at hr
    exact .inr ⟨hs, rfl, hr.1.1⟩
  · rw [dif_neg hs] at h
    cases h

/-- The sponsor check of an ISSUE that passes its range checks. -/
theorem issueBonusOf_inactive (h : issueBonusOf sponsor life bonus = some grant) (m : RecordMemory) :
    (grant.any fun x => decide (m.sponsor x.1.val ≠ .active)) = true ↔ sponsor < 8 ∧ m.sponsor sponsor ≠ .active := by
  rcases issueBonusOf_cases h with ⟨rfl, rfl⟩ | ⟨hs, rfl, -⟩
  · simp
  · simp [hs]

/-- The bonus amount of an ISSUE that passes its range checks. -/
theorem issueBonusOf_amount (h : issueBonusOf sponsor life bonus = some grant) :
    (grant.map fun x => x.2.2).getD 0 = if sponsor < 8 then bonus else 0 := by
  rcases issueBonusOf_cases h with ⟨rfl, rfl⟩ | ⟨hs, rfl, -⟩
  · rfl
  · simp [hs]

/-! ### The card placed (R33, R34) -/

/-- No card on the way of a lookup that fails has the number. -/
theorem RecordMemory.number_of_findCard_none {number : Nat} (h : m.findCard number = none) {y : Slot} {e : Card}
    (hy : y ∈ m.slotsOf (bucketOf number)) (he : m.cardAt y = some e) : e.number ≠ number := by
  rw [RecordMemory.findCard_eq] at h
  have := List.findSome?_eq_none_iff.mp h y hy
  simpa [RecordMemory.probe, he] using this

/-- A card on the way of its lookup, alone there with its number, is found. -/
theorem RecordMemory.findCard_of_alone (hr : slot ∈ m.slotsOf (bucketOf c.number)) (hc : m.cardAt slot = some c)
    (hu : ∀ y ∈ m.slotsOf (bucketOf c.number), ∀ e, m.cardAt y = some e → e.number = c.number → y = slot) :
    m.findCard c.number = some (slot, c) := by
  cases hf : m.findCard c.number with
  | none => exact absurd rfl (RecordMemory.number_of_findCard_none hf hr hc)
  | some x =>
    obtain ⟨y, e⟩ := x
    obtain ⟨hn, he, hy⟩ := RecordMemory.findCard_spec hf
    obtain rfl := hu y hy e he hn
    rw [Option.some.inj (he.symm.trans hc)]

/-- A pool slot joins the end of its bucket's chain (R34). -/
theorem RecordMemory.chain_placeCard_overflow (m : RecordMemory) (n : Nat) (c : Card) :
    (m.placeCard (.overflow n) c).chain (bucketOf c.number) = m.chain (bucketOf c.number) ++ [n] := by
  have hset : (m.chains.set [] (bucketOf c.number) (m.chain (bucketOf c.number) ++ [n])).get [] (bucketOf c.number) =
      m.chain (bucketOf c.number) ++ [n] := by
    rw [Table.set, if_neg (List.append_ne_nil_of_right_ne_nil _ (List.cons_ne_nil n [])), Table.get,
      Table.find_insert_same]
    rfl
  exact hset

/-- The way of a lookup gains at most the slot of the card placed. -/
theorem RecordMemory.mem_slotsOf_placeCard {y : Slot}
    (hy : y ∈ (m.placeCard slot c).slotsOf (bucketOf c.number)) :
    y = slot ∨ y ∈ m.slotsOf (bucketOf c.number) := by
  rw [RecordMemory.mem_slotsOf] at hy ⊢
  rcases hy with hy | ⟨k, rfl, hk⟩
  · exact .inr (.inl hy)
  · cases slot with
    | main n => exact .inr (.inr ⟨k, rfl, hk⟩)
    | overflow n =>
      rw [RecordMemory.chain_placeCard_overflow, List.mem_append, List.mem_singleton] at hk
      exact hk.elim (fun hk => .inr (.inr ⟨k, rfl, hk⟩)) fun hk => .inl (congrArg _ hk)

/-- The place R34 gives is on the way of the lookup of the card placed there. -/
theorem RecordMemory.freePlace_on_way (hf : m.freePlace (bucketOf c.number) = some slot) :
    slot ∈ (m.placeCard slot c).slotsOf (bucketOf c.number) := by
  rw [RecordMemory.mem_slotsOf]
  unfold RecordMemory.freePlace at hf
  split at hf
  · rename_i n hn
    cases hf
    obtain ⟨hleast, hmost, -⟩ := firstIndex_spec hn
    exact .inl ⟨n, rfl, hleast, hmost⟩
  · obtain ⟨n, -, rfl⟩ := Option.map_eq_some_iff.mp hf
    rw [RecordMemory.chain_placeCard_overflow]
    exact .inr ⟨n, rfl, List.mem_append_right _ (List.mem_singleton_self n)⟩

/-- A new card placed where R34 says is found by a lookup of its number. -/
theorem RecordMemory.findCard_placeCard (hnew : m.findCard c.number = none)
    (hf : m.freePlace (bucketOf c.number) = some slot) : (m.placeCard slot c).findCard c.number = some (slot, c) := by
  refine RecordMemory.findCard_of_alone (RecordMemory.freePlace_on_way hf) ?_ fun y hy e he hn => ?_
  · rw [RecordMemory.cardAt_placeCard, if_pos rfl]
  · by_contra hne
    rw [RecordMemory.cardAt_placeCard, if_neg hne] at he
    exact RecordMemory.number_of_findCard_none hnew ((RecordMemory.mem_slotsOf_placeCard hy).resolve_left hne) he hn

/-- A lookup reads the card tables and the chains alone. -/
theorem RecordMemory.findCard_withProduct (m : RecordMemory) (i : Nat) (p : Product) (funds : Funds) (number : Nat) :
    ({ m.setProduct i p with funds := funds } : RecordMemory).findCard number = m.findCard number := rfl

/-! ### What an ISSUE writes and answers (R39) -/

/-- The lots a new card starts with. -/
theorem issueLot_eq (m : RecordMemory) (p : Product) (grant : Option (Fin 8 × Nat × Nat)) :
    issueLot m p grant =
      ((grant.map fun x =>
        (⟨x.1, min 65535 (m.today + if x.2.1 = 0 then p.bonusLife else x.2.1), x.2.2⟩ : Lot)).toList,
      decide (∃ x, grant = some x ∧ 65535 < m.today + if x.2.1 = 0 then p.bonusLife else x.2.1)) := by
  cases grant with
  | none => simp [issueLot]
  | some x => simp [issueLot, cappedDay_eq]

/-- The card ISSUE creates, by its paid value, the lots it starts with and the grant they come from. -/
theorem newCard_eq (m : RecordMemory) (number product paid : Nat) (p : Product) {lots : List Lot}
    (hl : lots = [] ↔ grant = none) :
    newCard m number product paid p lots =
      let stamp := if paid = 0 ∧ grant = none then 0 else 1
      { number := number, product := product, base := .active, frozen := false, softLocked := false
        attemptPending := false, referralOpen := false, awaitingLoad := decide (paid = 0), blockedCount := 0
        lastBlocked := none, paid := paid, lots := lots, holds := []
        expiry := min 65535 (m.today + p.cardLife), lastActivity := m.today
        sweptThrough := m.today, counter := stamp
        last := if paid = 0 then none else some ⟨.load, stamp, m.today, paid, []⟩ } := by
  have hstamp : (if (decide (0 < paid) || !lots.isEmpty) = true then 1 else 0) =
      if paid = 0 ∧ grant = none then 0 else 1 := by
    simp only [← hl]
    cases paid <;> cases lots <;> simp
  simp only [newCard, hstamp, cappedDay_eq]
  cases paid <;> simp

/-- A new card's total value is 0 exactly when the ISSUE brings nothing. -/
theorem newCard_total (h : issueBonusOf sponsor life bonus = some grant) (m m' : RecordMemory)
    (number product paid : Nat) (p : Product) :
    m'.total (newCard m number product paid p (issueLot m p grant).1) = 0 ↔ paid = 0 ∧ grant = none := by
  have htotal : m'.total (newCard m number product paid p (issueLot m p grant).1) =
    paid + sumLots (issueLot m p grant).1 := rfl
  rw [htotal]
  rcases issueBonusOf_cases h with ⟨rfl, -⟩ | ⟨hs, rfl, hb⟩
  · simp [issueLot, sumLots]
  · simp [issueLot, sumLots]
    omega

/-- What an ISSUE that passes its checks writes and answers. -/
theorem issueCard_eq (h : issueBonusOf sponsor life bonus = some grant) (m : RecordMemory) (slot : Slot)
    (number product paid : Nat) :
    issueCard m slot number product paid grant =
      let p := m.product product
      let lots := issueLot m p grant
      let c := newCard m number product paid p lots.1
      ({ (m.placeCard slot c).setProduct product { p with issued := p.issued + 1 } with
          funds := lots.1.foldl (fun f l => f.grant l.sponsor l.amount) (m.funds.takeIn paid) },
        ⟨.done,
          ⟨decide (paid = 0 ∧ grant = none), false, decide (65535 < m.today + p.cardLife) || lots.2, false, false⟩,
          .issued slot c.expiry paid lots.1.head? c.counter⟩) := by
  have hfunds : ∀ c i p, ((m.placeCard slot c).setProduct i p).funds = m.funds := fun c i p => by
    cases slot <;> rfl
  simp only [issueCard, hfunds, zeroOnly_eq, newCard_total h, cappedDay_eq]
  rfl

/-- ISSUE's range checks of the product and the paid amount. -/
theorem issueRange_iff :
    (inRange 0 63 product && inRange 0 maxAmount paid) = true ↔ product ≤ 63 ∧ paid ≤ 10000000 := by
  simp only [Bool.and_eq_true, inRange_iff, maxAmount, Nat.zero_le, true_and]

theorem issueChange_badField (he : t.engine = .trading) (hbad : 63 < product ∨ 10000000 < paid ∨
    sponsor ≠ 255 ∧ (8 ≤ sponsor ∨ bonus < 1 ∨ 10000000 < bonus ∨ 730 < life)) :
    issueChange card product sponsor life paid bonus t = refuse .badField t := by
  refine (if_neg (not_not.mpr he)).trans ?_
  by_cases hrange : product ≤ 63 ∧ paid ≤ 10000000
  · rw [issueRange_iff.mpr hrange, issueBonusOf_eq_none.mpr (by omega)]
    rfl
  · exact if_pos (by simpa only [Bool.not_eq_true', Bool.eq_false_iff, ne_eq, issueRange_iff] using hrange)

theorem issueChange_places (he : t.engine = .trading) (hp : product < 64) (hpaid : paid ≤ 10000000)
    (hb : issueBonusOf sponsor life bonus = some grant) (hw : wellFormedNumber card = true)
    (hactive : (t.memory.product product).state = .active)
    (hs : ∀ x, grant = some x → t.memory.sponsor x.1.val = .active) (hnew : t.memory.findCard card = none)
    (hf : t.memory.freePlace (bucketOf card) = some slot)
    (hmax : paid + (grant.map fun x => x.2.2).getD 0 ≤ (t.memory.product product).maxBalance) :
    issueChange card product sponsor life paid bonus t =
      (t.withMemory (issueCard t.memory slot card product paid grant).1,
        (issueCard t.memory slot card product paid grant).2) := by
  have hrange := issueRange_iff.mpr ⟨Nat.le_of_lt_succ hp, hpaid⟩
  have hsponsor : (grant.any fun x => decide (t.memory.sponsor x.1.val ≠ .active)) = false := by
    cases grant with
    | none => rfl
    | some x => exact decide_eq_false (not_not.mpr (hs x rfl))
  simp only [issueChange, he, hrange, hb, hw, hactive, hsponsor, hnew, hf, Nat.not_lt.mpr hmax, ne_eq,
    not_true_eq_false, if_false, Bool.not_true, Bool.false_eq_true, Option.isSome_none]
  rfl

/-- Settles O24: an ISSUE that passes its checks by `issueCard_eq` and `findCard_placeCard`; any other by the first
check of `issueChange` that fails. -/
theorem issueCreatesTheCard : Obligations.IssueCreatesTheCard := by
  constructor
  · intro s t tag card product sponsor life paid bonus grant slot h he hp hpaid hb hw hactive hs hnew hfree hmax p
      lots stamp c m funds
    have hlots : issueLot t.memory p grant = (lots, _) := issueLot_eq t.memory p grant
    have hnil : lots = [] ↔ grant = none := by cases grant <;> simp [lots]
    have hcard : newCard t.memory card product paid p lots = c := newCard_eq t.memory card product paid p hnil
    have hissue := issueCard_eq hb t.memory slot card product paid
    dsimp only at hissue
    rw [hlots, hcard] at hissue
    have run := answerRequest_answer (code := 7) (tag := tag) (card := card) h
      ((issueChange_places he hp hpaid hb hw hactive hs hnew hfree hmax).trans
        (congrArg (fun r : RecordMemory × Reply => (t.withMemory r.1, r.2)) hissue)) nofun
    refine ⟨run.trans ?_, ?_⟩
    · simp only [Bool.decide_or]
      rfl
    · exact (t.memory.placeCard slot c).findCard_withProduct .. |>.trans
        (RecordMemory.findCard_placeCard (c := c) hnew hfree)
  · intro s t tag card product sponsor life paid bonus h
    have refused := fun r => answerRequest_refuse (code := 7) (tag := tag) (card := card) (r := r) h
      (change := issueChange card product sponsor life paid bonus)
    have eq := issueChange.eq_1 card product sponsor life paid bonus t
    dsimp only at eq ⊢
    split
    · rename_i he
      exact refused _ (eq.trans (if_pos he))
    rename_i he
    rw [if_neg he] at eq
    split
    · rename_i hbad
      exact refused _ (issueChange_badField (not_not.mp he) hbad)
    rename_i hgood
    simp only [not_or] at hgood
    obtain ⟨hproduct, hpaid, hbonus⟩ := hgood
    obtain ⟨grant, hb⟩ := Option.ne_none_iff_exists'.mp (issueBonusOf_eq_none.not.mpr hbonus)
    rw [issueRange_iff.mpr ⟨Nat.le_of_not_lt hproduct, Nat.le_of_not_lt hpaid⟩, hb] at eq
    simp only [Bool.not_true, Bool.false_eq_true, if_false] at eq
    split
    · rename_i hw
      exact refused _ (eq.trans (if_pos (by rw [hw]; rfl)))
    rename_i hw
    rw [if_neg (by simpa using hw)] at eq
    split
    · rename_i hactive
      exact refused _ (eq.trans (if_pos hactive))
    rename_i hactive
    rw [if_neg hactive] at eq
    split
    · rename_i hs
      exact refused _ (eq.trans (if_pos ((issueBonusOf_inactive hb _).mpr hs)))
    rename_i hs
    rw [if_neg ((issueBonusOf_inactive hb _).not.mpr hs)] at eq
    split
    · rename_i hnew
      exact refused _ (eq.trans (if_pos hnew))
    rename_i hnew
    rw [if_neg hnew] at eq
    split
    · rename_i hfree
      exact refused _ (eq.trans (by rw [hfree]))
    rename_i hfree
    obtain ⟨slot, hslot⟩ := Option.ne_none_iff_exists'.mp hfree
    rw [hslot] at eq
    dsimp only at eq
    rw [← issueBonusOf_amount hb]
    split
    · rename_i hmax
      refine (answerRequest_answer h (eq.trans (if_pos hmax)) nofun).trans ?_
      rw [Option.not_isSome_iff_eq_none.mp hnew]
      rfl
    · trivial

end Sys2Proof.Machine
end

section
/-! UNLOCK on a touched card: its referral, its declines and the lock it clears (R67, R68, R114, R115, R126). -/

namespace Sys2Proof.Machine

variable {s t : State} {slot : Slot} {c : Card} {tag card : Nat}

/-! ### A referral made (R114, R115) -/

theorem cappedTime_fst (now seconds : Nat) : (cappedTime now seconds).1 = min 4294967295 (now + seconds) := by
  unfold cappedTime
  rw [show clockCap = 4294967295 from rfl]
  split <;> dsimp only <;> omega

theorem State.makeReferral_full (h : 32 ≤ s.referrals.length) (kind : ReferralKind) :
    s.makeReferral card tag kind = none := if_pos h

/-- A referral made while the queue has room: the OPEN entry at the queue's end, and what the state keeps. -/
theorem State.makeReferral_room (h : ¬ 32 ≤ s.referrals.length) (card tag : Nat) (kind : ReferralKind) :
    ∃ (u : State) (e : Referral) (n : Nat), s.makeReferral card tag kind = some (u, e) ∧
      u.referrals = s.referrals ++ [e] ∧ u.memory = { s.memory with nextReferral := n } ∧ u.answers = s.answers ∧
      e.kind = kind ∧ e.card = card ∧ e.tag = tag ∧ e.state = .opened ∧ e.time = s.memory.clock ∧
      e.deadline = min 4294967295 (s.memory.clock + s.memory.referralTime) :=
  ⟨_, _, _, if_neg h, rfl, rfl, rfl, rfl, rfl, rfl, rfl, rfl, cappedTime_fst ..⟩

/-! ### UNLOCK on the touched card (R67, R68) -/

/-- An UNLOCK of a locked card with an attempt pending: referred, or declined when the queue is full (R68). -/
def referUnlock (s : State) (tag : Nat) (slot : Slot) (c : Card) (wrote : Bool) : State × Reply :=
  match s.makeReferral c.number tag .unlock with
  | none => onMemory (fun m => declineTouched m slot c wrote .referFull) s
  | some (u, e) =>
    let r := u.memory.settle slot { c with referralOpen := true } wrote
    (u.withMemory r.1, ⟨.referred, zeroOnly r.1 c,
      .attempt (.unlockReferred e.number e.deadline c.blockedCount c.lastBlocked r.2)⟩)

theorem referUnlock_made {u : State} {e : Referral} (h : s.makeReferral c.number tag .unlock = some (u, e))
    (slot : Slot) (wrote : Bool) :
    referUnlock s tag slot c wrote =
      let r := u.memory.settle slot { c with referralOpen := true } wrote
      (u.withMemory r.1, ⟨.referred, zeroOnly r.1 c,
        .attempt (.unlockReferred e.number e.deadline c.blockedCount c.lastBlocked r.2)⟩) := by
  rw [referUnlock, h]

theorem referUnlock_full (h : 32 ≤ s.referrals.length) (tag : Nat) (slot : Slot) (c : Card) (wrote : Bool) :
    referUnlock s tag slot c wrote = onMemory (fun m => declineTouched m slot c wrote .referFull) s := by
  rw [referUnlock, State.makeReferral_full h]

/-- A touch leaves every flag of the card as it is (R37). -/
theorem RecordMemory.touch_flags (m : RecordMemory) (c : Card) :
    (m.touch c).card.referralOpen = c.referralOpen ∧ (m.touch c).card.softLocked = c.softLocked ∧
      (m.touch c).card.attemptPending = c.attemptPending := by
  rw [RecordMemory.touch_card, sweepCard]
  split <;> exact ⟨rfl, rfl, rfl⟩

theorem unlocked_of_softLocked (h : c.softLocked = false) : { c with softLocked := false } = c := by
  cases c
  cases h
  rfl

/-- Everything an UNLOCK does to a present card, on the card the touch gives: declined with a referral open, referred with
the lock set and an attempt pending, and otherwise DONE with the lock clear. -/
theorem unlockCard_eq (s : State) (tag : Nat) (slot : Slot) (c : Card) :
    unlockCard s tag slot c =
      let k := s.memory.touch c
      let u := s.withMemory k.memory
      if c.referralOpen = true then onMemory (fun m => declineTouched m slot k.card k.wrote .cardBusy) u
      else if c.softLocked = true ∧ c.attemptPending = true then referUnlock u tag slot k.card k.wrote
      else onMemory (fun m => doneTouched m slot { k.card with softLocked := false } k.wrote) u := by
  obtain ⟨hopen, hlock, hpending⟩ := s.memory.touch_flags c
  rw [← hopen, ← hlock, ← hpending, unlockCard]
  generalize s.memory.touch c = k
  dsimp only
  split
  · rfl
  by_cases hl : k.card.softLocked = false
  · rw [if_pos (by simp [hl]), if_neg (by simp [hl]), unlocked_of_softLocked hl]
    rfl
  by_cases hp : k.card.attemptPending = false
  · rw [if_neg (by simp [hl]), if_pos (by simp [hp]), if_neg (by simp [hp])]
    rfl
  · rw [if_neg (by simp [hl]), if_neg (by simp [hp]), if_pos ⟨Bool.of_not_eq_false hl, Bool.of_not_eq_false hp⟩]
    rfl

/-! ### The request (R67, R126) -/

theorem unlockChange_trading (he : t.engine = .trading) (hw : wellFormedNumber card = true)
    (hf : t.memory.findCard card = some (slot, c)) : unlockChange tag card t = unlockCard t tag slot c := by
  simp [unlockChange, he, withCard_found hw hf]

theorem unlockChange_setup (he : t.engine = .setup) (hw : wellFormedNumber card = true)
    (hf : t.memory.findCard card = some (slot, c)) :
    unlockChange tag card t =
      if c.referralOpen = false ∧ c.attemptPending = true then refuse .wrongState t else unlockCard t tag slot c := by
  simp [unlockChange, he, withCard_found hw hf, and_comm]

/-- Settles O29: in TRADING and in SETUP by the cases of `unlockCard_eq`; the referral by `makeReferral_room`. -/
theorem unlockFollowsTheAttemptPending : Obligations.UnlockFollowsTheAttemptPending := by
  constructor
  · intro s t tag card slot c h he hw hf hday
    have eq := (unlockChange_trading (tag := tag) he hw hf).trans (unlockCard_eq t tag slot c)
    rw [RecordMemory.touch_current hday] at eq
    have answered := fun r => answerRequest_answer (code := 14) (tag := tag) (card := card) (r := r) h
      (change := unlockChange tag card)
    dsimp only at eq ⊢
    split
    · rename_i hopen
      exact answered _ (eq.trans (if_pos hopen)) nofun
    rename_i hopen
    rw [if_neg hopen] at eq
    split
    · rename_i hlock
      rw [if_neg (by simp [hlock]), unlocked_of_softLocked hlock] at eq
      exact answered _ eq nofun
    rename_i hlock
    split
    · rename_i hpending
      exact answered _ (eq.trans (if_neg (by simp [hpending]))) nofun
    rename_i hpending
    rw [if_pos ⟨Bool.of_not_eq_false hlock, Bool.of_not_eq_false hpending⟩] at eq
    split
    · rename_i hfull
      exact answered _ (eq.trans (referUnlock_full (s := t) hfull ..)) nofun
    rename_i hroom
    obtain ⟨u, e, n, hm, hr, hmem, ha, hkind, hcard, htag, hst, htime, hdead⟩ :=
      State.makeReferral_room hroom c.number tag .unlock
    refine ⟨_, e, answered _ (eq.trans (referUnlock_made (s := t) hm slot false)) nofun, hr, hkind,
      hcard.trans (RecordMemory.findCard_spec hf).1, htag, hst, htime, hdead, RecordMemory.cardAt_putCard_same ..,
      ?_, _, congrArg (· ++ [_]) ha, rfl, rfl⟩
    exact (RecordMemory.putCard_funds u.memory slot _).trans (congrArg RecordMemory.funds hmem :)
  · intro s t tag card slot c h he hw hf
    have eq := unlockChange_setup (tag := tag) he hw hf
    rw [unlockCard_eq] at eq
    have answered := fun r => answerRequest_answer (code := 14) (tag := tag) (card := card) (r := r) h
      (change := unlockChange tag card)
    dsimp only at eq ⊢
    split
    · rename_i hopen
      exact answered _ ((eq.trans (if_neg (by simp [hopen]))).trans (if_pos hopen)) nofun
    rename_i hopen
    split
    · rename_i hpending
      refine (answerRequest_refuse h (eq.trans (if_pos ⟨Bool.eq_false_iff.mpr hopen, hpending⟩))).trans ?_
      rw [zero_of_found hf]
      rfl
    · rename_i hpending
      rw [if_neg (by simp [hpending]), if_neg hopen, if_neg (by simp [hpending])] at eq
      exact answered _ eq nofun

end Sys2Proof.Machine
end

section
/-! The product, sponsor and fund total requests, by the record each names (R16 to R18, R52, R54 to R58). -/

namespace Sys2Proof.Machine

variable {s t : State} {i : Instr} {limit index code tag : Nat}

/-! ### Requests on a record by its index -/

/-- A request on a record in range, taken in SETUP or TRADING, is its change of Record Memory. -/
theorem answerRequest_onIndex (h : s.take i = some t) (he : t.engine ≠ .unformatted) (hi : index < limit)
    {change : RecordMemory → RecordMemory × Reply} {r : RecordMemory × Reply} (hr : change t.memory = r) :
    answerRequest i code tag (onIndex limit index change) s =
      .next ((t.withMemory r.1).enter code r.2.outcome r.2.flags tag r.2.body) := by
  subst hr
  rw [answerRequest_taken h, onIndex, if_neg he, if_neg (Nat.not_le.mpr hi)]
  rfl

/-! ### DEFINE-PRODUCT's fields (R52, R54, R198) -/

theorem flagOf_isSome : ∀ n, (flagOf n).isSome = true ↔ n ≤ 1
  | 0 | 1 => by decide
  | n + 2 => by simp [flagOf]

theorem modeOf_isSome : ∀ n, (modeOf n).isSome = true ↔ n ≤ 2
  | 0 | 1 | 2 => by decide
  | n + 3 => by simp [modeOf]

theorem orderOf_isSome : ∀ n, (orderOf n).isSome = true ↔ n ≤ 2
  | 0 | 1 | 2 => by decide
  | n + 3 => by simp [orderOf]

theorem productInRange_iff (f : ProductOperands) :
    productInRange f = true ↔ (1 ≤ f.maxBalance ∧ f.maxBalance ≤ 10000000) ∧
      (1 ≤ f.minLoad ∧ f.minLoad ≤ f.maxLoad ∧ f.maxLoad ≤ 10000000) ∧ (1 ≤ f.cardLife ∧ f.cardLife ≤ 3650) ∧
      (1 ≤ f.bonusLife ∧ f.bonusLife ≤ 730) ∧ (1 ≤ f.refundLife ∧ f.refundLife ≤ 365) ∧
      (60 ≤ f.holdLife ∧ f.holdLife ≤ f.maxHoldLife ∧ f.maxHoldLife ≤ 604800) ∧
      (1 ≤ f.holdsPerCard ∧ f.holdsPerCard ≤ 8) ∧ f.tolerance ≤ 25 := by
  simp only [productInRange, Bool.and_eq_true, inRange_iff, maxAmount]
  omega

/-- A definition's fields spell a product exactly when its numbers are in range and its four codes have a meaning. -/
theorem productOf_isSome (f : ProductOperands) :
    (productOf f).isSome = true ↔ productInRange f = true ∧ (modeOf f.mode).isSome = true ∧
      (orderOf f.order).isSome = true ∧ (flagOf f.reload).isSome = true ∧ (flagOf f.allowPartial).isSome = true := by
  unfold productOf
  split
  · rename_i hrange
    split
    · rename_i hmode horder hreload hpartial
      simp [hrange, hmode, horder, hreload, hpartial]
    · rename_i hnone
      refine iff_of_false Bool.false_ne_true fun ⟨_, hmode, horder, hreload, hpartial⟩ => ?_
      exact hnone _ _ _ _ (Option.some_get hmode).symm (Option.some_get horder).symm (Option.some_get hreload).symm
        (Option.some_get hpartial).symm
  · rename_i hrange
    simp [hrange]

/-! ### The fund totals' sums (R18) -/

theorem sumSponsors_eq_sum (v : Vector Total 8) : sumSponsors v = v.sum := by
  obtain ⟨⟨l⟩, h⟩ := v
  match l, h with
  | [_, _, _, _, _, _, _, _], _ =>
    simp [sumSponsors, Vector.sum]
    ac_rfl

theorem reportSponsor_eq (m : RecordMemory) (n : Nat) (h : n < 8) :
    reportSponsor m n = .sponsor (m.sponsor n) m.funds.granted[n] m.funds.liability[n] m.funds.expired[n]
      m.funds.billed[n] := by
  simp [reportSponsor, h]

/-! ### DEFINE-PRODUCT (R54, R55) -/

theorem defineProductChange_refused {product : Nat} {fields : ProductOperands} (he : t.engine ≠ .unformatted)
    (hf : productOf fields = none) : defineProductChange product fields t = refuse .badField t := by
  rw [defineProductChange, if_neg he, hf]

theorem defineProductChange_written {product : Nat} {fields : ProductOperands} {p : Product}
    (he : t.engine ≠ .unformatted) (hi : product < 64) (hf : productOf fields = some p) :
    defineProductChange product fields t = onMemory (defineProductRecord product p) t := by
  rw [defineProductChange, if_neg he, hf]
  exact if_pos hi

/-! ### The requests -/

/-- Settles O49: each request by the state of the record it names, and the definition's fields by `productOf_isSome`. -/
theorem productAndSponsorRequests : Obligations.ProductAndSponsorRequests := by
  refine ⟨fun s t tag i he hi => ?_, fun f => ?_, fun s t tag i he hi => ?_⟩
  · refine ⟨fun fields h hf => ?_, fun fields p h hf => ?_, fun h => ?_, fun h => ?_, fun h => ?_⟩
    · refine (answerRequest_taken h ..).trans ?_
      rw [defineProductChange_refused he hf]
      rfl
    · refine (answerRequest_taken h ..).trans ?_
      rw [defineProductChange_written he hi hf, onMemory, defineProductRecord]
      dsimp only
      split
      · rfl
      · split <;> rfl
    · refine (answerRequest_onIndex h he hi rfl).trans ?_
      rw [withdrawProductRecord]
      cases (t.memory.product i).state with
      | active | unused => rfl
      | withdrawn => dsimp only; split <;> rfl
    · refine (answerRequest_onIndex h he hi rfl).trans ?_
      rw [reinstateProductRecord]
      cases (t.memory.product i).state <;> rfl
    · exact answerRequest_onIndex h he hi rfl
  · rw [productOf_isSome, productInRange_iff, modeOf_isSome, orderOf_isSome, flagOf_isSome, flagOf_isSome]
    omega
  · refine ⟨fun h => ?_, fun h => ?_, fun h => ?_, fun h => ?_⟩
    · exact answerRequest_onIndex h he hi rfl
    · refine (answerRequest_onIndex h he hi rfl).trans ?_
      rw [retireSponsorRecord]
      cases t.memory.sponsor i <;> rfl
    · refine (answerRequest_onIndex h he hi rfl).trans ?_
      rw [reportSponsor_eq t.memory i hi]
      rfl
    · refine (answerRequest_taken h ..).trans ?_
      rw [inquireFundsChange, if_neg he]
      simp only [reportFunds, sumSponsors_eq_sum]
      rfl

end Sys2Proof.Machine
end

section
/-! Debit attempts: what steps 1 to 7 judge, said once (R72 to R74), how REDEEM and HOLD answer it, and their step 8
(R75, R76, R80, R81). -/

namespace Sys2Proof.Machine

variable {s t : State} {i : Instr} {tag card merchant amount selector sponsor allow life code index : Nat}
  {request : Attempted} {o : DebitOperands} {r : Merchant} {slot : Slot} {c c0 : Card} {method : Method}
  {result : Acceptance}

/-! ### What the watch leaves alone (R132) -/

/-- The watch changes its entries and their lists alone. -/
theorem State.watchAttempt_eq (s : State) (a : WatchedAttempt) : (s.watchAttempt a).1 =
    { s with
      memory := { s.memory with watches := (s.watchAttempt a).1.memory.watches }
      armed := (s.watchAttempt a).1.armed } := by
  obtain ⟨watches, armed, h⟩ := s.watchAttempt_frame a
  simp only [h]

@[simp] theorem State.watchAttempt_today (s : State) (a : WatchedAttempt) :
    (s.watchAttempt a).1.memory.today = s.memory.today := by rw [watchAttempt_eq]

@[simp] theorem State.watchAttempt_clock (s : State) (a : WatchedAttempt) :
    (s.watchAttempt a).1.memory.clock = s.memory.clock := by rw [watchAttempt_eq]

@[simp] theorem State.watchAttempt_products (s : State) (a : WatchedAttempt) :
    (s.watchAttempt a).1.memory.products = s.memory.products := by rw [watchAttempt_eq]

@[simp] theorem State.watchAttempt_holds (s : State) (a : WatchedAttempt) :
    (s.watchAttempt a).1.memory.holds = s.memory.holds := by rw [watchAttempt_eq]

@[simp] theorem State.watchAttempt_merchants (s : State) (a : WatchedAttempt) :
    (s.watchAttempt a).1.memory.merchants = s.memory.merchants := by rw [watchAttempt_eq]

@[simp] theorem State.watchAttempt_referrals (s : State) (a : WatchedAttempt) :
    (s.watchAttempt a).1.referrals = s.referrals := by rw [watchAttempt_eq]

/-! ### Steps 1 to 7 (R72, R73) -/

/-- The card of an attempt on a locked card (R64). -/
def Card.blocked (c : Card) (merchant : Nat) : Card :=
  { c with attemptPending := true, blockedCount := min 255 (c.blockedCount + 1), lastBlocked := some merchant }

/-- An attempt that ends before step 7. -/
def Judged.early (s : State) (c : Card) (reason : DeclineReason) (method : Option Method) (clamped : Bool) : Judged :=
  ⟨s, c, .declined reason, method, none, none, clamped⟩

/-- What the watch reads of an attempt on a card. -/
def watchedBy (s : State) (c : Card) (r : Merchant) (amount : Nat) : WatchedAttempt :=
  ⟨c.number, c.product, r.category, r.id, amount, s.memory.clock⟩

/-- Steps 1 to 7, step by step: the attempt ends at the first step that stops it. -/
theorem judge_eq (s : State) (c : Card) (r : Merchant) (amount : Nat) : judge s c r amount =
    let a := acceptance (s.memory.product c.product) r amount
    if c.base = .expired then .early s c .cardExpired none false
    else if c.frozen = true then .early s c .cardFrozen none false
    else if c.softLocked = true then .early s (c.blocked r.id) .cardLocked none (decide (255 ≤ c.blockedCount))
    else if r.state = .suspended then .early s c .merchantSuspended none false
    else if c.referralOpen = true then .early s c .cardBusy none false
    else if a.2 = .category then .early s c .category (some a.1) false
    else judgeWatch s c r amount a.1 a.2 := by
  unfold judge standing
  by_cases hb : c.base = .expired
  · simp only [if_pos hb]; rfl
  by_cases hf : c.frozen = true
  · simp only [if_neg hb, if_pos hf]; rfl
  by_cases hl : c.softLocked = true
  · simp only [if_neg hb, if_neg hf, if_pos hl]; rfl
  by_cases hs : r.state = .suspended
  · simp only [if_neg hb, if_neg hf, if_neg hl, if_pos hs]; rfl
  simp only [if_neg hb, if_neg hf, if_neg hl, if_neg hs]; rfl

/-- Step 7: a FREEZE ends the attempt on a frozen card, a REFER or a REFER result of acceptance hands it on. -/
theorem judgeWatch_eq (s : State) (c : Card) (r : Merchant) (amount : Nat) (method : Method) (result : Acceptance) :
    judgeWatch s c r amount method result =
      let w := s.watchAttempt (watchedBy s c r amount)
      let mark := lowestWith .mark w.2
      match lowestWith .freeze w.2, lowestWith .refer w.2 with
      | some n, _ => ⟨w.1, { c with frozen := true }, .declined .watchFrozen, some method, mark, some n, false⟩
      | none, some n => ⟨w.1, c, .refer (some n), some method, mark, none, false⟩
      | none, none =>
        ⟨w.1, c, if result = .refer then .refer none else .proceed, some method, mark, none, false⟩ := by
  unfold judgeWatch watchedBy
  dsimp only
  split
  · simp only [*]
  · split <;> simp only [*]

/-- An attempt that passes steps 1 to 6 is judged by the watch. -/
theorem judge_of_standing (hs : standing c (some r) = none) (hb : c.referralOpen = false)
    (ha : acceptance (s.memory.product c.product) r amount = (method, result)) (hr : result ≠ .category) :
    judge s c r amount = judgeWatch s c r amount method result := by
  simp only [judge, hs, hb, ha, if_neg hr, Bool.false_eq_true, if_false]

/-! ### The touched card of an attempt -/

theorem RecordMemory.touch_number (m : RecordMemory) (c : Card) : (m.touch c).card.number = c.number :=
  (sweepCard_frame m.today c).1.number

/-- What the watch reads of an attempt on the touched card. -/
theorem watchedBy_touch (hm : t.memory.findMerchant merchant = some (index, r))
    (hf : t.memory.findCard card = some (slot, c0)) :
    watchedBy (t.withMemory (t.memory.touch c0).memory) (t.memory.touch c0).card r amount =
      ⟨card, c0.product, r.category, merchant, amount, t.memory.clock⟩ := by
  unfold watchedBy
  rw [RecordMemory.touch_number, RecordMemory.touch_product, (RecordMemory.findCard_spec hf).1,
    (RecordMemory.findMerchant_spec hm).2.1]
  rfl

/-- The product of the touched card. -/
theorem product_touch (m : RecordMemory) (c : Card) :
    (m.touch c).memory.product (m.touch c).card.product = m.product c.product := by
  rw [RecordMemory.touch_product]
  rfl

/-! ### REDEEM and HOLD answered (R72 to R74) -/

/-- An attempt's answer. -/
abbrev Attempt := State × AnswerOutcome × AnswerFlags × AttemptBody

/-- A state that an attempt's answer enters. -/
def Attempt.answered (a : Attempt) (code tag : Nat) : State := a.1.enter code a.2.1 a.2.2.1 tag (.attempt a.2.2.2)

/-- The two requests that are debit attempts, with their code and what they perform. -/
def DebitRequest (tag card merchant amount selector sponsor allow life : Nat) (i : Instr) (code : Nat)
    (request : Attempted) : Prop :=
  i = .redeem tag card merchant amount selector sponsor allow ∧ code = 16 ∧ request = .redeem ∨
    i = .hold tag card merchant amount selector sponsor allow life ∧ code = 17 ∧ request = .hold life

/-- A REDEEM or HOLD that passes its checks answers what its attempt gives. -/
theorem exec_debit (hi : DebitRequest tag card merchant amount selector sponsor allow life i code request)
    (h : s.take i = some t) (he : t.engine = .trading) (ho : debitOf amount selector sponsor allow = some o)
    (hw : wellFormedNumber card = true) (hm : t.memory.findMerchant merchant = some (index, r))
    (hf : t.memory.findCard card = some (slot, c0)) {a : Attempt}
    (ha : attemptDebit t tag slot c0 index r o request = a) (hn : ∀ x, a.2.1 ≠ .refused x) :
    exec i s = .next (Attempt.answered a code tag) := by
  have hc : debitChange tag card merchant (debitOf amount selector sponsor allow) request t =
      (a.1, ⟨a.2.1, a.2.2.1, .attempt a.2.2.2⟩) := by
    simp only [debitChange, he, ho, hw, hm, hf, ha, ne_eq, not_true_eq_false, if_false, Bool.not_true,
      Bool.false_eq_true]
  rcases hi with ⟨rfl, rfl, rfl⟩ | ⟨rfl, rfl, rfl⟩ <;> exact answerRequest_answer h hc hn

theorem debitOf_amount (ho : debitOf amount selector sponsor allow = some o) : o.amount = amount := by
  unfold debitOf at ho
  split at ho
  · split at ho
    · cases ho; rfl
    · cases ho
  · cases ho

/-- A declined attempt's answer (R74). -/
theorem declineAttempt_eq (s : State) (slot : Slot) (c : Card) (wrote : Bool) (reason : DeclineReason)
    (method : Option Method) (mark freezer : Option Nat) (clamped : Bool) :
    declineAttempt s slot c wrote reason method mark freezer clamped =
      let m := s.memory.settle slot c wrote
      (s.withMemory m.1, .declined reason, ⟨decide (m.1.total c = 0), false, clamped, false, mark.isSome⟩,
        .declined method mark freezer m.2) := by
  simp only [declineAttempt, zeroOnly_eq]

/-- An attempt that steps 1 to 7 decline answers their decline. -/
theorem attemptDebit_declined {j : Judged} {reason : DeclineReason}
    (hj : judge (t.withMemory (t.memory.touch c0).memory) (t.memory.touch c0).card r o.amount = j)
    (hv : j.verdict = .declined reason) :
    attemptDebit t tag slot c0 index r o request =
      declineAttempt j.state slot j.card (t.memory.touch c0).wrote reason j.method j.mark j.freezer j.clamped := by
  simp only [attemptDebit, hj, hv]

/-- The kind of the entry that a referred attempt makes: a watch entry's, or that of its request (R73, R112). -/
def ReferralKind.ofAttempt (terms : Terms) : Option Nat → Attempted → ReferralKind
  | some n, request => .watch request terms n
  | none, .redeem => .debit terms
  | none, .hold life => .hold terms life

/-- An attempt that the watch or acceptance refers. -/
theorem attemptDebit_refer {j : Judged} {entry : Option Nat}
    (hj : judge (t.withMemory (t.memory.touch c0).memory) (t.memory.touch c0).card r o.amount = j)
    (hv : j.verdict = .refer entry) :
    attemptDebit t tag slot c0 index r o request =
      referAttempt j.state slot j.card (t.memory.touch c0).wrote tag
        (.ofAttempt ⟨r.id, o.amount, o.purse, o.allowPartial, j.method.getD .a⟩ entry request) j.method j.mark := by
  simp only [attemptDebit, hj, hv]
  cases entry <;> cases request <;> rfl

/-- An attempt that ends before step 7 is answered with its decline on the touched card. -/
theorem exec_debit_early (hi : DebitRequest tag card merchant amount selector sponsor allow life i code request)
    (h : s.take i = some t) (he : t.engine = .trading) (ho : debitOf amount selector sponsor allow = some o)
    (hw : wellFormedNumber card = true) (hm : t.memory.findMerchant merchant = some (index, r))
    (hf : t.memory.findCard card = some (slot, c0)) {c' : Card} {reason : DeclineReason} {method : Option Method}
    {clamped : Bool}
    (hj : judge (t.withMemory (t.memory.touch c0).memory) (t.memory.touch c0).card r amount =
      .early (t.withMemory (t.memory.touch c0).memory) c' reason method clamped) :
    exec i s =
      let m := (t.memory.touch c0).memory.settle slot c' (t.memory.touch c0).wrote
      .next ((t.withMemory m.1).enter code (.declined reason)
        ⟨decide (m.1.total c' = 0), false, clamped, false, false⟩ tag (.attempt (.declined method none none m.2))) := by
  rw [← debitOf_amount ho] at hj
  refine (exec_debit hi h he ho hw hm hf ((attemptDebit_declined hj rfl).trans (declineAttempt_eq ..)) nofun).trans ?_
  rfl

theorem debitRequest_of_code (hi : i = .redeem tag card merchant amount selector sponsor allow ∧ code = 16 ∨
      i = .hold tag card merchant amount selector sponsor allow life ∧ code = 17) :
    ∃ request, DebitRequest tag card merchant amount selector sponsor allow life i code request := by
  rcases hi with ⟨hi, hc⟩ | ⟨hi, hc⟩
  · exact ⟨_, .inl ⟨hi, hc, rfl⟩⟩
  · exact ⟨_, .inr ⟨hi, hc, rfl⟩⟩

/-- The acceptance table (R60, R61). -/
theorem acceptance_eq (p : Product) (r : Merchant) (amount : Nat) : acceptance p r amount =
    match p.mode with
    | .opened => if r.trust = 3 then (.a, .locally) else (.b, .refer)
    | .mapped => if p.categoryMap.getLsbD r.category = true then (.c, .locally) else (.d, .category)
    | .guarded =>
      if p.categoryMap.getLsbD r.category = true then
        (.e, if r.trust = 3 ∨ amount ≤ r.floor then .locally else .refer)
      else (.f, if r.trust = 3 then .refer else .category) := by
  unfold acceptance
  cases p.mode
  case opened => rfl
  case mapped => rfl
  case guarded =>
    by_cases ht : r.trust = 3
    · simp only [ht, if_true, true_or]
    · by_cases ha : amount ≤ r.floor
      · simp only [ht, ha, if_true, if_false, or_true]
      · simp only [ht, ha, if_false, or_false]

/-- Settles O34: by the steps of `judge_eq`, and the acceptance table. -/
theorem debitStepsEndInOrder : Obligations.DebitStepsEndInOrder := by
  refine ⟨?_, acceptance_eq⟩
  intro s t i tag card merchant amount selector sponsor allow life code index r slot c0 hi h he ho hw hm hf k c a ends
  obtain ⟨request, hi⟩ := debitRequest_of_code hi
  obtain ⟨o, ho⟩ := Option.isSome_iff_exists.mp ho
  have hj := judge_eq (t.withMemory k.memory) c r amount
  rw [State.withMemory_memory, product_touch, (RecordMemory.findMerchant_spec hm).2.1] at hj
  dsimp only at hj
  have early : ∀ {c' reason method clamped},
      judge (t.withMemory k.memory) c r amount = .early (t.withMemory k.memory) c' reason method clamped →
      ends c' reason method clamped := fun hj => exec_debit_early hi h he ho hw hm hf hj
  split_ifs at hj ⊢ <;> exact early hj

/-! ### Referral numbers (R114) -/

theorem numberTried_eq {n : Nat} (h1 : 1 ≤ n) (h2 : n ≤ 65535) {k : Nat} (hk : k < 65535) :
    numberTried n k = (n - 1 + k) % 65535 + 1 := by
  unfold numberTried
  split_ifs <;> omega

/-- The number given is one of those tried in turn, and every number tried before it is held. -/
theorem freshNumber_tried (entries : List Referral) (n fuel k : Nat) (hk : k + fuel < 65534) :
    ∃ j, k ≤ j ∧ j ≤ k + fuel ∧ freshNumber entries fuel (numberTried n k) = numberTried n j ∧
      ∀ i, k ≤ i → i < j → ∃ f ∈ entries, f.number = numberTried n i := by
  induction fuel generalizing k with
  | zero => exact ⟨k, Nat.le_refl k, Nat.le_refl k, rfl, fun i h1 h2 => by omega⟩
  | succ fuel ih =>
    unfold freshNumber
    split
    · next held =>
      obtain ⟨j, hkj, hj, he, hi⟩ := ih (k + 1) (by omega)
      refine ⟨j, by omega, by omega, by rw [numberAfter_tried n (by omega), he], fun i h1 h2 => ?_⟩
      rcases Nat.eq_or_lt_of_le h1 with rfl | h1
      · obtain ⟨f, hf, hn⟩ := List.any_eq_true.mp held
        exact ⟨f, hf, eq_of_beq hn⟩
      · exact hi i h1 h2
    · exact ⟨k, Nat.le_refl k, Nat.le_add_right .., rfl, fun i h1 h2 => by omega⟩

/-- A referral made while the queue has room: its number, and what it makes of the state (R114, R115). -/
theorem State.makeReferral_made (h : s.referrals.length < 32) (h1 : 1 ≤ s.memory.nextReferral)
    (h2 : s.memory.nextReferral ≤ 65535) (card tag : Nat) (kind : ReferralKind) :
    ∃ v e, s.makeReferral card tag kind = some (v, e) ∧ 1 ≤ e.number ∧ e.number ≤ 65535 ∧
      (∀ f ∈ s.referrals, f.number ≠ e.number) ∧
      (∃ n, e.number = (s.memory.nextReferral - 1 + n) % 65535 + 1 ∧
        ∀ j, j < n → ∃ f ∈ s.referrals, f.number = (s.memory.nextReferral - 1 + j) % 65535 + 1) ∧
      e = ⟨e.number, kind, tag, card, s.memory.clock,
        min 4294967295 (s.memory.clock + s.memory.referralTime), .opened⟩ ∧
      v = { s with
        referrals := s.referrals ++ [e]
        lapseRecord := s.lapseRecord.filter fun n => n != e.number
        memory := { s.memory with nextReferral := if e.number = 65535 then 1 else e.number + 1 } } := by
  obtain ⟨n, -, hn, hfresh, hheld⟩ :=
    freshNumber_tried s.referrals s.memory.nextReferral referralPlaces 0 (by decide)
  rw [numberTried_zero] at hfresh
  have hn' : n < 65535 := Nat.lt_of_le_of_lt hn (by decide)
  rw [numberTried_eq h1 h2 hn'] at hfresh
  refine ⟨_, _, if_neg (Nat.not_le.mpr h), ?_, ?_, freshNumber_fresh h _,
    ⟨n, hfresh, fun j hj => ?_⟩, by rw [cappedTime_fst], ?_⟩
  · dsimp only
    omega
  · dsimp only
    omega
  · obtain ⟨f, hf, hfn⟩ := hheld j (Nat.zero_le j) hj
    exact ⟨f, hf, hfn.trans (numberTried_eq h1 h2 (hj.trans hn'))⟩
  · have hnext : numberAfter (freshNumber s.referrals referralPlaces s.memory.nextReferral) =
        if freshNumber s.referrals referralPlaces s.memory.nextReferral = 65535 then 1
        else freshNumber s.referrals referralPlaces s.memory.nextReferral + 1 := by
      unfold numberAfter
      split_ifs <;> omega
    rw [← hnext]

/-! ### What step 7 hands on (R73, R135) -/

/-- A referred attempt with room in the queue. -/
theorem referAttempt_made {kind : ReferralKind} {v : State} {e : Referral}
    (h : s.makeReferral c.number tag kind = some (v, e)) (slot : Slot) (wrote : Bool) (method : Option Method)
    (mark : Option Nat) :
    referAttempt s slot c wrote tag kind method mark =
      let m := v.memory.settle slot { c with referralOpen := true } wrote
      (v.withMemory m.1, .referred, ⟨decide (m.1.total c = 0), false, false, false, mark.isSome⟩,
        .referred e.number e.kind e.deadline mark m.2) := by
  simp only [referAttempt, h, zeroOnly_eq]

theorem referAttempt_full (h : 32 ≤ s.referrals.length) (slot : Slot) (c : Card) (wrote : Bool) (tag : Nat)
    (kind : ReferralKind) (method : Option Method) (mark : Option Nat) :
    referAttempt s slot c wrote tag kind method mark = declineAttempt s slot c wrote .referFull method mark none false := by
  simp only [referAttempt, State.makeReferral_full h]

/-- Settles O38: by what `judgeWatch_eq` hands on, and what a referral made is. -/
theorem watchResultDirectsTheAttempt : Obligations.WatchResultDirectsTheAttempt := by
  refine ⟨?_, fun s card tag kind => ⟨fun h => State.makeReferral_full h kind,
    fun h h1 h2 => State.makeReferral_made h h1 h2 card tag kind⟩⟩
  intro s t i tag card merchant amount selector sponsor allow life code request o index r slot c0 method result hi h he
    ho hw hm hf k c w hs hb ha hr mark declined terms refers
  have hwatch : (t.withMemory k.memory).watchAttempt (watchedBy (t.withMemory k.memory) c r o.amount) = w := by
    rw [debitOf_amount ho, watchedBy_touch hm hf]
  have hlen : w.1.referrals = t.referrals := State.watchAttempt_referrals ..
  clear_value w
  have hj := judgeWatch_eq (t.withMemory k.memory) c r o.amount method result
  rw [← judge_of_standing hs hb (by rw [State.withMemory_memory, product_touch, debitOf_amount ho]; exact ha) hr,
    hwatch] at hj
  dsimp only at hj
  have hterms : terms = ⟨r.id, o.amount, o.purse, o.allowPartial, method⟩ := by
    rw [(RecordMemory.findMerchant_spec hm).2.1, debitOf_amount ho]
  have hcard : c.number = card := (t.memory.touch_number c0).trans (RecordMemory.findCard_spec hf).1
  have declines : ∀ {a : Attempt} {c' : Card} {reason : DeclineReason} {freezer : Option Nat},
      attemptDebit t tag slot c0 index r o request = a →
      a = declineAttempt w.1 slot c' k.wrote reason (some method) mark freezer false → declined c' reason freezer := by
    rintro a c' reason freezer he' rfl
    exact exec_debit hi h he ho hw hm hf (he'.trans (declineAttempt_eq ..)) nofun
  have refer : ∀ {entry : Option Nat},
      attemptDebit t tag slot c0 index r o request =
        referAttempt w.1 slot c k.wrote tag (.ofAttempt terms entry request) (some method) mark →
      refers (.ofAttempt terms entry request) := by
    intro entry he'
    dsimp only [refers]
    rw [← hlen]
    split
    · next hfull => exact declines he' (referAttempt_full hfull ..)
    · next hroom =>
      obtain ⟨v, e, n, hv, -, -, -, hkind, -⟩ := State.makeReferral_room hroom card tag
        (.ofAttempt terms entry request)
      refine ⟨v, e, hv, (exec_debit hi h he ho hw hm hf (he'.trans (referAttempt_made (hcard.symm ▸ hv) ..)) nofun).trans ?_⟩
      rw [← hkind]
      rfl
  cases hz : lowestWith .freeze w.2 with
  | some n =>
    simp only [hz] at hj
    exact declines (attemptDebit_declined hj rfl) rfl
  | none =>
    cases hx : lowestWith .refer w.2 with
    | some n =>
      simp only [hz, hx] at hj
      exact refer (entry := some n) ((attemptDebit_refer hj rfl).trans (by rw [hterms]; rfl))
    | none =>
      simp only [hz, hx] at hj
      cases result with
      | locally => trivial
      | category => trivial
      | refer =>
        have := refer (entry := none) ((attemptDebit_refer hj rfl).trans (by rw [hterms]; rfl))
        cases request <;> exact this

end Sys2Proof.Machine
end

section
/-! Step 8 of a REDEEM and of a HOLD (R75, R76, R78, R80, R81). -/

namespace Sys2Proof.Machine

variable {s t : State} {tag card merchant amount index : Nat} {request : Attempted} {o : DebitOperands} {r : Merchant}
  {slot : Slot} {c c0 : Card} {wrote : Bool} {method : Option Method} {mark : Option Nat} {purse : Purse} {upTo : Bool}

/-! ### Attempts that reach step 8 -/

/-- Step 8 of a request (R73). -/
def finishAttempt (s : State) (slot : Slot) (c : Card) (wrote : Bool) (index : Nat) (r : Merchant) (o : DebitOperands)
    (upTo : Bool) (method : Option Method) (mark : Option Nat) : Attempted → Attempt
  | .redeem => finishRedeem s slot c wrote index r o.amount o.purse upTo method mark
  | .hold life => finishHold s slot c wrote index r o.amount life o.purse upTo method mark

theorem attemptDebit_proceed {j : Judged}
    (hj : judge (t.withMemory (t.memory.touch c0).memory) (t.memory.touch c0).card r o.amount = j)
    (hv : j.verdict = .proceed) :
    attemptDebit t tag slot c0 index r o request =
      finishAttempt j.state slot j.card (t.memory.touch c0).wrote index r o
        (o.allowPartial && (j.state.memory.product j.card.product).allowPartial) j.method j.mark request := by
  simp only [attemptDebit, hj, hv]
  cases request <;> rfl

theorem State.watchAttempt_product (s : State) (a : WatchedAttempt) (i : Nat) :
    (s.watchAttempt a).1.memory.product i = s.memory.product i := by
  rw [RecordMemory.product, State.watchAttempt_products]
  rfl

theorem State.watchAttempt_holdSlot (s : State) (a : WatchedAttempt) (n : Nat) :
    (s.watchAttempt a).1.memory.holdSlot n = s.memory.holdSlot n := by
  rw [RecordMemory.holdSlot, State.watchAttempt_holds]
  rfl

/-- What step 8 works on: the state and card as the steps before left them (R74). -/
structure Proceeds (t u : State) (card : Nat) (c0 c : Card) : Prop where
  number : c.number = card
  product : u.memory.product c.product = t.memory.product c0.product
  today : u.memory.today = t.memory.today
  clock : u.memory.clock = t.memory.clock
  holdSlot : ∀ n, u.memory.holdSlot n = t.memory.holdSlot n

theorem proceeds_watch (hf : t.memory.findCard card = some (slot, c0)) (a : WatchedAttempt) :
    Proceeds t ((t.withMemory (t.memory.touch c0).memory).watchAttempt a).1 card c0 (t.memory.touch c0).card where
  number := (t.memory.touch_number c0).trans (RecordMemory.findCard_spec hf).1
  product := (State.watchAttempt_product ..).trans (product_touch ..)
  today := State.watchAttempt_today ..
  clock := State.watchAttempt_clock ..
  holdSlot _ := State.watchAttempt_holdSlot ..

/-- An attempt that no step before the eighth ends or hands on. -/
theorem attemptDebit_finish (hm : t.memory.findMerchant merchant = some (index, r))
    (hf : t.memory.findCard card = some (slot, c0)) {method : Method}
    (hs : standing (t.memory.touch c0).card (some r) = none) (hb : (t.memory.touch c0).card.referralOpen = false)
    (ha : acceptance (t.memory.product c0.product) r o.amount = (method, .locally))
    {w : State × List (Nat × WatchAction)}
    (hw : (t.withMemory (t.memory.touch c0).memory).watchAttempt
      ⟨card, c0.product, r.category, merchant, o.amount, t.memory.clock⟩ = w)
    (hz : lowestWith .freeze w.2 = none) (hx : lowestWith .refer w.2 = none) :
    attemptDebit t tag slot c0 index r o request =
      finishAttempt w.1 slot (t.memory.touch c0).card (t.memory.touch c0).wrote index r o
        (o.allowPartial && (t.memory.product c0.product).allowPartial) (some method) (lowestWith .mark w.2) request := by
  subst hw
  have hj := judgeWatch_eq (t.withMemory (t.memory.touch c0).memory) (t.memory.touch c0).card r o.amount method .locally
  rw [← judge_of_standing (result := .locally) hs hb (by rw [State.withMemory_memory, product_touch]; exact ha) nofun,
    watchedBy_touch hm hf] at hj
  simp only [hz, hx, reduceCtorEq, if_false] at hj
  rw [attemptDebit_proceed hj rfl, (proceeds_watch hf _).product]

/-! ### The flags and the outcome of a split (R11) -/

theorem doneOrPart_decide (p : Prop) [Decidable p] : doneOrPart (decide p) = if p then .inPart else .done := by
  by_cases h : p <;> simp [doneOrPart, h]

theorem splitFlags_eq (m : RecordMemory) (c : Card) (less clamped : Prop) [Decidable less] [Decidable clamped]
    (watch : Bool) (parts : List Lot) :
    splitFlags (zeroFlag m c) (decide less) (decide clamped) watch parts =
      ⟨decide (m.total c = 0), decide less, decide (less ∨ clamped), decide (1 ≤ sumLots parts), watch⟩ := by
  rw [splitFlags, zeroFlag_eq, Bool.decide_or]

/-! ### REDEEM (R75, R76) -/

theorem Position.wouldExceed_iff (p : Position) (amount : Nat) :
    p.wouldExceed amount = true ↔ 999999999999 < p.gross + (amount : Int) := decide_eq_true_iff

theorem finishRedeem_short
    (hd : drawdown s.memory.today c amount purse (s.memory.product c.product).order upTo = none) :
    finishRedeem s slot c wrote index r amount purse upTo method mark =
      declineAttempt s slot c wrote .short method mark none false := by
  simp only [finishRedeem, RecordMemory.redeem, hd]

theorem finishRedeem_over {d : Split}
    (hd : drawdown s.memory.today c amount purse (s.memory.product c.product).order upTo = some d)
    (hx : 999999999999 < r.position.gross + (d.granted : Int)) :
    finishRedeem s slot c wrote index r amount purse upTo method mark =
      declineAttempt s slot c wrote .positionLimit method mark none false := by
  simp only [finishRedeem, RecordMemory.redeem, hd, if_pos ((r.position.wouldExceed_iff _).mpr hx)]

/-- The card a redemption leaves (R29, R30, R76). -/
def redeemedCard (c : Card) (d : Split) (r : Merchant) (today : Nat) : Card :=
  let stamp := (c.counter + 1) % 65536
  { c with
    paid := c.paid - d.paid, lots := d.lotsLeft, counter := stamp, lastActivity := today
    last := some ⟨.redeem r.id r.period, stamp, today, d.paid, d.parts⟩ }

/-- The merchant with one item accrued (R148). -/
def Merchant.accrued (r : Merchant) (amount : Nat) (parts : List Lot) : Merchant :=
  { r with position := { r.position with
    gross := r.position.gross + (amount : Int), items := r.position.items + 1
    drawn := drawParts r.position.drawn parts } }

/-- A redemption performed (R76). -/
theorem finishRedeem_done {d : Split}
    (hd : drawdown s.memory.today c amount purse (s.memory.product c.product).order upTo = some d)
    (hg : d.granted = d.paid + sumLots d.parts) (hx : r.position.gross + (d.granted : Int) ≤ 999999999999) :
    finishRedeem s slot c wrote index r amount purse upTo method mark =
      let c' := redeemedCard c d r s.memory.today
      let m := (({ s.memory with funds := s.memory.funds.spend d.paid d.parts } : RecordMemory).setMerchant index
        (r.accrued d.granted d.parts)).putCard slot c'
      (s.withMemory m, if d.granted < amount then .inPart else .done,
        ⟨decide (m.total c' = 0), decide (d.granted < amount), decide (d.granted < amount),
          decide (1 ≤ sumLots d.parts), mark.isSome⟩,
        .redeemed d.granted d.paid d.parts c'.counter (c'.paid + sumLots c'.lots) method (amount - d.granted) mark
          r.period) := by
  have hx' : ¬ r.position.wouldExceed d.granted = true := by
    rw [Position.wouldExceed_iff]
    omega
  simp only [finishRedeem, RecordMemory.redeem, hd, if_neg hx', doneOrPart_decide, splitFlags, zeroFlag_eq,
    Bool.or_false, RecordMemory.payMerchant, ← hg]
  rfl

/-- Settles O35: an attempt that reaches step 8 of a redemption, by the three ends of that step. -/
theorem redeemPaysTheMerchant : Obligations.RedeemPaysTheMerchant := by
  intro s t tag card merchant amount selector sponsor allow o index r slot c0 method h he ho hw hm hf k c p w hs hb ha
    hz hx mark run declined drawn
  have hp : Proceeds t w.1 card c0 c := proceeds_watch hf _
  have hfin : attemptDebit t tag slot c0 index r o .redeem = finishRedeem w.1 slot c k.wrote index r amount o.purse
      (o.allowPartial && p.allowPartial) (some method) mark := by
    rw [← debitOf_amount ho] at ha
    rw [attemptDebit_finish hm hf hs hb ha (by rw [debitOf_amount ho]) hz hx, finishAttempt, debitOf_amount ho]
  clear_value w
  have hdraw : drawdown w.1.memory.today c amount o.purse (w.1.memory.product c.product).order
      (o.allowPartial && p.allowPartial) = drawn := by rw [hp.today, hp.product]
  have exec : ∀ {a : Attempt}, finishRedeem w.1 slot c k.wrote index r amount o.purse
      (o.allowPartial && p.allowPartial) (some method) mark = a → (∀ x, a.2.1 ≠ .refused x) →
      run = .next (Attempt.answered a 16 tag) := fun ha hn =>
    exec_debit (life := 0) (.inl ⟨rfl, rfl, rfl⟩) h he ho hw hm hf (hfin.trans ha) hn
  refine ⟨fun hd => ?_, fun d hd hg => ⟨fun hover => ?_, fun hroom => ?_⟩⟩
  · exact exec ((finishRedeem_short (hdraw.trans hd)).trans (declineAttempt_eq ..)) nofun
  · exact exec ((finishRedeem_over (hdraw.trans hd) hover).trans (declineAttempt_eq ..)) nofun
  · rw [← hp.today, ← (RecordMemory.findMerchant_spec hm).2.1]
    refine exec (finishRedeem_done (hdraw.trans hd) hg hroom) fun x => ?_
    dsimp only
    split <;> nofun

/-! ### The lowest FREE slot (R78) -/

theorem firstIndex_eq_none {p : Nat → Bool} {fuel start : Nat} :
    firstIndex p fuel start = none ↔ ∀ j, start ≤ j → j < start + fuel → p j = false := by
  refine ⟨fun h => ?_, fun h => ?_⟩
  · induction fuel generalizing start with
    | zero => exact fun j h1 h2 => by omega
    | succ fuel ih =>
      unfold firstIndex at h
      split at h
      · cases h
      · next hp =>
        intro j h1 h2
        rcases Nat.eq_or_lt_of_le h1 with rfl | h1
        · exact Bool.not_eq_true _ ▸ hp
        · exact ih h j h1 (by omega)
  · cases hf : firstIndex p fuel start with
    | none => rfl
    | some n =>
      obtain ⟨h1, h2, hn, -⟩ := firstIndex_spec hf
      rw [h n h1 h2] at hn
      cases hn

theorem RecordMemory.freeHoldSlot_eq_none {m : RecordMemory} :
    m.freeHoldSlot = none ↔ ∀ j, j < 16384 → (m.holdSlot j).record ≠ none := by
  rw [freeHoldSlot, firstIndex_eq_none]
  simp [holdSlots, Option.isSome_iff_ne_none]

theorem RecordMemory.freeHoldSlot_eq_some {m : RecordMemory} {n : Nat} : m.freeHoldSlot = some n ↔
    n < 16384 ∧ (m.holdSlot n).record = none ∧ ∀ j, j < n → (m.holdSlot j).record ≠ none := by
  refine ⟨fun h => ?_, fun ⟨hn, hr, hj⟩ => firstIndex_eq_some (Nat.zero_le n) (by simpa [holdSlots] using hn) (by
    rw [hr]; rfl) fun j _ h => ?_⟩
  · obtain ⟨-, hn, hr, hj⟩ := firstIndex_spec h
    refine ⟨by simpa [holdSlots] using hn, Option.isNone_iff_eq_none.mp hr, fun j h hjn => ?_⟩
    have := hj j (Nat.zero_le j) h
    rw [hjn] at this
    cases this
  · exact Bool.eq_false_iff.mpr fun hn => hj j h (Option.isNone_iff_eq_none.mp hn)

/-! ### HOLD (R80, R81) -/

section
variable {expires : Nat} {origin : HoldOrigin} {m : RecordMemory}

theorem RecordMemory.place_holdsFull (h : (m.product c.product).holdsPerCard ≤ c.holds.length) :
    m.place c index r amount purse upTo origin expires = .error .holdsFull := if_pos h

theorem RecordMemory.place_poolFull (h : c.holds.length < (m.product c.product).holdsPerCard)
    (hn : m.freeHoldSlot = none) : m.place c index r amount purse upTo origin expires = .error .poolFull := by
  simp only [place, if_neg (Nat.not_le.mpr h), hn]

theorem RecordMemory.place_short (h : c.holds.length < (m.product c.product).holdsPerCard) {n : Nat}
    (hn : m.freeHoldSlot = some n)
    (hd : drawdown m.today c amount purse (m.product c.product).order upTo = none) :
    m.place c index r amount purse upTo origin expires = .error .short := by
  simp only [place, if_neg (Nat.not_le.mpr h), hn, hd]

/-- A hold placed: its record in the lowest FREE slot, its handle at the end of the card's list (R78, R81). -/
theorem RecordMemory.place_ok (h : c.holds.length < (m.product c.product).holdsPerCard) {n : Nat}
    (hn : m.freeHoldSlot = some n) {d : Split}
    (hd : drawdown m.today c amount purse (m.product c.product).order upTo = some d) :
    m.place c index r amount purse upTo origin expires =
      let x : HoldRecord := ⟨origin, c.number, r.id, d.paid, d.parts, m.clock, expires, r.period⟩
      .ok ⟨(m.setHoldSlot n ⟨(m.holdSlot n).generation, (m.holdSlot n).lastEnd, some x⟩).setMerchant index
          { r with openHolds := r.openHolds + 1 },
        { c with
          paid := c.paid - d.paid, lots := d.lotsLeft, holds := c.holds ++ [⟨n, (m.holdSlot n).generation⟩] },
        ⟨n, (m.holdSlot n).generation⟩, x⟩ := by
  simp only [place, if_neg (Nat.not_le.mpr h), hn, hd]
  rfl

end

theorem cappedTime_snd (now seconds : Nat) : (cappedTime now seconds).2 = decide (4294967295 < now + seconds) := by
  unfold cappedTime
  rw [show clockCap = 4294967295 from rfl]
  split
  · next h => exact (decide_eq_true h).symm
  · next h => exact (decide_eq_false h).symm

/-- The seconds a HOLD lives (R80). -/
def Product.lifeAsked (p : Product) (life : Nat) : Nat :=
  if life = 0 then p.holdLife else if life < 60 then 60 else min life p.maxHoldLife

/-- The time at which a HOLD expires (R80). -/
def Product.expiryTime (p : Product) (now life : Nat) : Nat := min 4294967295 (now + p.lifeAsked life)

/-- A HOLD that is not placed is declined, and carries no CLAMPED (log 18). -/
theorem finishHold_declined {life : Nat} {p : Product} (hp : s.memory.product c.product = p) {reason : DeclineReason}
    (h : s.memory.place c index r amount purse upTo .hold (p.expiryTime s.memory.clock life) = .error reason) :
    finishHold s slot c wrote index r amount life purse upTo method mark =
      declineAttempt s slot c wrote reason method mark none false := by
  subst hp
  have hl : ((s.memory.product c.product).lifeOf life).1 = (s.memory.product c.product).lifeAsked life := by
    rw [Product.lifeOf_eq]; rfl
  simp only [finishHold, cappedTime_fst, hl]
  rw [← Product.expiryTime, h]

/-- A HOLD that is placed (R80, R81). -/
theorem finishHold_placed {life : Nat} {p : Product} (hp : s.memory.product c.product = p) {d : Placed}
    (h : s.memory.place c index r amount purse upTo .hold (p.expiryTime s.memory.clock life) = .ok d) :
    finishHold s slot c wrote index r amount life purse upTo method mark =
      let c' := d.card.changed d.memory.today none
      let m := d.memory.putCard slot c'
      (s.withMemory m, if d.record.total < amount then .inPart else .done,
        ⟨decide (m.total c' = 0), decide (d.record.total < amount),
          decide (d.record.total < amount ∨ life ≠ 0 ∧ (life < 60 ∨ p.maxHoldLife < life) ∨
            4294967295 < s.memory.clock + p.lifeAsked life),
          decide (1 ≤ sumLots d.record.parts), mark.isSome⟩,
        .held d.handle d.record.total d.record.paid d.record.parts (p.expiryTime s.memory.clock life) c'.counter method
          (amount - d.record.total) mark) := by
  subst hp
  simp only [finishHold, cappedTime_fst, cappedTime_snd, Product.lifeOf_eq]
  rw [← Product.lifeAsked, ← Product.expiryTime, h]
  simp only [doneOrPart_decide, ← Bool.decide_or, splitFlags_eq]
  rfl

/-- Settles O36: an attempt that reaches step 8 of a hold, by the ends of that step in their order. -/
theorem holdReservesValue : Obligations.HoldReservesValue := by
  intro s t tag card merchant amount selector sponsor allow life o index r slot c0 method h he ho hw hm hf k c p w hs hb
    ha hz hx mark run declined drawn
  have hp : Proceeds t w.1 card c0 c := proceeds_watch hf _
  have hfin : attemptDebit t tag slot c0 index r o (.hold life) = finishHold w.1 slot c k.wrote index r amount life
      o.purse (o.allowPartial && p.allowPartial) (some method) mark := by
    rw [← debitOf_amount ho] at ha
    rw [attemptDebit_finish hm hf hs hb ha (by rw [debitOf_amount ho]) hz hx, finishAttempt, debitOf_amount ho]
  clear_value w
  have hdraw : drawdown w.1.memory.today c amount o.purse (w.1.memory.product c.product).order
      (o.allowPartial && p.allowPartial) = drawn := by rw [hp.today, hp.product]
  have exec : ∀ {a : Attempt}, finishHold w.1 slot c k.wrote index r amount life o.purse
      (o.allowPartial && p.allowPartial) (some method) mark = a → (∀ x, a.2.1 ≠ .refused x) →
      run = .next (Attempt.answered a 17 tag) := fun ha hn =>
    exec_debit (.inr ⟨rfl, rfl, rfl⟩) h he ho hw hm hf (hfin.trans ha) hn
  have declines : ∀ {reason : DeclineReason}, w.1.memory.place c index r amount o.purse
      (o.allowPartial && p.allowPartial) .hold (p.expiryTime w.1.memory.clock life) = .error reason →
      declined reason := fun hd =>
    exec ((finishHold_declined hp.product hd).trans (declineAttempt_eq ..)) nofun
  have room : c.holds.length < p.holdsPerCard → c.holds.length < (w.1.memory.product c.product).holdsPerCard :=
    fun hroom => by rw [hp.product]; exact hroom
  refine ⟨fun hfull => declines (RecordMemory.place_holdsFull (by rw [hp.product]; exact hfull)),
    fun hroom => ⟨fun hfull => declines (RecordMemory.place_poolFull (room hroom)
      (RecordMemory.freeHoldSlot_eq_none.mpr fun j hj => by rw [hp.holdSlot]; exact hfull j hj)),
    fun n hn hfree hlow => ?_⟩⟩
  have hslot : w.1.memory.freeHoldSlot = some n := RecordMemory.freeHoldSlot_eq_some.mpr
    ⟨hn, by rw [hp.holdSlot]; exact hfree, fun j hj => by rw [hp.holdSlot]; exact hlow j hj⟩
  refine ⟨fun hd => declines (RecordMemory.place_short (room hroom) hslot (hdraw.trans hd)), fun d hd => ?_⟩
  refine (exec (finishHold_placed hp.product (RecordMemory.place_ok (room hroom) hslot (hdraw.trans hd)))
    fun x => ?_).trans ?_
  · dsimp only
    split <;> nofun
  · have htoday : ∀ (x : HoldSlot) (y : Merchant),
        ((w.1.memory.setHoldSlot n x).setMerchant index y).today = t.memory.today := fun _ _ => hp.today
    simp only [Card.changed_eq, htoday, hp.holdSlot, hp.clock, hp.number, (RecordMemory.findMerchant_spec hm).2.1]
    rfl

end Sys2Proof.Machine
end

section
/-! Holds that end: CAPTURE, RELEASE and the hold expiry (R78, R79, R82 to R86), and the due holds that a recovery
expires (R95). -/

namespace Sys2Proof.Machine

variable {s t : State} {tag n generation merchant asked index : Nat} {m : RecordMemory} {h : HoldRecord} {r : Merchant}
  {slot : Slot} {c c0 : Card} {last : Option LastEnd} {cause : EndCause}

/-! ### Handles (R79) -/

theorem HoldSlot.resolve_open (generation : Nat) (last : Option LastEnd) (h : HoldRecord) :
    (⟨generation, last, some h⟩ : HoldSlot).resolve generation = .found h := if_pos rfl

/-- A handle of an ended hold resolves by the slot's last end. -/
theorem HoldSlot.resolve_ended {x : HoldSlot} (h : x.generation ≠ generation ∨ x.record = none) :
    x.resolve generation =
      match x.lastEnd with
      | some e => if e.generation = generation ∧ e.cause = .expired then .tooLate e.merchant else .unknown
      | none => .unknown := by
  unfold HoldSlot.resolve
  split
  · next hx =>
    rw [if_neg (h.resolve_right (by rw [hx]; nofun))] <;> rfl
  · rfl

section
variable {change : RecordMemory → HoldRecord → Slot → Card → Nat → Merchant → RecordMemory × Reply}

/-- A request on an OPEN hold named with its merchant. -/
theorem withHold_found (hn : t.memory.holdSlot n = ⟨generation, last, some h⟩) (hh : h.merchant = merchant)
    (hm : t.memory.findMerchant merchant = some (index, r)) (hf : t.memory.findCard h.card = some (slot, c0)) :
    withHold n generation merchant change t = onMemory (fun m => change m h slot c0 index r) t := by
  simp only [withHold, hn, HoldSlot.resolve_open, hh, hm, hf, ne_eq, not_true_eq_false, if_false]

/-- A request on an OPEN hold named with another merchant. -/
theorem withHold_other (hn : t.memory.holdSlot n = ⟨generation, last, some h⟩) (hh : h.merchant ≠ merchant) :
    withHold n generation merchant change t = refuse .unknownHold t := by
  simp only [withHold, hn, HoldSlot.resolve_open, if_pos hh]

/-- A request on a handle that names no OPEN hold. -/
theorem withHold_ended (hx : (t.memory.holdSlot n).generation ≠ generation ∨ (t.memory.holdSlot n).record = none) :
    withHold n generation merchant change t =
      (t, ⟨if (t.memory.holdSlot n).lastEnd = some ⟨generation, merchant, .expired⟩ then .declined .tooLate
        else .refused .unknownHold, AnswerFlags.none, .empty⟩) := by
  unfold withHold
  rw [HoldSlot.resolve_ended hx]
  cases (t.memory.holdSlot n).lastEnd with
  | none => rfl
  | some e =>
    obtain ⟨g, id, cause⟩ := e
    by_cases he : g = generation ∧ cause = .expired
    · obtain ⟨rfl, rfl⟩ := he
      by_cases hid : id = merchant
      · simp [hid]
      · simp [hid, refuse, Reply.refused]
    · rw [if_neg (c := some _ = _) fun hl => he (by cases hl; exact ⟨rfl, rfl⟩)]
      simp only [if_neg he]
      rfl

end

/-! ### A hold given back (R15, R85, R86) -/

/-- The slot of a hold that ended (R78). -/
abbrev endedSlot (generation merchant : Nat) (cause : EndCause) : HoldSlot :=
  ⟨(generation + 1) % 65536, some ⟨generation, merchant, cause⟩, none⟩

/-- A hold given back to its card: the card, the slot, the merchant's count and the write-offs. -/
theorem RecordMemory.giveBack_eq (hn : m.holdSlot n = ⟨generation, last, some h⟩)
    (hm : m.findMerchant h.merchant = some (index, r)) (slot : Slot) (c0 : Card) (cause : EndCause) :
    m.giveBack n h slot c0 cause =
      let k := m.touch c0
      let back := placeParts m.today k.card.lots h.parts
      let c' := { k.card with
        paid := k.card.paid + h.paid, lots := back.1, holds := k.card.holds.erase ⟨n, generation⟩
        counter := (k.card.counter + 1) % 65536, lastActivity := m.today, last := none }
      (((({ k.memory with funds := back.2.foldl Funds.returnPart k.memory.funds } : RecordMemory).setHoldSlot n
          (endedSlot generation h.merchant cause)).setMerchant index { r with openHolds := r.openHolds - 1 }).putCard
        slot c', c', back.2) := by
  have hfree := fun f : Funds => RecordMemory.freeHold_eq (m := { (m.touch c0).memory with funds := f }) (cause := cause)
    hn hm
  simp only [giveBack, returnValue, hfree, hn]
  rfl

theorem exec_hold_request {change : Change} {code : Nat} {i : Instr} {answer : State × Reply} (h : s.take i = some t)
    (hc : change t = answer) : answerRequest i code tag change s =
      .next (answer.1.enter code answer.2.outcome answer.2.flags tag answer.2.body) := by
  rw [answerRequest_taken h, hc]

/-! ### The due holds (R86, R176) -/

/-- The due holds are the OPEN holds whose expiry time the reading has reached. -/
theorem RecordMemory.mem_dueHolds (hr : m.holds.rising = true) {d : Nat × Nat × HoldRecord} :
    d ∈ m.dueHolds ↔ (m.holdSlot d.2.1).record = some d.2.2 ∧ d.1 = d.2.2.expires ∧ d.2.2.expires ≤ m.clock := by
  obtain ⟨time, n, h⟩ := d
  constructor
  · intro hd
    obtain ⟨⟨k, x⟩, hm, he⟩ := List.mem_filterMap.mp hd
    have hx : m.holdSlot k = x := by
      unfold RecordMemory.holdSlot Table.get
      rw [Table.find_of_mem hr hm]
      rfl
    cases hrec : x.record with
    | none => simp [hrec] at he
    | some y =>
      simp only [hrec] at he
      split at he
      · next hle =>
        cases he
        exact ⟨hx ▸ hrec, rfl, hle⟩
      · cases he
  · rintro ⟨hrec, htime, hle⟩
    dsimp only at htime
    subst htime
    refine List.mem_filterMap.mpr ⟨(n, m.holdSlot n), ?_, ?_⟩
    · unfold RecordMemory.holdSlot Table.get at *
      cases hf : m.holds.find n with
      | none => rw [hf] at hrec; cases hrec
      | some x => exact Table.mem_of_find hf
    · dsimp only at hrec hle ⊢
      simp only [hrec, if_pos hle]

theorem RecordMemory.mem_nextHolds {d : Nat × Nat × HoldRecord} :
    d ∈ m.nextHolds ↔ d ∈ m.dueHolds ∧ ∀ e ∈ m.dueHolds, d.1 ≤ e.1 := by
  simp only [nextHolds, List.mem_filter, List.all_eq_true, decide_eq_true_eq]

/-- The Hold Pool takes the hold of a slot when it is due and none is due earlier. -/
theorem RecordMemory.find_nextHolds (hr : m.holds.rising = true) (hn : (m.holdSlot n).record = some h)
    (hdue : h.expires ≤ m.clock)
    (hmin : ∀ j g, (m.holdSlot j).record = some g → g.expires ≤ m.clock → h.expires ≤ g.expires) :
    (m.nextHolds.find? fun d => d.2.1 == n) = some (h.expires, n, h) := by
  have hmem : (h.expires, n, h) ∈ m.nextHolds := mem_nextHolds.mpr ⟨(mem_dueHolds hr).mpr ⟨hn, rfl, hdue⟩, fun e he => by
    obtain ⟨hrec, htime, hle⟩ := (mem_dueHolds hr).mp he
    rw [htime]
    exact hmin _ _ hrec hle⟩
  cases hf : m.nextHolds.find? fun d => d.2.1 == n with
  | none => exact absurd (beq_self_eq_true n) (List.find?_eq_none.mp hf _ hmem)
  | some d =>
    obtain ⟨time, k, x⟩ := d
    have hk := List.find?_some hf
    obtain rfl : k = n := eq_of_beq hk
    obtain ⟨hrec, htime, -⟩ := (mem_dueHolds hr).mp (mem_nextHolds.mp (List.mem_of_find?_eq_some hf)).1
    rw [hn] at hrec
    obtain rfl : h = x := Option.some.inj hrec
    rw [show time = h.expires from htime]

/-- A hold that is not due is not taken. -/
theorem RecordMemory.find_nextHolds_early (hr : m.holds.rising = true) (hn : (m.holdSlot n).record = some h)
    (hearly : m.clock < h.expires) : (m.nextHolds.find? fun d => d.2.1 == n) = none := by
  refine List.find?_eq_none.mpr fun d hd hk => ?_
  obtain ⟨hrec, -, hle⟩ := (mem_dueHolds hr).mp (mem_nextHolds.mp hd).1
  rw [eq_of_beq hk, hn] at hrec
  cases hrec
  exact Nat.not_lt.mpr hle hearly

/-- Settles O41: RELEASE and HOLD_EXPIRY each give a hold back as `giveBack_eq` says. -/
theorem holdsAreGivenBack : Obligations.HoldsAreGivenBack := by
  intro s t tag n generation merchant h index r slot c0 last hn hh he hm hf k back stamp c' m
  subst hh
  have hgive := fun cause => RecordMemory.giveBack_eq hn hm slot c0 cause
  refine ⟨fun htake hlt => ?_, fun hp hr hdue hmin => ?_, fun hr hearly => ?_⟩
  · have hchange : releaseChange n generation h.merchant t = onMemory (fun m => releaseHold m n h slot c0) t := by
      rw [releaseChange, if_neg he, if_neg (show ¬ holdSlots ≤ n from Nat.not_le.mpr hlt),
        withHold_found hn rfl hm hf]
    refine (exec_hold_request htake hchange).trans ?_
    simp only [onMemory, releaseHold, hgive, zeroOnly_eq, anyJoined_eq]
    rfl
  · have hrec : (t.memory.holdSlot n).record = some h := by rw [hn]
    change execHoldExpiry n t = _
    rw [execHoldExpiry, whenPowered_on hp]
    simp only [if_neg he, RecordMemory.find_nextHolds hr hrec hdue hmin, RecordMemory.expireHold, hf, hgive]
    rfl
  · have hrec : (t.memory.holdSlot n).record = some h := by rw [hn]
    change execHoldExpiry n t = _
    unfold execHoldExpiry whenPowered
    simp only [if_neg he, RecordMemory.find_nextHolds_early hr hrec hearly, ite_self]

/-! ### CAPTURE (R82 to R84) -/

/-- The later of two writes of one used merchant record stands. -/
theorem RecordMemory.setMerchant_setMerchant {r r' : Merchant} (hu : r.used = true) (hu' : r'.used = true) :
    (m.setMerchant index r).setMerchant index r' = m.setMerchant index r' := by
  rw [setMerchant_used hu, setMerchant_used hu', setMerchant_used hu']
  simp only [Table.insert_insert]

/-- A merchant paid from a hold and the hold's slot freed: the merchant's record is written once (R78, R148). -/
theorem RecordMemory.payMerchant_freeHold (hn : m.holdSlot n = ⟨generation, last, some h⟩)
    (hm : m.findMerchant h.merchant = some (index, r)) (hr : m.merchants.rising = true) (paid : Nat) (parts : List Lot)
    (cause : EndCause) :
    (m.payMerchant index r paid parts).freeHold n h cause =
      (({ m with funds := m.funds.spend paid parts } : RecordMemory).setHoldSlot n
        (endedSlot generation h.merchant cause)).setMerchant index
        { r.accrued (paid + sumLots parts) parts with openHolds := r.openHolds - 1 } := by
  obtain ⟨hu, hid, -⟩ := RecordMemory.findMerchant_spec hm
  have hm' := RecordMemory.findMerchant_setMerchant (m := { m with funds := m.funds.spend paid parts })
    (r' := { r with position := r.position.accrue (paid + sumLots parts) parts }) hm hr hu hid
  rw [RecordMemory.freeHold_eq (m := m.payMerchant index r paid parts) hn hm']
  exact RecordMemory.setMerchant_setMerchant (m := ({ m with funds := m.funds.spend paid parts } : RecordMemory).setHoldSlot
    n (endedSlot generation h.merchant cause)) hu hu

/-- A capture's excess changes the card's value alone (R14). -/
theorem planCapture_frame (today : Nat) (p : Product) (c : Card) (h : HoldRecord) (asked : Nat) :
    ∃ paid lots, (planCapture today p c h asked).card = { c with paid := paid, lots := lots } := by
  unfold planCapture
  dsimp only
  split
  · exact ⟨_, _, rfl⟩
  · split <;> exact ⟨_, _, rfl⟩

theorem captureHold_over (hx : let x := planCapture m.today (m.product c0.product) (m.touch c0).card h asked
      999999999999 < r.position.gross + ((x.paid + sumLots x.parts : Nat) : Int)) :
    captureHold m n h slot c0 index r asked =
      let k := m.touch c0
      let z := k.memory.settle slot k.card k.wrote
      (z.1, ⟨.declined .positionLimit, ⟨decide (z.1.total k.card = 0), false, false, false, false⟩, .touched z.2⟩) := by
  simp only [captureHold, RecordMemory.touch_product, if_pos ((r.position.wouldExceed_iff _).mpr hx), zeroOnly_eq]

/-- A capture performed: the merchant is paid, the rest returns to the card, the slot is freed (R83, R84). -/
theorem captureHold_done (hn : m.holdSlot n = ⟨generation, last, some h⟩)
    (hm : m.findMerchant h.merchant = some (index, r)) (hr : m.merchants.rising = true)
    (hx : let x := planCapture m.today (m.product c0.product) (m.touch c0).card h asked
      ¬ 999999999999 < r.position.gross + ((x.paid + sumLots x.parts : Nat) : Int)) :
    captureHold m n h slot c0 index r asked =
      let k := m.touch c0
      let x := planCapture m.today (m.product c0.product) k.card h asked
      let back := placeParts m.today x.card.lots x.partsLeft
      let stamp := (k.card.counter + 1) % 65536
      let c' := { x.card with
        paid := x.card.paid + x.paidLeft, lots := back.1, holds := k.card.holds.erase ⟨n, generation⟩
        counter := stamp, lastActivity := m.today
        last := some ⟨.capture r.id r.period, stamp, m.today, x.paid, x.parts⟩ }
      let m' := ((({ k.memory with
          funds := (back.2.foldl Funds.returnPart k.memory.funds).spend x.paid x.parts } : RecordMemory).setHoldSlot n
          (endedSlot generation h.merchant .settled)).setMerchant index
            { r.accrued (x.paid + sumLots x.parts) x.parts with openHolds := r.openHolds - 1 }).putCard slot c'
      (m', ⟨if x.clamped = true ∨ 0 < x.shortfall then .inPart else .done,
        ⟨decide (m'.total c' = 0), decide (0 < x.shortfall), x.clamped,
          decide (1 ≤ sumLots x.parts ∨ ∃ f ∈ back.2, f.2 ≠ .writtenOff), false⟩,
        .captured (x.paid + sumLots x.parts) x.paid x.parts stamp x.paidLeft back.2 x.shortfall r.period⟩) := by
  have hpay := fun f : Funds => RecordMemory.payMerchant_freeHold (m := { (m.touch c0).memory with funds := f }) hn hm hr
  obtain ⟨paid, lots, hcard⟩ := planCapture_frame m.today (m.product c0.product) (m.touch c0).card h asked
  have hout : ∀ x : CapturePlan, doneOrPart (x.clamped || decide (0 < x.shortfall)) =
      if x.clamped = true ∨ 0 < x.shortfall then .inPart else .done := fun x => by
    rw [← doneOrPart_decide, Bool.decide_or, Bool.decide_eq_true]
  simp only [captureHold, RecordMemory.touch_product, if_neg (mt (r.position.wouldExceed_iff _).mp hx),
    RecordMemory.returnValue, hpay, zeroFlag_eq, anyJoined_eq, ← Bool.decide_or, hout, hn, hcard]
  rfl

/-- Settles O40: by how the handle resolves, and the ends of a capture. -/
theorem capturePaysFromTheHold : Obligations.CapturePaysFromTheHold := by
  intro s t tag n generation merchant asked htake he hlt ha1 ha2 hr
  have hchange : captureChange n generation merchant asked t =
      withHold n generation merchant (fun m h slot c index r => captureHold m n h slot c index r asked) t := by
    have hin : inRange 1 maxAmount asked = true := (inRange_iff ..).mpr ⟨ha1, ha2⟩
    rw [captureChange, if_neg he, if_neg (by rw [hin]; simpa [holdSlots] using hlt)]
  refine ⟨fun h index r slot c0 hn hh hm hf => ?_, fun h hn hh => ?_, fun hx => ?_⟩
  · subst hh
    intro k x amount back stamp c' r' m
    have run := exec_hold_request (code := 18) (tag := tag) htake (hchange.trans (withHold_found hn rfl hm hf))
    split
    · next hover =>
      refine run.trans ?_
      simp only [onMemory, captureHold_over hover]
      rfl
    · next hroom =>
      refine run.trans ?_
      simp only [onMemory, captureHold_done hn hm hr hroom, (RecordMemory.findMerchant_spec hm).2.1]
      rfl
  · exact exec_hold_request htake (hchange.trans (withHold_other hn hh))
  · exact exec_hold_request htake (hchange.trans (withHold_ended hx))

end Sys2Proof.Machine
end

section
/-! The holds that a recovery expires (R95, R194): each step frees one due hold, so that none is left. -/

namespace Sys2Proof.Machine

variable {m m' : RecordMemory} {n number : Nat} {h : HoldRecord} {ties : List Nat}

/-! ### Cards found -/

/-- A number is found exactly when a slot on its lookup's way holds it. -/
theorem RecordMemory.findCard_isSome : (m.findCard number).isSome = true ↔
    ∃ slot ∈ m.slotsOf (bucketOf number), (m.cardAt slot).map Card.number = some number := by
  have hprobe : ∀ slot, (m.probe number slot).isSome = true ↔ (m.cardAt slot).map Card.number = some number := by
    intro slot
    unfold RecordMemory.probe
    cases m.cardAt slot with
    | none => simp
    | some c => by_cases hc : c.number = number <;> simp [hc]
  simp only [findCard_eq, List.findSome?_isSome_iff, hprobe]

/-- Cards changed in place under their own numbers: the same numbers are found. -/
theorem RecordMemory.findCard_isSome_congr (hchains : m'.chains = m.chains)
    (hcards : ∀ slot, (m'.cardAt slot).map Card.number = (m.cardAt slot).map Card.number) (number : Nat) :
    (m'.findCard number).isSome = (m.findCard number).isSome := by
  rw [Bool.eq_iff_iff, findCard_isSome, findCard_isSome]
  simp only [hcards, RecordMemory.slotsOf, RecordMemory.chain, hchains]

/-! ### One hold expired (R86) -/

/-- What a recovery's expiries rely on: the pool in order, and every OPEN hold's card present (R28). -/
structure RecordMemory.HoldsPresent (m : RecordMemory) : Prop where
  rising : m.holds.rising = true
  present : ∀ n h, (m.holdSlot n).record = some h → (m.findCard h.card).isSome = true

/-- Freeing a slot writes that slot alone, among the holds. -/
theorem RecordMemory.freeHold_holds (m : RecordMemory) (n : Nat) (h : HoldRecord) (cause : EndCause) :
    (m.freeHold n h cause).holds =
      m.holds.set HoldSlot.free n (endedSlot (m.holdSlot n).generation h.merchant cause) := by
  unfold RecordMemory.freeHold
  dsimp only
  split <;> rfl

theorem RecordMemory.freeHold_clock (m : RecordMemory) (n : Nat) (h : HoldRecord) (cause : EndCause) :
    (m.freeHold n h cause).clock = m.clock := by
  unfold RecordMemory.freeHold
  dsimp only
  split <;> rfl

theorem RecordMemory.freeHold_chains (m : RecordMemory) (n : Nat) (h : HoldRecord) (cause : EndCause) :
    (m.freeHold n h cause).chains = m.chains := by
  unfold RecordMemory.freeHold
  dsimp only
  split <;> rfl

theorem RecordMemory.freeHold_cardAt (m : RecordMemory) (n : Nat) (h : HoldRecord) (cause : EndCause) (slot : Slot) :
    (m.freeHold n h cause).cardAt slot = m.cardAt slot := by
  unfold RecordMemory.freeHold
  dsimp only
  split <;> cases slot <;> rfl

/-- An expiry frees its own slot and no other, and leaves every card in its place and the clock at its reading. -/
theorem RecordMemory.expireHold_frees (hp : m.HoldsPresent) (hn : (m.holdSlot n).record = some h) :
    (m.expireHold n h).clock = m.clock ∧ (m.expireHold n h).holds.rising = true ∧
      (∀ k, ((m.expireHold n h).holdSlot k).record = if k = n then none else (m.holdSlot k).record) ∧
      ∀ number, ((m.expireHold n h).findCard number).isSome = (m.findCard number).isSome := by
  obtain ⟨⟨slot, c⟩, hf⟩ := Option.isSome_iff_exists.mp (hp.present n h hn)
  have hcard := (RecordMemory.findCard_spec hf).2.1
  have he : ∃ f d, d.number = c.number ∧ m.expireHold n h =
      (({ m with funds := f } : RecordMemory).freeHold n h .expired).putCard slot d := by
    refine ⟨_, _, ?_, by simp only [RecordMemory.expireHold, hf]; rfl⟩
    exact m.touch_number c
  obtain ⟨f, d, hd, he⟩ := he
  have hholds : (m.expireHold n h).holds =
      (m.setHoldSlot n (endedSlot (m.holdSlot n).generation h.merchant .expired)).holds := by
    rw [he, RecordMemory.putCard_holds, RecordMemory.freeHold_holds]
    rfl
  refine ⟨?_, ?_, fun k => ?_, RecordMemory.findCard_isSome_congr ?_ fun y => ?_⟩
  · rw [he, RecordMemory.putCard_clock, RecordMemory.freeHold_clock]
  · rw [hholds]
    exact Table.rising_set _ _ _ hp.rising
  · rw [show (m.expireHold n h).holdSlot k = (m.setHoldSlot n _).holdSlot k from by
      rw [RecordMemory.holdSlot, hholds]; rfl, RecordMemory.holdSlot_setHoldSlot hp.rising]
    split <;> rfl
  · rw [he, RecordMemory.putCard_chains, RecordMemory.freeHold_chains]
  · rw [he, RecordMemory.cardAt_putCard, RecordMemory.freeHold_cardAt]
    split
    · next hy =>
      rw [hy, hcard, Option.map_some, Option.map_some, hd]
    · rfl

theorem RecordMemory.HoldsPresent.expireHold (hp : m.HoldsPresent) (hn : (m.holdSlot n).record = some h) :
    (m.expireHold n h).HoldsPresent := by
  obtain ⟨-, hr, hslots, hcards⟩ := RecordMemory.expireHold_frees hp hn
  refine ⟨hr, fun k x hx => ?_⟩
  rw [hslots] at hx
  split at hx
  · cases hx
  · exact (hcards _).trans (hp.present k x hx)

/-! ### The due holds counted -/

theorem Table.pairwise_of_rising {α : Type} {t : Table α} (h : t.rising = true) :
    List.Pairwise (fun a b : Nat × α => a.1 < b.1) t := by
  induction t with
  | nil => exact .nil
  | cons e t ih =>
    obtain ⟨ha, ht⟩ := (Table.rising_cons e.1 e.2 t).mp h
    exact .cons ha (ih ht)

/-- Each slot is due once. -/
theorem RecordMemory.dueHolds_nodup (hr : m.holds.rising = true) : m.dueHolds.Nodup := by
  have hp : m.dueHolds.Pairwise fun a b => a.2.1 < b.2.1 := by
    refine List.pairwise_filterMap.mpr ((Table.pairwise_of_rising hr).imp fun {a b} hlt x hx y hy => ?_)
    have key : ∀ {e : Nat × HoldSlot} {z : Nat × Nat × HoldRecord}, (match e.2.record with
        | some h => if h.expires ≤ m.clock then some (h.expires, e.1, h) else none
        | none => none) = some z → z.2.1 = e.1 := by
      intro e z hz
      split at hz
      · split at hz
        · cases hz; rfl
        · cases hz
      · cases hz
    rw [key hx, key hy]
    exact hlt
  exact hp.imp fun hlt he => by rw [he] at hlt; exact Nat.lt_irrefl _ hlt

/-- An expiry leaves fewer holds due. -/
theorem RecordMemory.dueHolds_expireHold (hp : m.HoldsPresent) {d : Nat × Nat × HoldRecord} (hd : d ∈ m.dueHolds) :
    (m.expireHold d.2.1 d.2.2).dueHolds.length < m.dueHolds.length := by
  obtain ⟨hclock, hr, hslots, -⟩ := RecordMemory.expireHold_frees hp ((mem_dueHolds hp.rising).mp hd).1
  have hsub : d :: (m.expireHold d.2.1 d.2.2).dueHolds ⊆ m.dueHolds := by
    refine List.cons_subset.mpr ⟨hd, fun e he => ?_⟩
    obtain ⟨hrec, htime, hle⟩ := (mem_dueHolds hr).mp he
    rw [hslots] at hrec
    rw [hclock] at hle
    split at hrec
    · cases hrec
    · exact (mem_dueHolds hp.rising).mpr ⟨hrec, htime, hle⟩
  have hnew : d ∉ (m.expireHold d.2.1 d.2.2).dueHolds := fun he => by
    have hrec := ((mem_dueHolds hr).mp he).1
    rw [hslots, if_pos rfl] at hrec
    cases hrec
  exact (List.subperm_of_subset (List.nodup_cons.mpr ⟨hnew, dueHolds_nodup hr⟩) hsub).length_le

/-- A recovery finds a hold to expire as long as one is due. -/
theorem RecordMemory.recoverNext_spec (m : RecordMemory) (ties : List Nat) :
    (∃ d ∈ m.dueHolds, m.recoverNext ties = some d) ∨ m.dueHolds = [] ∧ m.recoverNext ties = none := by
  unfold RecordMemory.recoverNext
  split
  · next d hd =>
    obtain ⟨_, -, hf⟩ := List.exists_of_findSome?_eq_some hd
    exact .inl ⟨d, (mem_nextHolds.mp (List.mem_of_find?_eq_some hf)).1, rfl⟩
  · cases hh : m.nextHolds.head? with
    | some d => exact .inl ⟨d, (mem_nextHolds.mp (List.mem_of_mem_head? hh)).1, rfl⟩
    | none =>
      refine .inr ⟨?_, rfl⟩
      cases ha : m.dueHolds.argmin Prod.fst with
      | none => exact List.argmin_eq_none.mp ha
      | some d =>
        have hd : d ∈ m.nextHolds :=
          mem_nextHolds.mpr ⟨List.argmin_mem ha, fun e he => List.le_of_mem_argmin he ha⟩
        rw [List.head?_eq_none_iff.mp hh] at hd
        cases hd

/-- With as many steps as holds are due, a recovery leaves none due. -/
theorem RecordMemory.expireDue_none_due (ties : List Nat) (fuel : Nat) (hp : m.HoldsPresent)
    (hfuel : m.dueHolds.length ≤ fuel) :
    (m.expireDue ties fuel).dueHolds = [] ∧ (m.expireDue ties fuel).holds.rising = true ∧
      (m.expireDue ties fuel).clock = m.clock := by
  induction fuel generalizing m with
  | zero => exact ⟨List.eq_nil_of_length_eq_zero (Nat.le_zero.mp hfuel), hp.rising, rfl⟩
  | succ fuel ih =>
    unfold RecordMemory.expireDue
    rcases m.recoverNext_spec ties with ⟨d, hd, he⟩ | ⟨hnone, he⟩
    · have hrec := ((mem_dueHolds hp.rising).mp hd).1
      have hless := RecordMemory.dueHolds_expireHold hp hd
      obtain ⟨h1, h2, h3⟩ := ih (hp.expireHold hrec) (by omega)
      simp only [he]
      exact ⟨h1, h2, h3.trans (RecordMemory.expireHold_frees hp hrec).1⟩
    · simp only [he, hnone, hp.rising, and_self]

/-- Settles O14: what a recovery expires leaves no hold due, and a hold that is not due expires later. -/
theorem recoveryExpiresEveryDueHold : Obligations.RecoveryExpiresEveryDueHold := by
  intro m ties hr hpresent n h hn
  let w := { m.mapCards clearReferralOpen with
    watches := m.watches.update WatchEntry.formatted WatchEntry.recovered
    descriptors := m.descriptors.update Descriptor.idle Descriptor.recovered }
  have hp : w.HoldsPresent := by
    refine ⟨hr, fun k x hx => (RecordMemory.findCard_isSome_congr (m := m) (m' := w) rfl (fun slot => ?_) _).trans
      (hpresent k x hx)⟩
    rw [show w.cardAt slot = (m.mapCards clearReferralOpen).cardAt slot from by cases slot <;> rfl,
      RecordMemory.cardAt_mapCards, Option.map_map]
    rfl
  obtain ⟨hnone, hrise, hclock⟩ := RecordMemory.expireDue_none_due ties w.holds.length hp (List.length_filterMap_le ..)
  by_contra hle
  have hmem : (h.expires, n, h) ∈ (w.expireDue ties w.holds.length).dueHolds :=
    (RecordMemory.mem_dueHolds hrise).mpr ⟨hn, rfl, by rw [hclock]; exact Nat.not_lt.mp hle⟩
  rw [hnone] at hmem
  cases hmem

end Sys2Proof.Machine
end

section
/-! The members of a tender, judged one at a time (R90 to R92): what a member's attempt gives, and what a run of members
leaves of the records. -/

namespace Sys2Proof.Machine

variable {s t : State} {m b : RecordMemory} {number n merchant index amount remainder : Nat} {r r' : Merchant}
  {slot : Slot} {c c0 d : Card} {p : Member} {v : TenderRun} {j : Judged} {reason : DeclineReason} {purse : Purse}

/-! ### Step 8 of a member (R91, R92) -/

theorem placeMember_holdsFull (h : (s.memory.product c.product).holdsPerCard ≤ c.holds.length) :
    placeMember s c index r remainder purse = .error .holdsFull := by
  unfold placeMember
  by_cases h0 : remainder = 0
  · rw [if_pos h0, if_pos h]
  · rw [if_neg h0]
    exact RecordMemory.place_holdsFull h

theorem placeMember_poolFull (h : c.holds.length < (s.memory.product c.product).holdsPerCard)
    (hn : s.memory.freeHoldSlot = none) : placeMember s c index r remainder purse = .error .poolFull := by
  unfold placeMember
  split
  · rw [if_neg (Nat.not_le.mpr h), hn]
    rfl
  · exact RecordMemory.place_poolFull h hn

theorem placeMember_short (h : c.holds.length < (s.memory.product c.product).holdsPerCard)
    (hn : s.memory.freeHoldSlot = some n)
    (hd : remainder = 0 ∨
      drawdown s.memory.today c remainder purse (s.memory.product c.product).order true = none) :
    placeMember s c index r remainder purse = .error .short := by
  unfold placeMember
  split
  · rw [if_neg (Nat.not_le.mpr h), hn]
    rfl
  · next hne => exact RecordMemory.place_short h hn (hd.resolve_left hne)

/-- A member hold of the tender placed. -/
theorem placeMember_eq_place (h : remainder ≠ 0) : placeMember s c index r remainder purse =
    s.memory.place c index r remainder purse true .tender s.memory.clock := if_neg h

/-- What a placed member hold is. -/
theorem placeMember_eq_ok {y : Placed} (h : placeMember s c index r remainder purse = .ok y) :
    ∃ n x, s.memory.freeHoldSlot = some n ∧
      drawdown s.memory.today c remainder purse (s.memory.product c.product).order true = some x ∧
      y = let h : HoldRecord := ⟨.tender, c.number, r.id, x.paid, x.parts, s.memory.clock, s.memory.clock, r.period⟩
        ⟨(s.memory.setHoldSlot n ⟨(s.memory.holdSlot n).generation, (s.memory.holdSlot n).lastEnd, some h⟩).setMerchant
            index { r with openHolds := r.openHolds + 1 },
          { c with
            paid := c.paid - x.paid, lots := x.lotsLeft, holds := c.holds ++ [⟨n, (s.memory.holdSlot n).generation⟩] },
          ⟨n, (s.memory.holdSlot n).generation⟩, h⟩ := by
  rcases Nat.lt_or_ge c.holds.length (s.memory.product c.product).holdsPerCard with hroom | hfull
  · cases hn : s.memory.freeHoldSlot with
    | none => rw [placeMember_poolFull hroom hn] at h; cases h
    | some n =>
      cases hd : drawdown s.memory.today c remainder purse (s.memory.product c.product).order true with
      | none => rw [placeMember_short hroom hn (.inr hd)] at h; cases h
      | some x =>
        by_cases h0 : remainder = 0
        · rw [placeMember_short hroom hn (.inl h0)] at h
          cases h
        · rw [placeMember_eq_place h0, RecordMemory.place_ok hroom hn hd] at h
          exact ⟨n, x, rfl, rfl, (Except.ok.inj h).symm⟩
  · rw [placeMember_holdsFull hfull] at h
    cases h

/-- A drawdown's split is its granted amount, at least 1 and at most what was asked in UP-TO mode (R8, R9). -/
theorem drawdown_total {today asked : Nat} {order : DrawOrder} {x : Split}
    (h : drawdown today c asked purse order true = some x) :
    1 ≤ x.paid + sumLots x.parts ∧ x.paid + sumLots x.parts ≤ asked := by
  obtain ⟨share, -, hg, hne, hpaid, hle, -, -, hparts, -⟩ := drawdown_eq_some h
  have hmin : x.granted ≤ asked := by
    rw [hg, grantedAmount_of_ne (hg ▸ hne)]
    exact Nat.min_le_left ..
  omega

/-! ### What a judged attempt leaves -/

/-- Steps 1 to 7 change the watch entries and the armed lists alone. -/
theorem judge_frame (s : State) (c : Card) (r : Merchant) (amount : Nat) : ∃ watches armed,
    (judge s c r amount).state =
      { s with memory := { s.memory with watches := watches }, armed := armed } := by
  have hwatch : ∀ method result, ∃ watches armed, (judgeWatch s c r amount method result).state =
      { s with memory := { s.memory with watches := watches }, armed := armed } := by
    intro method result
    unfold judgeWatch
    dsimp only
    split
    · exact s.watchAttempt_frame _
    · split <;> exact s.watchAttempt_frame _
  rw [judge_eq]
  dsimp only
  split_ifs
  case neg => exact hwatch _ _
  all_goals exact ⟨s.memory.watches, s.armed, rfl⟩

/-- A judged member's state: the watch, the touch's write-offs and the armed lists alone are changed. -/
theorem judge_touched_frame (s : State) (c0 c : Card) (r : Merchant) (amount : Nat) : ∃ watches funds armed,
    (judge (s.withMemory (s.memory.touch c0).memory) c r amount).state =
      { s with memory := { s.memory with watches := watches, funds := funds }, armed := armed } := by
  obtain ⟨watches, armed, h⟩ := judge_frame (s.withMemory (s.memory.touch c0).memory) c r amount
  exact ⟨watches, _, armed, h⟩

theorem judgeWatch_openHolds (s : State) (c : Card) (r : Merchant) (amount k : Nat) (method : Method)
    (result : Acceptance) :
    judgeWatch s c { r with openHolds := k } amount method result = judgeWatch s c r amount method result := by
  have hw : watchedBy s c { r with openHolds := k } amount = watchedBy s c r amount := rfl
  rw [judgeWatch_eq, judgeWatch_eq, hw]

/-- The count of a merchant's open holds does not bear on an attempt. -/
theorem judge_openHolds (s : State) (c : Card) (r : Merchant) (amount k : Nat) :
    judge s c { r with openHolds := k } amount = judge s c r amount := by
  rw [judge_eq, judge_eq]
  simp only [judgeWatch_openHolds]
  rfl

/-! ### One member (R91) -/

theorem TenderRun.member_skipped (h : p.condition = .whileDue ∧ v.remainder = 0) :
    v.member merchant p = { v with members := v.members ++ [⟨p.card, .skipped, none, none⟩] } := if_pos h

section
variable (hskip : ¬ (p.condition = .whileDue ∧ v.remainder = 0))
  (hf : v.state.memory.findCard p.card = some (slot, c0))
  (hm : v.state.memory.findMerchant merchant = some (index, r))
  (hj : judge (v.state.withMemory (v.state.memory.touch c0).memory) (v.state.memory.touch c0).card r v.remainder = j)
include hskip hf hm hj

theorem TenderRun.member_declined (hv : j.verdict = .declined reason) : v.member merchant p =
    v.record j.state slot j.card (v.state.memory.touch c0).wrote (.declined reason) j 0 := by
  simp only [member, if_neg hskip, hf, hm, hj, hv]

theorem TenderRun.member_referred {entry : Option Nat} (hv : j.verdict = .refer entry) : v.member merchant p =
    v.record j.state slot j.card (v.state.memory.touch c0).wrote (.declined .needsReferral) j 0 := by
  simp only [member, if_neg hskip, hf, hm, hj, hv]

theorem TenderRun.member_unplaced (hv : j.verdict = .proceed)
    (hp : placeMember j.state j.card index r v.remainder p.purse = .error reason) : v.member merchant p =
    v.record j.state slot j.card (v.state.memory.touch c0).wrote (.declined reason) j 0 := by
  simp only [member, if_neg hskip, hf, hm, hj, hv, hp]

theorem TenderRun.member_placed {x : Placed} (hv : j.verdict = .proceed)
    (hp : placeMember j.state j.card index r v.remainder p.purse = .ok x) : v.member merchant p =
    v.record (j.state.withMemory x.memory) slot x.card (v.state.memory.touch c0).wrote
      (.placed x.handle.slot x.record) j x.record.total := by
  simp only [member, if_neg hskip, hf, hm, hj, hv, hp]

end

/-! ### Cards changed in their places -/

/-- A memory whose cards stand in the slots of another's, those of some numbers alone changed. -/
structure RecordMemory.CardsBeside (b : RecordMemory) (numbers : List Nat) (m : RecordMemory) : Prop where
  slots : ∀ number, (m.findCard number).map Prod.fst = (b.findCard number).map Prod.fst
  others : ∀ q, (∀ number ∈ numbers, ∀ e, b.findCard number = some e → e.1 ≠ q) → m.cardAt q = b.cardAt q

theorem RecordMemory.CardsBeside.refl (b : RecordMemory) : b.CardsBeside [] b := ⟨fun _ => rfl, fun _ _ => rfl⟩

theorem RecordMemory.CardsBeside.mono {numbers numbers' : List Nat} (h : b.CardsBeside numbers m)
    (hsub : numbers ⊆ numbers') : b.CardsBeside numbers' m :=
  ⟨h.slots, fun q hq => h.others q fun number hn => hq number (hsub hn)⟩

theorem RecordMemory.CardsBeside.found {numbers : List Nat} (h : b.CardsBeside numbers m)
    (hb : (b.findCard number).isSome = true) : ∃ slot c, m.findCard number = some (slot, c) := by
  have hs := h.slots number
  cases hm : m.findCard number with
  | some e => exact ⟨e.1, e.2, rfl⟩
  | none =>
    rw [hm, Option.map_none, eq_comm, Option.map_eq_none_iff] at hs
    rw [hs] at hb
    cases hb

/-- Every lookup after a found card is written back: the slots found are the same. -/
theorem RecordMemory.findCard_putCard_slot (hf : m.findCard number = some (slot, c)) (hd : d.number = number) (k : Nat) :
    ((m.putCard slot d).findCard k).map Prod.fst = (m.findCard k).map Prod.fst := by
  obtain ⟨hn, hc, -⟩ := RecordMemory.findCard_spec hf
  rw [RecordMemory.findCard_putCard_map hc (hd.trans hn.symm), Option.map_map]
  congr 1
  funext e
  simp only [Function.comp_apply]
  split
  · next he => exact he.symm
  · rfl

theorem RecordMemory.CardsBeside.putCard {numbers : List Nat} (h : b.CardsBeside numbers m)
    (hf : m.findCard number = some (slot, c)) (hd : d.number = number) :
    b.CardsBeside (numbers ++ [number]) (m.putCard slot d) := by
  refine ⟨fun k => (RecordMemory.findCard_putCard_slot hf hd k).trans (h.slots k), fun q hq => ?_⟩
  have hs := h.slots number
  rw [hf, Option.map_some, eq_comm, Option.map_eq_some_iff] at hs
  obtain ⟨e, he, hes⟩ := hs
  have hne : q ≠ slot := fun hqs => hq number (by simp) e he (hes.trans hqs.symm)
  rw [RecordMemory.cardAt_putCard_other _ _ hne]
  exact h.others q fun k hk => hq k (List.mem_append_left _ hk)

/-! ### What a run of members leaves (R91) -/

/-- What a tender may change of a state: the memory and the armed lists, and of the memory these tables. -/
structure State.TenderFrame (t u : State) : Prop where
  state : u = { t with memory := u.memory, armed := u.armed }
  memory : u.memory = { t.memory with
    mainCards := u.memory.mainCards, poolCards := u.memory.poolCards, merchants := u.memory.merchants
    holds := u.memory.holds, watches := u.memory.watches, funds := u.memory.funds }

theorem State.TenderFrame.refl (t : State) : t.TenderFrame t := ⟨rfl, rfl⟩

/-- A tender's frame stands when those tables are written again. -/
theorem State.TenderFrame.write (h : t.TenderFrame s) (mainCards poolCards : Table Card) (merchants : Table Merchant)
    (holds : Table HoldSlot) (watches : Table WatchEntry) (funds : Funds) (armed : Table (List Armed)) :
    t.TenderFrame { s with
      memory := { s.memory with
        mainCards := mainCards, poolCards := poolCards, merchants := merchants, holds := holds, watches := watches
        funds := funds }
      armed := armed } where
  state := congrArg (fun u : State => { u with
    memory := { s.memory with
      mainCards := mainCards, poolCards := poolCards, merchants := merchants, holds := holds, watches := watches
      funds := funds }
    armed := armed }) h.state
  memory := congrArg (fun m : RecordMemory => { m with
    mainCards := mainCards, poolCards := poolCards, merchants := merchants, holds := holds, watches := watches
    funds := funds }) h.memory

theorem State.TenderFrame.today (h : t.TenderFrame s) : s.memory.today = t.memory.today := by rw [h.memory]

theorem State.TenderFrame.clock (h : t.TenderFrame s) : s.memory.clock = t.memory.clock := by rw [h.memory]

theorem State.TenderFrame.product (h : t.TenderFrame s) (i : Nat) : s.memory.product i = t.memory.product i := by
  rw [h.memory]
  rfl

/-- Member holds placed in FREE slots of their own (R92). -/
structure RecordMemory.Holds (b : RecordMemory) (merchant : Nat) (holds : List (Nat × HoldRecord)) (m : RecordMemory) :
    Prop where
  rising : m.holds.rising = true
  free : ∀ n, n ∉ holds.map Prod.fst → m.holdSlot n = b.holdSlot n
  placed : ∀ d ∈ holds, m.holdSlot d.1 = ⟨(b.holdSlot d.1).generation, (b.holdSlot d.1).lastEnd, some d.2⟩
  were : ∀ d ∈ holds, (b.holdSlot d.1).record = none
  merchants : ∀ d ∈ holds, d.2.merchant = merchant
  distinct : (holds.map Prod.fst).Nodup

theorem RecordMemory.Holds.fresh {holds : List (Nat × HoldRecord)} (h : b.Holds merchant holds m)
    (hn : (m.holdSlot n).record = none) : n ∉ holds.map Prod.fst := by
  intro hmem
  obtain ⟨d, hd, rfl⟩ := List.mem_map.mp hmem
  rw [h.placed d hd] at hn
  cases hn

theorem RecordMemory.Holds.congr {holds : List (Nat × HoldRecord)} (h : b.Holds merchant holds m) {m' : RecordMemory}
    (e : m'.holds = m.holds) : b.Holds merchant holds m' := by
  have hs : ∀ k, m'.holdSlot k = m.holdSlot k := fun k => by rw [RecordMemory.holdSlot, e]; rfl
  exact ⟨e ▸ h.rising, fun n hn => (hs n).trans (h.free n hn), fun d hd => (hs d.1).trans (h.placed d hd), h.were,
    h.merchants, h.distinct⟩

/-- One more member hold placed in a FREE slot. -/
theorem RecordMemory.Holds.place {holds : List (Nat × HoldRecord)} (h : b.Holds merchant holds m)
    (hn : (m.holdSlot n).record = none) {x : HoldRecord} (hx : x.merchant = merchant) :
    b.Holds merchant (holds ++ [(n, x)])
      (m.setHoldSlot n ⟨(m.holdSlot n).generation, (m.holdSlot n).lastEnd, some x⟩) := by
  have hfresh := h.fresh hn
  have hb := h.free n hfresh
  have hset := fun k => RecordMemory.holdSlot_setHoldSlot h.rising n k
    ⟨(m.holdSlot n).generation, (m.holdSlot n).lastEnd, some x⟩
  refine ⟨Table.rising_set _ _ _ h.rising, fun k hk => ?_, fun d hd => ?_, fun d hd => ?_, fun d hd => ?_, ?_⟩
  · simp only [List.map_append, List.map_cons, List.map_nil, List.mem_append, List.mem_singleton, not_or] at hk
    rw [hset, if_neg hk.2]
    exact h.free k hk.1
  · rcases List.mem_append.mp hd with hd | hd
    · have hne : d.1 ≠ n := fun e => hfresh (e ▸ List.mem_map_of_mem hd)
      rw [hset, if_neg hne]
      exact h.placed d hd
    · obtain rfl := List.mem_singleton.mp hd
      rw [hset, if_pos rfl, hb]
  · rcases List.mem_append.mp hd with hd | hd
    · exact h.were d hd
    · obtain rfl := List.mem_singleton.mp hd
      exact hb ▸ hn
  · rcases List.mem_append.mp hd with hd | hd
    · exact h.merchants d hd
    · obtain rfl := List.mem_singleton.mp hd
      exact hx
  · rw [List.map_append]
    refine List.nodup_append.mpr ⟨h.distinct, List.nodup_singleton _, fun a ha b hb e => hfresh ?_⟩
    rw [e, List.mem_singleton.mp hb] at ha
    exact ha

/-- A merchant record found under its id, its table in order and the other records as they were. -/
structure RecordMemory.MerchantIs (b : RecordMemory) (merchant index : Nat) (r : Merchant) (m : RecordMemory) :
    Prop where
  rising : m.merchants.rising = true
  found : m.findMerchant merchant = some (index, r)
  others : ∀ i, i ≠ index → m.merchant i = b.merchant i

theorem RecordMemory.MerchantIs.congr (h : b.MerchantIs merchant index r m) {m' : RecordMemory}
    (e : m'.merchants = m.merchants) : b.MerchantIs merchant index r m' :=
  ⟨e ▸ h.rising, by rw [← h.found, RecordMemory.findMerchant, e]; rfl,
    fun i hi => by rw [← h.others i hi, RecordMemory.merchant, e]; rfl⟩

/-- The merchant's record written again. -/
theorem RecordMemory.MerchantIs.set (h : b.MerchantIs merchant index r m) (hs : r'.state = r.state)
    (hid : r'.id = r.id) : b.MerchantIs merchant index r' (m.setMerchant index r') := by
  obtain ⟨hu, hi, -⟩ := RecordMemory.findMerchant_spec h.found
  refine ⟨Table.rising_set _ _ _ h.rising, RecordMemory.findMerchant_setMerchant h.found h.rising ?_ (hid.trans hi),
    fun i hne => ?_⟩
  · rw [Merchant.used, hs]
    exact hu
  · rw [RecordMemory.merchant_setMerchant h.rising, if_neg hne]
    exact h.others i hne

/-- The merchant stands at its index. -/
theorem RecordMemory.MerchantIs.at (h : b.MerchantIs merchant index r m) : m.merchant index = r := by
  obtain ⟨-, -, hm⟩ := RecordMemory.findMerchant_spec h.found
  rw [RecordMemory.merchant, Table.get, Table.find_of_mem h.rising hm]
  rfl

/-- The sum of the held totals of member holds. -/
def placedTotal (holds : List (Nat × HoldRecord)) : Nat := (holds.map fun d => d.2.total).sum

/-- What a run of members has made of the state the tender began in. -/
structure TenderRun.Runs (t : State) (merchant index : Nat) (r : Merchant) (amount : Nat) (numbers : List Nat)
    (v : TenderRun) : Prop where
  frame : t.TenderFrame v.state
  cards : t.memory.CardsBeside numbers v.state.memory
  holds : t.memory.Holds merchant v.holds v.state.memory
  merchant : t.memory.MerchantIs merchant index { r with openHolds := r.openHolds + v.holds.length } v.state.memory
  onCards : ∀ d ∈ v.holds, d.2.card ∈ numbers
  totals : v.remainder + placedTotal v.holds = amount
  distinct : v.changed.Nodup
  changed : v.changed ⊆ numbers
  members : v.members.map MemberRun.card = numbers

theorem TenderRun.Runs.begin (hm : t.memory.findMerchant merchant = some (index, r))
    (hmr : t.memory.merchants.rising = true) (hhr : t.memory.holds.rising = true) :
    TenderRun.Runs t merchant index r amount [] ⟨t, amount, [], [], none, false⟩ where
  frame := .refl t
  cards := .refl _
  holds := ⟨hhr, fun _ _ => rfl, nofun, nofun, nofun, List.nodup_nil⟩
  merchant := ⟨hmr, hm, fun _ _ => rfl⟩
  onCards := nofun
  totals := rfl
  distinct := List.nodup_nil
  changed := List.nil_subset _
  members := rfl

theorem nodup_noteCard {number : Nat} {note : Bool} {cards : List Nat} (h : cards.Nodup) :
    (noteCard number note cards).Nodup := by
  unfold noteCard
  split
  · next hn =>
    rw [Bool.and_eq_true, Bool.not_eq_true', List.contains_eq_mem, decide_eq_false_iff_not] at hn
    exact List.nodup_append.mpr ⟨h, List.nodup_singleton _, fun a ha b hb e =>
      hn.2 (List.mem_singleton.mp hb ▸ e ▸ ha)⟩
  · exact h

theorem noteCard_subset {number : Nat} (note : Bool) {cards all : List Nat} (h : cards ⊆ all) :
    noteCard number note cards ⊆ all ++ [number] := by
  unfold noteCard
  split
  · exact List.append_subset.mpr ⟨List.subset_append_of_subset_left _ h, List.subset_append_right ..⟩
  · exact List.subset_append_of_subset_left _ h

section
variable {cards : List Nat}

/-- A member skipped. -/
theorem TenderRun.Runs.skip (h : TenderRun.Runs t merchant index r amount cards v) (number : Nat) :
    TenderRun.Runs t merchant index r amount (cards ++ [number])
      { v with members := v.members ++ [⟨number, .skipped, none, none⟩] } := by
  have hh : TenderRun.holds { v with members := v.members ++ [⟨number, .skipped, none, none⟩] } = v.holds := by
    simp [TenderRun.holds, List.filterMap_append]
  have hsub : cards ⊆ cards ++ [number] := List.subset_append_left ..
  exact {
    frame := h.frame
    cards := h.cards.mono hsub
    holds := hh ▸ h.holds
    merchant := hh ▸ h.merchant
    onCards := fun d hd => hsub (h.onCards d (hh ▸ hd))
    totals := by rw [hh]; exact h.totals
    distinct := h.distinct
    changed := List.Subset.trans h.changed hsub
    members := by simp [h.members] }

/-- A member judged on its found card and written back, its hold placed or not. -/
theorem TenderRun.Runs.record (h : TenderRun.Runs t merchant index r amount cards v)
    (hf : v.state.memory.findCard number = some (slot, c0)) {z : State} (hframe : t.TenderFrame z)
    (hmain : z.memory.mainCards = v.state.memory.mainCards) (hpool : z.memory.poolCards = v.state.memory.poolCards)
    (hchains : z.memory.chains = v.state.memory.chains) (hc : c.number = number) {wrote : Bool} {result : MemberResult}
    {drawn : Nat} {holds : List (Nat × HoldRecord)}
    (hh : (v.record z slot c wrote result j drawn).holds = v.holds ++ holds)
    (hholds : t.memory.Holds merchant (v.holds ++ holds) z.memory)
    (hmerchant : t.memory.MerchantIs merchant index
      { r with openHolds := r.openHolds + (v.holds ++ holds).length } z.memory)
    (hon : ∀ d ∈ holds, d.2.card = number) (hdrawn : drawn = placedTotal holds) (hle : drawn ≤ v.remainder) :
    TenderRun.Runs t merchant index r amount (cards ++ [number]) (v.record z slot c wrote result j drawn) := by
  have hcardAt : ∀ q, z.memory.cardAt q = v.state.memory.cardAt q := fun q => by
    cases q with
    | main n => exact congrArg (Table.find · n) hmain
    | overflow n => exact congrArg (Table.find · n) hpool
  have hfind : ∀ k, z.memory.findCard k = v.state.memory.findCard k := fun k => by
    unfold RecordMemory.findCard RecordMemory.slotsOf RecordMemory.chain
    simp only [hchains, hcardAt]
  have hput : State.TenderFrame t (z.withMemory (z.memory.putCard slot c)) := by
    cases slot with
    | main n => exact hframe.write (z.memory.mainCards.insert n c) _ _ _ _ _ _
    | overflow n => exact hframe.write _ (z.memory.poolCards.insert n c) _ _ _ _ _
  have hcards : t.memory.CardsBeside cards z.memory :=
    ⟨fun k => by rw [hfind]; exact h.cards.slots k, fun q hq => by rw [hcardAt]; exact h.cards.others q hq⟩
  exact {
    frame := hput
    cards := hcards.putCard ((hfind number).trans hf) hc
    holds := hh ▸ hholds.congr (RecordMemory.putCard_holds ..)
    merchant := hh ▸ hmerchant.congr (RecordMemory.putCard_merchants ..)
    onCards := fun d hd => by
      rw [hh] at hd
      rcases List.mem_append.mp hd with hd | hd
      · exact List.mem_append_left _ (h.onCards d hd)
      · rw [hon d hd]
        simp
    totals := by
      rw [hh, placedTotal, List.map_append, List.sum_append, ← placedTotal, ← placedTotal, ← hdrawn]
      have := h.totals
      change v.remainder - drawn + _ = _
      omega
    distinct := nodup_noteCard h.distinct
    changed := hc ▸ noteCard_subset _ h.changed
    members := by simp [TenderRun.record, h.members, hc] }

/-- A member that is declined leaves its card, the watch and the touch's write-offs alone changed. -/
theorem TenderRun.Runs.decline (h : TenderRun.Runs t merchant index r amount cards v)
    (hf : v.state.memory.findCard number = some (slot, c0)) {watches : Table WatchEntry} {funds : Funds}
    {armed : Table (List Armed)}
    (hz : s = { v.state with memory := { v.state.memory with watches := watches, funds := funds }, armed := armed })
    (hc : c.number = number) (wrote : Bool) (reason : DeclineReason) (j : Judged) :
    TenderRun.Runs t merchant index r amount (cards ++ [number]) (v.record s slot c wrote (.declined reason) j 0) := by
  have hframe := h.frame.write v.state.memory.mainCards v.state.memory.poolCards v.state.memory.merchants
    v.state.memory.holds watches funds armed
  subst hz
  refine h.record hf hframe rfl rfl rfl hc (holds := []) ?_ ?_ ?_ nofun rfl (Nat.zero_le _)
  · rw [TenderRun.holds_record_of_declined, List.append_nil]
  · rw [List.append_nil]
    exact h.holds.congr rfl
  · rw [List.append_nil]
    exact h.merchant.congr rfl

/-- A member whose hold is placed in a FREE slot. -/
theorem TenderRun.Runs.place (h : TenderRun.Runs t merchant index r amount cards v)
    (hf : v.state.memory.findCard number = some (slot, c0)) {watches : Table WatchEntry} {funds : Funds}
    {armed : Table (List Armed)}
    (hz : s = { v.state with memory := { v.state.memory with watches := watches, funds := funds }, armed := armed })
    (hc : c.number = number) {n : Nat} (hn : (s.memory.holdSlot n).record = none) {x : HoldRecord}
    (hx : x.merchant = merchant) (hxc : x.card = number) (hle : x.total ≤ v.remainder) (wrote : Bool) (j : Judged) :
    TenderRun.Runs t merchant index r amount (cards ++ [number])
      (v.record (s.withMemory ((s.memory.setHoldSlot n
          ⟨(s.memory.holdSlot n).generation, (s.memory.holdSlot n).lastEnd, some x⟩).setMerchant index
            { r with openHolds := r.openHolds + v.holds.length + 1 })) slot c wrote (.placed n x) j x.total) := by
  have hframe := h.frame.write v.state.memory.mainCards v.state.memory.poolCards
    (v.state.memory.merchants.set Merchant.unused index { r with openHolds := r.openHolds + v.holds.length + 1 })
    (v.state.memory.holds.set HoldSlot.free n
      ⟨(s.memory.holdSlot n).generation, (s.memory.holdSlot n).lastEnd, some x⟩) watches funds armed
  have hholds : t.memory.Holds merchant v.holds s.memory := h.holds.congr (by rw [hz])
  have hmerchant := h.merchant.congr (m' := s.memory.setHoldSlot n
    ⟨(s.memory.holdSlot n).generation, (s.memory.holdSlot n).lastEnd, some x⟩) (by rw [hz]; rfl)
  refine h.record hf (holds := [(n, x)]) ?_ ?_ ?_ ?_ hc (TenderRun.holds_record_of_placed ..)
    ((hholds.place hn hx).congr rfl) ?_ ?_ ?_ hle
  · subst hz
    exact hframe
  · rw [hz]; rfl
  · rw [hz]; rfl
  · rw [hz]; rfl
  · rw [List.length_append]
    exact hmerchant.set (r' := { r with openHolds := r.openHolds + v.holds.length + 1 }) rfl rfl
  · intro d hd
    rw [List.mem_singleton.mp hd]
    exact hxc
  · exact (Nat.add_zero _).symm

end

end Sys2Proof.Machine
end

section
/-! One member of a tender against the tender's rules, and the run over all of them (R91, R92). -/

namespace Sys2Proof.Machine

variable {t : State} {merchant index amount : Nat} {r : Merchant} {p : Member} {v : TenderRun} {numbers : List Nat}

/-! ### One member by the rules -/

/-- A run with one more member judged on its touched card, which is written back. -/
def TenderRun.judgedAs (v : TenderRun) (p : Member) (slot : Slot) (wrote : Bool) (z : State) (c : Card)
    (result : MemberResult) (method : Option Method) (entry freezer : Option Nat) (clamped : Bool) (drawn : Nat) :
    TenderRun :=
  ⟨z.withMemory (z.memory.putCard slot c), v.remainder - drawn, v.members ++ [⟨p.card, result, method, freezer⟩],
    noteCard p.card (wrote || decide (0 < drawn)) v.changed, lowerEntry v.mark entry, v.clamped || clamped⟩

/-- What step 7 and R80's tests make of a tender at a member that passes steps 1 to 6: declined, or its split placed as a
member hold in the lowest FREE slot. -/
def TenderRun.LateStep (t : State) (merchant index : Nat) (r : Merchant) (p : Member) (v v' : TenderRun) (slot : Slot)
    (c0 : Card) (w : State × List (Nat × WatchAction)) : Prop :=
  let x := v.state.memory.touch c0
  let c := x.card
  let q := t.memory.product c0.product
  let a := acceptance q r v.remainder
  let mark := lowestWith .mark w.2
  let late := fun (c' : Card) (reason : DeclineReason) (freezer : Option Nat) =>
    v' = v.judgedAs p slot x.wrote w.1 c' (.declined reason) (some a.1) mark freezer false 0
  if (lowestWith .freeze w.2).isSome = true then
    late { c with frozen := true } .watchFrozen (lowestWith .freeze w.2)
  else if (lowestWith .refer w.2).isSome = true ∨ a.2 = .refer then late c .needsReferral none
  else if q.holdsPerCard ≤ c.holds.length then late c .holdsFull none
  else if ∀ n, n < 16384 → (v.state.memory.holdSlot n).record ≠ none then late c .poolFull none
  else if v.remainder = 0 then late c .short none
  else
    match drawdown t.memory.today c v.remainder p.purse q.order true with
    | none => late c .short none
    | some d =>
      ∃ n, n < 16384 ∧ (v.state.memory.holdSlot n).record = none ∧
        (∀ j, j < n → (v.state.memory.holdSlot j).record ≠ none) ∧
        let total := d.paid + sumLots d.parts
        let h : HoldRecord := ⟨.tender, p.card, merchant, d.paid, d.parts, t.memory.clock, t.memory.clock, r.period⟩
        let generation := (t.memory.holdSlot n).generation
        let z := w.1.withMemory ((w.1.memory.setHoldSlot n
          ⟨generation, (t.memory.holdSlot n).lastEnd, some h⟩).setMerchant index
            { r with openHolds := r.openHolds + v.holds.length + 1 })
        1 ≤ total ∧ total ≤ v.remainder ∧
        v' = v.judgedAs p slot x.wrote z { c with
            paid := c.paid - d.paid, lots := d.lotsLeft, holds := c.holds ++ [⟨n, generation⟩] }
          (.placed n h) (some a.1) mark none false total

/-- What R91 and R92 make of a tender at one member: skipped, ended by a step of R72, or handed on to step 7. -/
def TenderRun.StepsTo (t : State) (merchant index : Nat) (r : Merchant) (p : Member) (v v' : TenderRun) : Prop :=
  ∃ slot c0, v.state.memory.findCard p.card = some (slot, c0) ∧
    let x := v.state.memory.touch c0
    let c := x.card
    let a := acceptance (t.memory.product c0.product) r v.remainder
    let early := fun (c' : Card) (reason : DeclineReason) (method : Option Method) (clamped : Bool) =>
      v' = v.judgedAs p slot x.wrote (v.state.withMemory x.memory) c' (.declined reason) method none none clamped 0
    if p.condition = .whileDue ∧ v.remainder = 0 then
      v' = { v with members := v.members ++ [⟨p.card, .skipped, none, none⟩] }
    else if c.base = .expired then early c .cardExpired none false
    else if c.frozen = true then early c .cardFrozen none false
    else if c.softLocked = true then early (c.blocked merchant) .cardLocked none (decide (255 ≤ c.blockedCount))
    else if r.state = .suspended then early c .merchantSuspended none false
    else if c.referralOpen = true then early c .cardBusy none false
    else if a.2 = .category then early c .category (some a.1) false
    else TenderRun.LateStep t merchant index r p v v' slot c0 ((v.state.withMemory x.memory).watchAttempt
      ⟨p.card, c0.product, r.category, merchant, v.remainder, t.memory.clock⟩)

section
variable {w : State × List (Nat × WatchAction)} {slot : Slot} {c0 : Card} {method : Method} {result : Acceptance}
  {mark : Option Nat}

/-- A member that the watch hands on to step 8, or declines. -/
inductive WatchedMember (w : State × List (Nat × WatchAction)) (c : Card) (method : Method) (result : Acceptance) :
    Judged → Prop
  | frozen (n : Nat) : lowestWith .freeze w.2 = some n → WatchedMember w c method result
      ⟨w.1, { c with frozen := true }, .declined .watchFrozen, some method, lowestWith .mark w.2, some n, false⟩
  | referred (entry : Option Nat) : lowestWith .freeze w.2 = none →
      ((lowestWith .refer w.2).isSome = true ∨ result = .refer) → WatchedMember w c method result
      ⟨w.1, c, .refer entry, some method, lowestWith .mark w.2, none, false⟩
  | proceeds : lowestWith .freeze w.2 = none → lowestWith .refer w.2 = none → result ≠ .refer →
      WatchedMember w c method result ⟨w.1, c, .proceed, some method, lowestWith .mark w.2, none, false⟩

theorem watchedMember_judgeWatch {s : State} {c : Card} (hw : s.watchAttempt (watchedBy s c r amount) = w) :
    WatchedMember w c method result (judgeWatch s c r amount method result) := by
  rw [judgeWatch_eq, hw]
  dsimp only
  cases hz : lowestWith .freeze w.2 with
  | some n => exact .frozen n hz
  | none =>
    cases hx : lowestWith .refer w.2 with
    | some n => exact .referred (some n) hz (.inl (by rw [hx]; rfl))
    | none =>
      dsimp only
      split
      · next hr => exact .referred none hz (.inr hr)
      · next hr => exact .proceeds hz hx hr

end

section
variable {slot : Slot} {c0 : Card} (hv : TenderRun.Runs t merchant index r amount numbers v)
  (hf : v.state.memory.findCard p.card = some (slot, c0))
include hv hf

/-- A member that passes steps 1 to 6 steps by the rules. -/
theorem TenderRun.Runs.lateStep {w : State × List (Nat × WatchAction)} (hskip : ¬ (p.condition = .whileDue ∧ v.remainder = 0))
    (hj : judge (v.state.withMemory (v.state.memory.touch c0).memory) (v.state.memory.touch c0).card
        { r with openHolds := r.openHolds + v.holds.length } v.remainder =
      judgeWatch (v.state.withMemory (v.state.memory.touch c0).memory) (v.state.memory.touch c0).card
        { r with openHolds := r.openHolds + v.holds.length } v.remainder
        (acceptance (t.memory.product c0.product) r v.remainder).1
        (acceptance (t.memory.product c0.product) r v.remainder).2)
    (hw : (v.state.withMemory (v.state.memory.touch c0).memory).watchAttempt
      ⟨p.card, c0.product, r.category, merchant, v.remainder, t.memory.clock⟩ = w) :
    TenderRun.LateStep t merchant index r p v (v.member merchant p) slot c0 w := by
  have hm := hv.merchant.found
  have hid : r.id = merchant := (RecordMemory.findMerchant_spec hm).2.1
  have hp : Proceeds v.state _ p.card c0 (v.state.memory.touch c0).card := proceeds_watch hf
    ⟨p.card, c0.product, r.category, merchant, v.remainder, t.memory.clock⟩
  have hmember := watchedMember_judgeWatch (method := (acceptance (t.memory.product c0.product) r v.remainder).1)
    (result := (acceptance (t.memory.product c0.product) r v.remainder).2) ((congrArg _
      (watchedBy_touch (amount := v.remainder) hm hf)).trans (hv.frame.clock ▸ hw))
  rw [hw] at hp
  rw [← hj] at hmember
  clear hj
  have hrec : ∀ {z : State} {c' : Card} {result : MemberResult} {j : Judged} {drawn : Nat}, c'.number = p.card →
      v.record z slot c' (v.state.memory.touch c0).wrote result j drawn =
        v.judgedAs p slot (v.state.memory.touch c0).wrote z c' result j.method j.mark j.freezer j.clamped drawn :=
    fun hc => by simp only [TenderRun.record, TenderRun.judgedAs, hc]
  generalize hj : judge (v.state.withMemory (v.state.memory.touch c0).memory) (v.state.memory.touch c0).card
    { r with openHolds := r.openHolds + v.holds.length } v.remainder = j at hmember
  unfold TenderRun.LateStep
  dsimp only
  cases hmember with
  | frozen n hz =>
    rw [hz, if_pos Option.isSome_some]
    exact (TenderRun.member_declined hskip hf hm hj rfl).trans (hrec hp.number)
  | referred entry hz hx =>
    rw [hz, if_neg (by simp), if_pos hx]
    exact (TenderRun.member_referred hskip hf hm hj rfl).trans (hrec hp.number)
  | proceeds hz hx hr =>
    have unplaced := fun {reason} h => (TenderRun.member_unplaced (reason := reason) hskip hf hm hj rfl h).trans
      (hrec hp.number)
    have hq := hp.product.trans (hv.frame.product c0.product)
    rw [hz, hx, if_neg (by simp), if_neg (by simpa using hr)]
    by_cases hfull : (t.memory.product c0.product).holdsPerCard ≤ (v.state.memory.touch c0).card.holds.length
    · rw [if_pos hfull]
      exact unplaced (placeMember_holdsFull (by rw [hq]; exact hfull))
    rw [if_neg hfull]
    have hroom : (v.state.memory.touch c0).card.holds.length <
        (w.1.memory.product (v.state.memory.touch c0).card.product).holdsPerCard := by
      rw [hq]
      exact Nat.not_le.mp hfull
    have hfree : w.1.memory.freeHoldSlot = v.state.memory.freeHoldSlot := by
      simp only [RecordMemory.freeHoldSlot, hp.holdSlot]
    cases hn : v.state.memory.freeHoldSlot with
    | none =>
      rw [if_pos (RecordMemory.freeHoldSlot_eq_none.mp hn)]
      exact unplaced (placeMember_poolFull hroom (hfree.trans hn))
    | some n =>
    have ⟨hlt, hnone, hlow⟩ := RecordMemory.freeHoldSlot_eq_some.mp hn
    have hsome : ¬ ∀ n, n < 16384 → (v.state.memory.holdSlot n).record ≠ none := fun hpool => hpool n hlt hnone
    rw [if_neg hsome]
    by_cases h0 : v.remainder = 0
    · rw [if_pos h0]
      exact unplaced (placeMember_short hroom (hfree.trans hn) (.inl h0))
    have hdraw : drawdown w.1.memory.today (v.state.memory.touch c0).card v.remainder p.purse
        (w.1.memory.product (v.state.memory.touch c0).card.product).order true =
      drawdown t.memory.today (v.state.memory.touch c0).card v.remainder p.purse
        (t.memory.product c0.product).order true := by rw [hq, hp.today, hv.frame.today]
    rw [if_neg h0]
    cases hd : drawdown t.memory.today (v.state.memory.touch c0).card v.remainder p.purse
      (t.memory.product c0.product).order true with
    | none => exact unplaced (placeMember_short hroom (hfree.trans hn) (.inr (hdraw.trans hd)))
    | some d =>
      obtain ⟨h1, h2⟩ := drawdown_total hd
      refine ⟨n, hlt, hnone, hlow, h1, h2, ?_⟩
      refine (TenderRun.member_placed hskip hf hm hj rfl
        ((placeMember_eq_place h0).trans (RecordMemory.place_ok hroom (hfree.trans hn) (hdraw.trans hd)))).trans
        ((hrec (by exact hp.number)).trans ?_)
      simp only [hp.clock, hv.frame.clock, hp.holdSlot, hv.holds.free n (hv.holds.fresh hnone), hp.number, hid]
      rfl

/-- A member steps by the rules. -/
theorem TenderRun.Runs.stepsTo : TenderRun.StepsTo t merchant index r p v (v.member merchant p) := by
  have hm := hv.merchant.found
  refine ⟨slot, c0, hf, ?_⟩
  intro x c a early
  have hnum : c.number = p.card := (v.state.memory.touch_number c0).trans (RecordMemory.findCard_spec hf).1
  have hid : r.id = merchant := (RecordMemory.findMerchant_spec hm).2.1
  by_cases hskip : p.condition = .whileDue ∧ v.remainder = 0
  · rw [if_pos hskip]
    exact TenderRun.member_skipped hskip
  rw [if_neg hskip]
  have hj := judge_eq (v.state.withMemory x.memory) c r v.remainder
  rw [State.withMemory_memory, product_touch, hv.frame.product, hid,
    ← judge_openHolds _ _ _ _ (r.openHolds + v.holds.length)] at hj
  dsimp only at hj
  have hearly : ∀ {c' reason method clamped}, c'.number = p.card →
      judge (v.state.withMemory x.memory) c { r with openHolds := r.openHolds + v.holds.length } v.remainder =
        .early (v.state.withMemory x.memory) c' reason method clamped → early c' reason method clamped :=
    fun {c' reason method clamped} hc' hj => by
      refine (TenderRun.member_declined hskip hf hm hj rfl).trans ?_
      simp only [TenderRun.record, TenderRun.judgedAs, Judged.early, hc']
      rfl
  split_ifs at hj ⊢
  iterate 6 exact hearly hnum hj
  generalize hw : (v.state.withMemory x.memory).watchAttempt _ = w
  exact hv.lateStep hf hskip (hj.trans (judgeWatch_openHolds ..).symm) hw

/-- One more member judged (R91). -/
theorem TenderRun.Runs.member : TenderRun.Runs t merchant index r amount (numbers ++ [p.card]) (v.member merchant p) := by
  have hm := hv.merchant.found
  by_cases hskip : p.condition = .whileDue ∧ v.remainder = 0
  · rw [TenderRun.member_skipped hskip]
    exact hv.skip p.card
  generalize hj : judge (v.state.withMemory (v.state.memory.touch c0).memory) (v.state.memory.touch c0).card
    { r with openHolds := r.openHolds + v.holds.length } v.remainder = j
  obtain ⟨watches, funds, armed, hz⟩ := judge_touched_frame v.state c0 (v.state.memory.touch c0).card
    { r with openHolds := r.openHolds + v.holds.length } v.remainder
  have hnum := (judge_card (v.state.withMemory (v.state.memory.touch c0).memory) (v.state.memory.touch c0).card
    { r with openHolds := r.openHolds + v.holds.length } v.remainder).1.number
  rw [hj] at hz hnum
  have hnum : j.card.number = p.card :=
    hnum.trans ((v.state.memory.touch_number c0).trans (RecordMemory.findCard_spec hf).1)
  cases hverdict : j.verdict with
  | declined reason =>
    rw [TenderRun.member_declined hskip hf hm hj hverdict]
    exact hv.decline hf hz hnum ..
  | refer entry =>
    rw [TenderRun.member_referred hskip hf hm hj hverdict]
    exact hv.decline hf hz hnum ..
  | proceed =>
    cases hplace : placeMember j.state j.card index { r with openHolds := r.openHolds + v.holds.length } v.remainder
      p.purse with
    | error reason =>
      rw [TenderRun.member_unplaced hskip hf hm hj hverdict hplace]
      exact hv.decline hf hz hnum ..
    | ok x =>
      obtain ⟨n, d, hn, hd, hx⟩ := placeMember_eq_ok hplace
      rw [TenderRun.member_placed hskip hf hm hj hverdict hplace, hx]
      obtain ⟨-, hnone, -⟩ := RecordMemory.freeHoldSlot_eq_some.mp hn
      obtain ⟨-, hid, -⟩ := RecordMemory.findMerchant_spec hm
      dsimp only
      exact hv.place hf hz (by exact hnum) hnone (by exact hid) (by exact hnum) (by exact (drawdown_total hd).2) ..

end

/-! ### The run over all members -/

/-- The tender when its first k members are judged. -/
def tenderRun (t : State) (merchant amount : Nat) (ps : List Member) (k : Nat) : TenderRun :=
  (ps.take k).foldl (TenderRun.member merchant) ⟨t, amount, [], [], none, false⟩

theorem tenderRun_succ {ps : List Member} {k : Nat} (h : ps[k]? = some p) :
    tenderRun t merchant amount ps (k + 1) = (tenderRun t merchant amount ps k).member merchant p := by
  unfold tenderRun
  rw [List.take_add_one, h, List.foldl_append]
  rfl

theorem tenderRun_all (ps : List Member) : tenderRun t merchant amount ps ps.length =
    ps.foldl (TenderRun.member merchant) ⟨t, amount, [], [], none, false⟩ := by
  rw [tenderRun, List.take_length]

theorem tenderRun_runs (hm : t.memory.findMerchant merchant = some (index, r))
    (hmr : t.memory.merchants.rising = true) (hhr : t.memory.holds.rising = true) {ps : List Member}
    (hps : ∀ p ∈ ps, (t.memory.findCard p.card).isSome = true) (k : Nat) :
    TenderRun.Runs t merchant index r amount ((ps.take k).map Member.card) (tenderRun t merchant amount ps k) := by
  induction k with
  | zero => exact .begin hm hmr hhr
  | succ k ih =>
    cases hk : ps[k]? with
    | none =>
      have hle : ps.length ≤ k := List.getElem?_eq_none_iff.mp hk
      unfold tenderRun at ih ⊢
      rw [List.take_of_length_le hle] at ih
      rw [List.take_of_length_le (Nat.le_succ_of_le hle)]
      exact ih
    | some p =>
      obtain ⟨slot, c0, hf⟩ := ih.cards.found (hps p (List.mem_of_getElem? hk))
      rw [tenderRun_succ hk, List.take_add_one, hk, List.map_append]
      exact ih.member hf

/-- Every member steps by the rules. -/
theorem tenderRun_stepsTo (hm : t.memory.findMerchant merchant = some (index, r))
    (hmr : t.memory.merchants.rising = true) (hhr : t.memory.holds.rising = true) {ps : List Member}
    (hps : ∀ p ∈ ps, (t.memory.findCard p.card).isSome = true) {k : Nat} (hk : ps[k]? = some p) :
    TenderRun.StepsTo t merchant index r p (tenderRun t merchant amount ps k)
      (tenderRun t merchant amount ps (k + 1)) := by
  have hv := tenderRun_runs (amount := amount) hm hmr hhr hps k
  obtain ⟨slot, c0, hf⟩ := hv.cards.found (hps p (List.mem_of_getElem? hk))
  rw [tenderRun_succ hk]
  exact hv.stepsTo hf

end Sys2Proof.Machine
end

section
/-! The settlement of a tender (R93): its member holds captured or given back, one at a time, and the bookkeeping of each
changed card. -/

namespace Sys2Proof.Machine

variable {m b : RecordMemory} {number merchant index n today : Nat} {r : Merchant} {slot : Slot} {c d : Card}
  {whole : Bool} {numbers : List Nat} {x : Nat × HoldRecord} {done : List (Nat × HoldRecord)}

/-! ### Folds, and lookups after a card is written -/

/-- What holds before the first element of a list and is handed on by each one holds of the whole list. -/
theorem foldl_induction {α β : Type} {P : List α → β → Prop} {f : β → α → β} {l : List α} {b : β} (h0 : P [] b)
    (hs : ∀ before a after b, l = before ++ a :: after → P before b → P (before ++ [a]) (f b a)) :
    P l (l.foldl f b) := by
  suffices go : ∀ after before b, l = before ++ after → P before b → P l (after.foldl f b) from go l [] b rfl h0
  intro after
  induction after with
  | nil =>
    intro before b hl hp
    rw [List.append_nil] at hl
    exact hl ▸ hp
  | cons a after ih =>
    intro before b hl hp
    exact ih (before ++ [a]) (f b a) (by rw [hl, List.append_assoc]; rfl) (hs before a after b hl hp)

/-- Every lookup after a found card is written back under its own number. -/
theorem RecordMemory.findCard_putCard_eq (hf : m.findCard number = some (slot, c)) (hd : d.number = number) (k : Nat) :
    (m.putCard slot d).findCard k = if k = number then some (slot, d) else m.findCard k := by
  obtain ⟨hn, hc, -⟩ := RecordMemory.findCard_spec hf
  split
  · next hk =>
    rw [hk]
    exact RecordMemory.findCard_putCard hf hd
  · next hk =>
    rw [RecordMemory.findCard_putCard_map hc (hd.trans hn.symm)]
    cases hfk : m.findCard k with
    | none => rfl
    | some e =>
      obtain ⟨hek, hec, -⟩ := RecordMemory.findCard_spec (slot := e.1) (c := e.2) hfk
      have hne : e.1 ≠ slot := fun he => by
        rw [he, hc] at hec
        exact hk (hek.symm.trans ((congrArg Card.number (Option.some.inj hec)).symm.trans hn))
      rw [Option.map_some, if_neg hne]

/-! ### One member hold settled -/

/-- One step of the settlement: a member hold captured in full, or given back; the flag gathers whether a part joined a
lot. -/
def settleMember (whole : Bool) (merchant : Nat) (acc : RecordMemory × Bool) (x : Nat × HoldRecord) :
    RecordMemory × Bool :=
  if whole = true then (captureMember merchant acc.1 x.1 x.2, acc.2)
  else
    let r := releaseMember acc.1 x.1 x.2
    (r.1, acc.2 || r.2)

/-- A card with a member hold of generation g taken off it: the value kept by the merchant, or given back (R93). -/
def Card.settled (whole : Bool) (today g : Nat) (c : Card) (x : Nat × HoldRecord) : Card :=
  { c with
    paid := if whole = true then c.paid else c.paid + x.2.paid
    lots := if whole = true then c.lots else (placeParts today c.lots x.2.parts).1
    holds := c.holds.erase ⟨x.1, g⟩ }

/-- The merchant of a member hold once it is settled (R78, R93, R148). -/
def Merchant.settled (whole : Bool) (r : Merchant) (x : Nat × HoldRecord) : Merchant :=
  { r with
    position := if whole = true then (r.accrued x.2.total x.2.parts).position else r.position
    openHolds := r.openHolds - 1 }

/-- The fund totals once a member hold is settled with its card's lots (R22, R24). -/
def Funds.settled (whole : Bool) (today : Nat) (f : Funds) (lots : List Lot) (x : Nat × HoldRecord) : Funds :=
  if whole = true then f.spend x.2.paid x.2.parts
  else (placeParts today lots x.2.parts).2.foldl Funds.returnPart f

/-- All that settling one member hold writes. -/
theorem settleMember_eq {g : Nat} {last : Option LastEnd} (htoday : m.today = today)
    (hn : m.holdSlot x.1 = ⟨g, last, some x.2⟩)
    (hx : x.2.merchant = merchant) (hm : m.findMerchant merchant = some (index, r)) (hr : m.merchants.rising = true)
    (hf : m.findCard x.2.card = some (slot, c)) (flag : Bool) :
    settleMember whole merchant (m, flag) x =
      (((({ m with funds := m.funds.settled whole today c.lots x } : RecordMemory).setHoldSlot x.1
          (endedSlot g merchant .settled)).setMerchant index (r.settled whole x)).putCard slot
            (c.settled whole today g x),
        if whole = true then flag
        else flag || anyJoined (placeParts today c.lots x.2.parts).2) := by
  subst hx htoday
  cases whole with
  | true =>
    have hpay := RecordMemory.payMerchant_freeHold hn hm hr x.2.paid x.2.parts .settled
    simp only [settleMember, captureMember, hm, hf, hpay, hn, if_true]
    rfl
  | false =>
    have hfree := RecordMemory.freeHold_eq (m := { m with funds := m.funds.settled false m.today c.lots x })
      (cause := .settled) hn hm
    simp only [Funds.settled, Bool.false_eq_true, if_false] at hfree ⊢
    simp only [settleMember, releaseMember, hf, RecordMemory.returnValue, hfree, hn, Bool.false_eq_true, if_false]
    rfl

/-! ### Several member holds settled -/

/-- The holds of one card. -/
def holdsOf (number : Nat) (holds : List (Nat × HoldRecord)) : List (Nat × HoldRecord) :=
  holds.filter fun x => decide (x.2.card = number)

theorem holdsOf_snoc (number : Nat) (done : List (Nat × HoldRecord)) (x : Nat × HoldRecord) :
    holdsOf number (done ++ [x]) = holdsOf number done ++ if x.2.card = number then [x] else [] := by
  by_cases h : x.2.card = number <;> simp [holdsOf, List.filter_append, h]

/-- The fates of the parts given back to a card by its holds, in their order (R15). -/
abbrev partsBack (today : Nat) (lots : List Lot) (holds : List (Nat × HoldRecord)) : List Lot × List (Lot × PartFate) :=
  placeParts today lots (holds.flatMap fun x => x.2.parts)

/-- A card with several member holds taken off it. -/
def Card.settledAll (whole : Bool) (today : Nat) (g : Nat → Nat) (c : Card) (holds : List (Nat × HoldRecord)) : Card :=
  { c with
    paid := if whole = true then c.paid else c.paid + (holds.map fun x => x.2.paid).sum
    lots := if whole = true then c.lots else (partsBack today c.lots holds).1
    holds := holds.foldl (fun l x => l.erase ⟨x.1, g x.1⟩) c.holds }

theorem Card.settledAll_nil (whole : Bool) (today : Nat) (g : Nat → Nat) (c : Card) :
    c.settledAll whole today g [] = c := by
  cases whole <;> rfl

theorem partsBack_snoc (today : Nat) (lots : List Lot) (done : List (Nat × HoldRecord)) (x : Nat × HoldRecord) :
    partsBack today lots (done ++ [x]) =
      ((placeParts today (partsBack today lots done).1 x.2.parts).1,
        (partsBack today lots done).2 ++ (placeParts today (partsBack today lots done).1 x.2.parts).2) := by
  rw [partsBack, List.flatMap_append, placeParts_append, List.flatMap_singleton]

theorem Card.settledAll_snoc (whole : Bool) (today : Nat) (g : Nat → Nat) (c : Card) (done : List (Nat × HoldRecord))
    (x : Nat × HoldRecord) : c.settledAll whole today g (done ++ [x]) =
      (c.settledAll whole today g done).settled whole today (g x.1) x := by
  cases whole with
  | true => simp [settledAll, settled]
  | false =>
    simp only [settledAll, settled, partsBack_snoc, List.map_append, List.sum_append, List.foldl_append,
      Bool.false_eq_true, if_false, Nat.add_assoc]
    rfl

/-- The merchant with several member holds settled. -/
def Merchant.settledAll (whole : Bool) (r : Merchant) (holds : List (Nat × HoldRecord)) : Merchant :=
  { r with
    position := if whole = true then { r.position with
        gross := r.position.gross + (placedTotal holds : Int)
        items := r.position.items + (holds.length : Int)
        drawn := holds.foldl (fun v x => drawParts v x.2.parts) r.position.drawn } else r.position
    openHolds := r.openHolds - holds.length }

theorem placedTotal_snoc (done : List (Nat × HoldRecord)) (x : Nat × HoldRecord) :
    placedTotal (done ++ [x]) = placedTotal done + x.2.total := by
  simp [placedTotal]

theorem Merchant.settledAll_nil (whole : Bool) (r : Merchant) : r.settledAll whole [] = r := by
  cases whole
  · rfl
  · simp [settledAll, placedTotal]

theorem Merchant.settledAll_snoc (whole : Bool) (r : Merchant) (done : List (Nat × HoldRecord)) (x : Nat × HoldRecord) :
    r.settledAll whole (done ++ [x]) = (r.settledAll whole done).settled whole x := by
  cases whole with
  | true =>
    simp only [settledAll, settled, accrued, placedTotal_snoc, List.length_append, List.length_singleton,
      List.foldl_append, List.foldl_cons, List.foldl_nil, if_true, Nat.sub_add_eq, Nat.cast_add, Nat.cast_one, add_assoc]
  | false =>
    simp only [settledAll, settled, List.length_append, List.length_singleton, Bool.false_eq_true, if_false,
      Nat.sub_add_eq]

/-- Some part that came back to one of the cards joined a lot. -/
def SomeJoined (b : RecordMemory) (today : Nat) (numbers : List Nat) (holds : List (Nat × HoldRecord)) : Prop :=
  ∃ number ∈ numbers, ∃ e, b.findCard number = some e ∧
    ∃ f ∈ (partsBack today e.2.lots (holdsOf number holds)).2, f.2 ≠ .writtenOff

/-- Every part that came back to one of the cards joined a lot. -/
def AllJoined (b : RecordMemory) (today : Nat) (numbers : List Nat) (holds : List (Nat × HoldRecord)) : Prop :=
  ∀ number ∈ numbers, ∀ e, b.findCard number = some e →
    ∀ f ∈ (partsBack today e.2.lots (holdsOf number holds)).2, f.2 ≠ .writtenOff

/-- A memory that differs from another in its cards, merchants, holds and fund totals alone. -/
structure RecordMemory.SettledFrom (b m : RecordMemory) : Prop where
  memory : m = { b with
    mainCards := m.mainCards, poolCards := m.poolCards, merchants := m.merchants, holds := m.holds, funds := m.funds }

/-- That frame stands when those tables are written again. -/
theorem RecordMemory.SettledFrom.write (h : b.SettledFrom m) (mainCards poolCards : Table Card)
    (merchants : Table Merchant) (holds : Table HoldSlot) (funds : Funds) : b.SettledFrom { m with
      mainCards := mainCards, poolCards := poolCards, merchants := merchants, holds := holds, funds := funds } :=
  ⟨congrArg (fun k : RecordMemory => { k with
    mainCards := mainCards, poolCards := poolCards, merchants := merchants, holds := holds, funds := funds }) h.memory⟩

theorem RecordMemory.SettledFrom.putCard (h : b.SettledFrom m) (slot : Slot) (c : Card) :
    b.SettledFrom (m.putCard slot c) := by
  cases slot with
  | main n => exact h.write (m.mainCards.insert n c) m.poolCards m.merchants m.holds m.funds
  | overflow n => exact h.write m.mainCards (m.poolCards.insert n c) m.merchants m.holds m.funds

/-- What settling some member holds has made of the memory in which the run of the members ended. -/
structure RecordMemory.Settles (b : RecordMemory) (merchant index : Nat) (r : Merchant) (whole : Bool)
    (numbers : List Nat) (done : List (Nat × HoldRecord)) (acc : RecordMemory × Bool) : Prop where
  frame : b.SettledFrom acc.1
  beside : b.CardsBeside numbers acc.1
  card : ∀ number slot c, b.findCard number = some (slot, c) → acc.1.findCard number =
    some (slot, c.settledAll whole b.today (fun n => (b.holdSlot n).generation) (holdsOf number done))
  rising : acc.1.holds.rising = true
  slots : ∀ n, acc.1.holdSlot n =
    if n ∈ done.map Prod.fst then endedSlot (b.holdSlot n).generation merchant .settled else b.holdSlot n
  merchant : b.MerchantIs merchant index (r.settledAll whole done) acc.1
  spent : whole = true → acc.1.funds = done.foldl (fun f x => f.spend x.2.paid x.2.parts) b.funds
  kept : whole = false → AllJoined b b.today numbers done → acc.1.funds = b.funds
  bonus : whole = false → (acc.2 = true ↔ SomeJoined b b.today numbers done)

theorem RecordMemory.Settles.begin (hr : b.holds.rising = true) (hm : b.MerchantIs merchant index r b) :
    b.Settles merchant index r whole numbers [] (b, false) where
  frame := ⟨rfl⟩
  beside := ⟨fun _ => rfl, fun _ _ => rfl⟩
  card number slot c hf := by rw [holdsOf, List.filter_nil, Card.settledAll_nil]; exact hf
  rising := hr
  slots _ := (if_neg List.not_mem_nil).symm
  merchant := by rw [Merchant.settledAll_nil]; exact hm
  spent _ := rfl
  kept _ _ := rfl
  bonus _ := ⟨nofun, fun ⟨_, _, _, _, _, hf, _⟩ => nomatch hf⟩

/-- Joined parts leave the fund totals alone (R24). -/
theorem foldl_returnPart_joined {fates : List (Lot × PartFate)} (h : ∀ f ∈ fates, f.2 ≠ .writtenOff) (funds : Funds) :
    fates.foldl Funds.returnPart funds = funds := by
  induction fates with
  | nil => rfl
  | cons f fates ih =>
    have hf : funds.returnPart f = funds := by
      unfold Funds.returnPart
      split
      · rfl
      · next hw => exact absurd hw (h f List.mem_cons_self)
    rw [List.foldl_cons, hf]
    exact ih fun g hg => h g (List.mem_cons_of_mem _ hg)

/-- What one more hold given back adds to the fates of its card's parts. -/
theorem partsBack_holdsOf_snoc (number : Nat) (lots : List Lot) (done : List (Nat × HoldRecord)) (x : Nat × HoldRecord) :
    (partsBack today lots (holdsOf number (done ++ [x]))).2 = (partsBack today lots (holdsOf number done)).2 ++
      if x.2.card = number then (placeParts today (partsBack today lots (holdsOf number done)).1 x.2.parts).2 else [] := by
  rw [holdsOf_snoc]
  split
  · rw [partsBack_snoc]
  · rw [List.append_nil, List.append_nil]

theorem someJoined_snoc {e : Slot × Card} (hx : x.2.card ∈ numbers) (he : b.findCard x.2.card = some e) :
    SomeJoined b today numbers (done ++ [x]) ↔ SomeJoined b today numbers done ∨
      ∃ f ∈ (placeParts today (partsBack today e.2.lots (holdsOf x.2.card done)).1 x.2.parts).2, f.2 ≠ .writtenOff := by
  unfold SomeJoined
  simp only [partsBack_holdsOf_snoc, List.mem_append]
  constructor
  · rintro ⟨k, hk, e', he', f, hf | hf, hw⟩
    · exact .inl ⟨k, hk, e', he', f, hf, hw⟩
    · split at hf
      · next hxk =>
        subst hxk
        obtain rfl : e = e' := Option.some.inj (he.symm.trans he')
        exact .inr ⟨f, hf, hw⟩
      · cases hf
  · rintro (⟨k, hk, e', he', f, hf, hw⟩ | ⟨f, hf, hw⟩)
    · exact ⟨k, hk, e', he', f, .inl hf, hw⟩
    · exact ⟨x.2.card, hx, e, he, f, .inr (by rw [if_pos rfl]; exact hf), hw⟩

theorem allJoined_snoc {e : Slot × Card} (hx : x.2.card ∈ numbers) (he : b.findCard x.2.card = some e)
    (h : AllJoined b today numbers (done ++ [x])) : AllJoined b today numbers done ∧
      ∀ f ∈ (placeParts today (partsBack today e.2.lots (holdsOf x.2.card done)).1 x.2.parts).2, f.2 ≠ .writtenOff := by
  unfold AllJoined at h ⊢
  simp only [partsBack_holdsOf_snoc, List.mem_append] at h
  exact ⟨fun k hk e' he' f hf => h k hk e' he' f (.inl hf),
    fun f hf => h x.2.card hx e he f (.inr (by rw [if_pos rfl]; exact hf))⟩

/-- One more member hold settled. -/
theorem RecordMemory.Settles.step {acc : RecordMemory × Bool}
    (h : b.Settles merchant index r whole numbers done acc) {last : Option LastEnd}
    (hn : b.holdSlot x.1 = ⟨(b.holdSlot x.1).generation, last, some x.2⟩) (hfresh : x.1 ∉ done.map Prod.fst)
    (hx : x.2.merchant = merchant) (hxc : x.2.card ∈ numbers) (hfound : (b.findCard x.2.card).isSome = true) :
    b.Settles merchant index r whole numbers (done ++ [x]) (settleMember whole merchant acc x) := by
  obtain ⟨⟨slot, c⟩, hf⟩ := Option.isSome_iff_exists.mp hfound
  obtain ⟨m, flag⟩ := acc
  have htoday : m.today = b.today := (congrArg RecordMemory.today h.frame.memory).trans rfl
  have hcard := h.card _ _ _ hf
  have hslot : m.holdSlot x.1 = ⟨(b.holdSlot x.1).generation, last, some x.2⟩ :=
    ((h.slots x.1).trans (if_neg hfresh)).trans hn
  have hnum : (c.settledAll whole b.today (fun n => (b.holdSlot n).generation) (holdsOf x.2.card done)).number =
      x.2.card := (RecordMemory.findCard_spec hf).1
  rw [settleMember_eq htoday hslot hx h.merchant.found h.merchant.rising hcard]
  generalize hd : (c.settledAll whole b.today (fun n => (b.holdSlot n).generation) (holdsOf x.2.card done)) = d at *
  have hlots : whole = false → d.lots = (partsBack b.today c.lots (holdsOf x.2.card done)).1 := by
    rintro rfl
    rw [← hd]
    rfl
  generalize hm' : (({ m with funds := m.funds.settled whole b.today d.lots x } : RecordMemory).setHoldSlot x.1
    (endedSlot (b.holdSlot x.1).generation merchant .settled)).setMerchant index
      ((r.settledAll whole done).settled whole x) = m'
  have hfind : m'.findCard x.2.card = some (slot, d) := by rw [← hm']; exact hcard
  have hsame : ∀ k, m'.findCard k = m.findCard k := fun k => by rw [← hm']; rfl
  have hd' : (d.settled whole b.today (b.holdSlot x.1).generation x).number = x.2.card := hnum
  have hfunds : (m'.putCard slot (d.settled whole b.today (b.holdSlot x.1).generation x)).funds =
      m.funds.settled whole b.today d.lots x := by rw [RecordMemory.putCard_funds, ← hm']; rfl
  refine ⟨?_, ?_, fun k y e he => ?_, ?_, fun k => ?_, ?_, fun hw => ?_, fun hw hall => ?_, fun hw => ?_⟩
  · refine RecordMemory.SettledFrom.putCard ?_ _ _
    rw [← hm']
    exact h.frame.write m.mainCards m.poolCards _ _ _
  · have hb : b.CardsBeside numbers m' := ⟨fun k => (congrArg _ (hsame k)).trans (h.beside.slots k), fun q hq => by
      rw [← h.beside.others q hq, ← hm']
      cases q <;> rfl⟩
    exact (hb.putCard hfind hd').mono fun k hk => (List.mem_append.mp hk).elim id fun hk =>
      List.mem_singleton.mp hk ▸ hxc
  · rw [RecordMemory.findCard_putCard_eq hfind hd', hsame, h.card k y e he, holdsOf_snoc]
    split
    · next hk =>
      subst hk
      obtain ⟨rfl, rfl⟩ : slot = y ∧ c = e := by simpa using hf.symm.trans he
      rw [if_pos rfl, Card.settledAll_snoc, hd]
    · next hk => rw [if_neg (Ne.symm hk), List.append_nil]
  · rw [RecordMemory.putCard_holds, ← hm']
    exact Table.rising_set _ _ _ h.rising
  · rw [RecordMemory.holdSlot_putCard, ← hm']
    refine (RecordMemory.holdSlot_setHoldSlot (m := m) h.rising x.1 k _).trans ?_
    rw [h.slots k, List.map_append, List.map_singleton]
    by_cases hk : k = x.1
    · rw [if_pos hk, if_pos (by simp [hk]), hk]
    · simp only [hk, if_false, List.mem_append, List.mem_singleton, or_false]
  · refine RecordMemory.MerchantIs.congr ?_ (RecordMemory.putCard_merchants ..)
    rw [← hm', Merchant.settledAll_snoc]
    exact (h.merchant.congr (m' := ({ m with funds := m.funds.settled whole b.today d.lots x } :
      RecordMemory).setHoldSlot x.1 (endedSlot (b.holdSlot x.1).generation merchant .settled)) rfl).set rfl rfl
  · rw [hfunds, Funds.settled, if_pos hw, h.spent hw, List.foldl_append]
    rfl
  · obtain ⟨hold, hnew⟩ := allJoined_snoc hxc hf hall
    rw [hfunds, Funds.settled, if_neg (by rw [hw]; nofun), hlots hw, foldl_returnPart_joined hnew]
    exact h.kept hw hold
  · rw [if_neg (by rw [hw]; nofun), Bool.or_eq_true, h.bonus hw, someJoined_snoc hxc hf, anyJoined_eq,
      decide_eq_true_eq, hlots hw]

/-- All member holds settled. -/
theorem RecordMemory.Holds.settle {holds : List (Nat × HoldRecord)} {a : RecordMemory}
    (h : a.Holds merchant holds b) (hm : b.MerchantIs merchant index r b) (hon : ∀ x ∈ holds, x.2.card ∈ numbers)
    (hfound : ∀ number ∈ numbers, (b.findCard number).isSome = true) :
    b.Settles merchant index r whole numbers holds (holds.foldl (settleMember whole merchant) (b, false)) := by
  refine foldl_induction (P := b.Settles merchant index r whole numbers) (.begin h.rising hm)
    fun before x after acc hl hacc => ?_
  have hmem : x ∈ holds := by rw [hl]; simp
  have hfresh : x.1 ∉ before.map Prod.fst := by
    have hnodup := h.distinct
    rw [hl, List.map_append, List.map_cons] at hnodup
    exact fun hx => (List.nodup_append.mp hnodup).2.2 _ hx _ List.mem_cons_self rfl
  refine hacc.step (last := (a.holdSlot x.1).lastEnd) ?_ hfresh (h.merchants x hmem) (hon x hmem)
    (hfound _ (hon x hmem))
  rw [h.placed x hmem]

theorem settleMember_captures (merchant : Nat) (holds : List (Nat × HoldRecord)) (m : RecordMemory) (flag : Bool) :
    (holds.foldl (settleMember true merchant) (m, flag)).1 =
      holds.foldl (fun m x => captureMember merchant m x.1 x.2) m := by
  induction holds generalizing m with
  | nil => rfl
  | cons x holds ih => exact ih _

/-! ### The bookkeeping of the changed cards (R29, R30, R93) -/

/-- What the bookkeeping of some cards has made of a memory. -/
structure RecordMemory.Notes (b : RecordMemory) (numbers noted : List Nat) (m : RecordMemory) : Prop where
  frame : m = { b with mainCards := m.mainCards, poolCards := m.poolCards }
  beside : b.CardsBeside numbers m
  card : ∀ number slot c, b.findCard number = some (slot, c) →
    m.findCard number = some (slot, if number ∈ noted then c.changed b.today none else c)

theorem RecordMemory.Notes.merchants {noted : List Nat} (h : b.Notes numbers noted m) : m.merchants = b.merchants := by
  rw [h.frame]

theorem RecordMemory.Notes.holds {noted : List Nat} (h : b.Notes numbers noted m) : m.holds = b.holds := by
  rw [h.frame]

theorem RecordMemory.Notes.funds {noted : List Nat} (h : b.Notes numbers noted m) : m.funds = b.funds := by
  rw [h.frame]

theorem RecordMemory.Notes.step {noted : List Nat} (h : b.Notes numbers noted m) (hn : number ∈ numbers)
    (hfresh : number ∉ noted) (hfound : (b.findCard number).isSome = true) :
    b.Notes numbers (noted ++ [number]) (Sys2Proof.Machine.noteChange m number) := by
  obtain ⟨⟨slot, c⟩, hf⟩ := Option.isSome_iff_exists.mp hfound
  have htoday : m.today = b.today := (congrArg RecordMemory.today h.frame).trans rfl
  have hcard := h.card _ _ _ hf
  rw [if_neg hfresh] at hcard
  have he : Sys2Proof.Machine.noteChange m number = m.putCard slot (c.changed b.today none) := by
    simp only [Sys2Proof.Machine.noteChange, RecordMemory.mapCard, hcard, htoday]
  have hnum : (c.changed b.today none).number = number := (RecordMemory.findCard_spec hf).1
  rw [he]
  refine ⟨?_, ?_, fun k y e hk => ?_⟩
  · cases slot with
    | main n =>
      exact congrArg (fun k : RecordMemory => { k with mainCards := m.mainCards.insert n (c.changed b.today none) }) h.frame
    | overflow n =>
      exact congrArg (fun k : RecordMemory => { k with poolCards := m.poolCards.insert n (c.changed b.today none) }) h.frame
  · exact (h.beside.putCard hcard hnum).mono fun k hk => (List.mem_append.mp hk).elim id fun hk =>
      List.mem_singleton.mp hk ▸ hn
  · rw [RecordMemory.findCard_putCard_eq hcard hnum, h.card k y e hk]
    by_cases hkn : k = number
    · subst hkn
      obtain ⟨rfl, rfl⟩ : slot = y ∧ c = e := by simpa using hf.symm.trans hk
      simp
    · simp [hkn]

/-- The bookkeeping of every changed card, once each. -/
theorem foldl_noteChange {changed : List Nat} (hnodup : changed.Nodup) (hsub : changed ⊆ numbers)
    (hfound : ∀ number ∈ numbers, (b.findCard number).isSome = true) :
    b.Notes numbers changed (changed.foldl Sys2Proof.Machine.noteChange b) := by
  refine foldl_induction (P := b.Notes numbers) ⟨rfl, ⟨fun _ => rfl, fun _ _ => rfl⟩, fun _ _ _ h => h⟩
    fun before number after m hl hm => ?_
  have hmem : number ∈ changed := by rw [hl]; simp
  have hfresh : number ∉ before := by
    rw [hl] at hnodup
    exact fun hx => (List.nodup_append.mp hnodup).2.2 _ hx _ List.mem_cons_self rfl
  exact hm.step (hsub hmem) hfresh (hfound _ (hsub hmem))

end Sys2Proof.Machine
end

section
/-! A tender that passes its checks: its outcome, its answer and the records it leaves (R93, R94). -/

namespace Sys2Proof.Machine

variable {t : State} {m m' b : RecordMemory} {merchant index amount today : Nat} {r : Merchant} {f : TenderRun}
  {numbers : List Nat} {whole partly : Bool} {acc : RecordMemory × Bool}

/-! ### The outcome and the answer (R93, R94) -/

/-- R93's table: the outcome of a tender by its member holds, its form, its remainder and the merchant's gross. -/
def tenderOutcome (holds : List (Nat × HoldRecord)) (partly : Bool) (remainder placed : Nat) (gross : Int) :
    AnswerOutcome :=
  if holds = [] then .declined .short
  else if 0 < remainder ∧ partly = false then .declined .short
  else if 999999999999 < gross + (placed : Int) then .declined .positionLimit
  else if remainder = 0 then .done else .inPart

/-- The tender keeps its member holds. -/
def keepsWhole (o : AnswerOutcome) : Bool := decide (o = .done ∨ o = .inPart)

theorem settlement_eq (holds : List (Nat × HoldRecord)) (partly : Bool) (remainder placed : Nat) (p : Position) :
    settlement (!holds.isEmpty) partly remainder (p.wouldExceed placed) =
      if keepsWhole (tenderOutcome holds partly remainder placed p.gross) = true then
        .capture (tenderOutcome holds partly remainder placed p.gross)
      else .release (tenderOutcome holds partly remainder placed p.gross) := by
  have hx := p.wouldExceed_iff placed
  unfold settlement tenderOutcome
  by_cases hh : holds = []
  · simp [hh, keepsWhole]
  by_cases h0 : remainder = 0
  · by_cases hover : 999999999999 < p.gross + (placed : Int) <;> simp [hh, h0, hx, hover, keepsWhole]
  · have hpos : 0 < remainder := Nat.pos_of_ne_zero h0
    cases partly with
    | false => simp [hh, h0, hpos, keepsWhole]
    | true => by_cases hover : 999999999999 < p.gross + (placed : Int) <;> simp [hh, h0, hx, hover, keepsWhole]

/-- A tender is not refused once its members are judged. -/
theorem tenderOutcome_ne_refused (holds : List (Nat × HoldRecord)) (partly : Bool) (remainder placed : Nat)
    (gross : Int) (x : RefusalReason) : tenderOutcome holds partly remainder placed gross ≠ .refused x := by
  unfold tenderOutcome
  split_ifs <;> nofun

/-- SHORT is carried by a tender that settles in part alone (log 18). -/
theorem keepsWhole_short (holds : List (Nat × HoldRecord)) (partly : Bool) (remainder placed : Nat) (gross : Int) :
    (keepsWhole (tenderOutcome holds partly remainder placed gross) && decide (0 < remainder)) =
      decide (tenderOutcome holds partly remainder placed gross = .inPart) := by
  unfold tenderOutcome
  split_ifs with hh hs hx h0
  · rfl
  · rfl
  · rfl
  · rw [h0]; rfl
  · rw [decide_eq_true (Nat.pos_of_ne_zero h0)]; rfl

/-- The memory in which a tender has settled its member holds, and whether a part joined a lot. -/
def TenderRun.settledHolds (f : TenderRun) (merchant : Nat) (whole : Bool) : RecordMemory × Bool :=
  f.holds.foldl (settleMember whole merchant) (f.state.memory, false)

/-- The memory a tender leaves: its member holds settled and its changed cards' bookkeeping done. -/
def TenderRun.endMemory (f : TenderRun) (merchant : Nat) (whole : Bool) : RecordMemory :=
  f.changed.foldl noteChange (f.settledHolds merchant whole).1

/-- The flags of a tender's answer. -/
def TenderRun.endFlags (f : TenderRun) (merchant : Nat) (o : AnswerOutcome) : AnswerFlags where
  zero := allZero (f.endMemory merchant (keepsWhole o)) (f.members.map MemberRun.card)
  short := keepsWhole o && decide (0 < f.remainder)
  clamped := f.clamped
  bonus := if keepsWhole o = true then f.holds.any fun d => decide (1 ≤ sumLots d.2.parts)
    else (f.settledHolds merchant (keepsWhole o)).2
  watch := f.mark.isSome

/-- The members of a tender's answer. -/
def TenderRun.endAnswers (f : TenderRun) (merchant : Nat) (whole : Bool) : List MemberAnswer :=
  f.members.map (MemberRun.answer (f.endMemory merchant whole) f.changed whole)

/-- A run's settlement by R93's table. -/
theorem TenderRun.settle_eq (hm : f.state.memory.findMerchant merchant = some (index, r)) {o : AnswerOutcome}
    (ho : tenderOutcome f.holds partly f.remainder (amount - f.remainder) r.position.gross = o) :
    f.settle merchant amount partly =
      (f.state.withMemory (f.endMemory merchant (keepsWhole o)), ⟨o, f.endFlags merchant o,
        .tendered (f.endAnswers merchant (keepsWhole o)) (amount - f.remainder)
          (if keepsWhole o = true then amount - f.remainder else 0) f.remainder f.mark
          (if keepsWhole o = true then some r.period else none)⟩) := by
  have hs := settlement_eq f.holds partly f.remainder (amount - f.remainder) r.position
  rw [ho] at hs
  unfold settle
  simp only [hm, hs, endFlags, endAnswers, endMemory, settledHolds]
  cases keepsWhole o with
  | true => simp only [if_true, settleMember_captures, Bool.true_and]; rfl
  | false => simp only [Bool.false_eq_true, if_false, Bool.false_and]; rfl

theorem TenderRun.endAnswers_eq (f : TenderRun) (merchant : Nat) (whole : Bool) : f.endAnswers merchant whole =
    f.members.map fun p =>
      let counter :=
        if p.card ∈ f.changed then ((f.endMemory merchant whole).findCard p.card).map fun e => e.2.counter else none
      match p.result with
      | .skipped => ⟨.skipped, 0, p.method, p.freezer, counter⟩
      | .declined reason => ⟨.declined reason, 0, p.method, p.freezer, counter⟩
      | .placed _ h =>
        ⟨if whole = true then .taken else .returned, h.paid + sumLots h.parts, p.method, p.freezer, counter⟩ := by
  refine List.map_congr_left fun p _ => ?_
  simp only [MemberRun.answer, List.contains_iff_mem]
  rfl

/-- A tender that keeps its holds carries BONUS when one of them drew a bonus lot. -/
theorem TenderRun.endFlags_kept {o : AnswerOutcome} (ho : keepsWhole o = true) :
    (f.endFlags merchant o).bonus = decide (∃ d ∈ f.holds, 1 ≤ sumLots d.2.parts) := by
  rw [endFlags, if_pos ho]
  simp only [List.any_eq, decide_eq_true_eq]

/-- A tender that gives its holds back carries BONUS when a part joined a lot. -/
theorem TenderRun.endFlags_back {o : AnswerOutcome} (ho : keepsWhole o = false) :
    (f.endFlags merchant o).bonus = true ↔ (f.settledHolds merchant (keepsWhole o)).2 = true := by
  rw [endFlags, if_neg (by rw [ho]; nofun)]

theorem allZero_iff (m : RecordMemory) (cards : List Nat) : allZero m cards = true ↔
    ∀ number ∈ cards, ∀ e, m.findCard number = some e → m.total e.2 = 0 := by
  unfold allZero
  rw [List.all_eq_true]
  refine forall₂_congr fun number _ => ?_
  cases m.findCard number with
  | none => simp
  | some e => simp [zeroFlag_eq]

/-- The amounts of the members whose holds were taken or returned sum to what the tender placed. -/
theorem endAnswers_placed (m : RecordMemory) (changed : List Nat) (whole : Bool) (members : List MemberRun) :
    (((members.map (MemberRun.answer m changed whole)).filter fun a =>
        decide (a.status = .taken ∨ a.status = .returned)).map MemberAnswer.amount).sum =
      placedTotal (members.filterMap fun p =>
        match p.result with
        | .placed n h => some (n, h)
        | _ => none) := by
  induction members with
  | nil => rfl
  | cons p members ih =>
    rw [List.map_cons, List.filterMap_cons]
    cases hp : p.result with
    | placed n h =>
      have ha : (MemberRun.answer m changed whole p).amount = h.total ∧
          ((MemberRun.answer m changed whole p).status = .taken ∨
            (MemberRun.answer m changed whole p).status = .returned) := by
        cases whole <;> simp [MemberRun.answer, hp]
      rw [List.filter_cons_of_pos (by exact decide_eq_true ha.2), List.map_cons, List.sum_cons, ih, ha.1]
      simp only [placedTotal, List.map_cons, List.sum_cons]
    | skipped =>
      rw [List.filter_cons_of_neg (by simp [MemberRun.answer, hp]), ih]
    | declined reason =>
      rw [List.filter_cons_of_neg (by simp [MemberRun.answer, hp]), ih]

/-- Every member has its place in the answer. -/
theorem TenderRun.Runs.endAnswers_length {ps : List Member}
    (h : TenderRun.Runs t merchant index r amount (ps.map Member.card) f) (whole : Bool) :
    (f.endAnswers merchant whole).length = ps.length := by
  rw [endAnswers, List.length_map, ← List.length_map MemberRun.card, h.members, List.length_map]

/-- ZERO is carried when every member's card is left with a total of 0 (R94). -/
theorem TenderRun.Runs.endFlags_zero {ps : List Member} {o : AnswerOutcome}
    (h : TenderRun.Runs t merchant index r amount (ps.map Member.card) f) : (f.endFlags merchant o).zero = true ↔
      ∀ p ∈ ps, ∀ e, (f.endMemory merchant (keepsWhole o)).findCard p.card = some e →
        (f.endMemory merchant (keepsWhole o)).total e.2 = 0 := by
  rw [endFlags, h.members, allZero_iff, List.forall_mem_map]

/-! ### The records (R93) -/

/-- Cards changed in their places, and then changed again. -/
theorem RecordMemory.CardsBeside.trans (h : b.CardsBeside numbers m) (h' : m.CardsBeside numbers m') :
    b.CardsBeside numbers m' := by
  refine ⟨fun k => (h'.slots k).trans (h.slots k), fun q hq => ?_⟩
  refine (h'.others q fun number hn e he heq => ?_).trans (h.others q hq)
  have hs := h.slots number
  rw [he, Option.map_some, eq_comm, Option.map_eq_some_iff] at hs
  obtain ⟨e', he', hes⟩ := hs
  exact hq number hn e' he' (hes.trans heq)

/-- What a run that began in t and the memory its settlement left have in common: the member holds settled, then the
bookkeeping of the changed cards. -/
structure TenderRun.Settled (t : State) (merchant index : Nat) (r : Merchant) (amount : Nat) (numbers : List Nat)
    (whole : Bool) (f : TenderRun) (acc : RecordMemory × Bool) (m : RecordMemory) : Prop where
  runs : TenderRun.Runs t merchant index r amount numbers f
  settles : f.state.memory.Settles merchant index { r with openHolds := r.openHolds + f.holds.length } whole numbers
    f.holds acc
  notes : acc.1.Notes numbers f.changed m

/-- Every run over found cards settles so. -/
theorem TenderRun.Runs.settled (hv : TenderRun.Runs t merchant index r amount numbers f)
    (hfound : ∀ number ∈ numbers, (t.memory.findCard number).isSome = true) (whole : Bool) :
    TenderRun.Settled t merchant index r amount numbers whole f (f.settledHolds merchant whole)
      (f.endMemory merchant whole) := by
  have hf : ∀ number ∈ numbers, (f.state.memory.findCard number).isSome = true := fun number hn => by
    obtain ⟨slot, c, h⟩ := hv.cards.found (hfound number hn)
    exact Option.isSome_iff_exists.mpr ⟨_, h⟩
  have hs := hv.holds.settle (whole := whole)
    ⟨hv.merchant.rising, hv.merchant.found, fun _ _ => rfl⟩ hv.onCards hf
  refine ⟨hv, hs, foldl_noteChange hv.distinct hv.changed fun number hn => ?_⟩
  obtain ⟨slot, c, h⟩ := hs.beside.found (hf number hn)
  exact Option.isSome_iff_exists.mpr ⟨_, h⟩

section
variable (h : TenderRun.Settled t merchant index r amount numbers whole f acc m)
include h

/-- A member's card after the tender. -/
theorem TenderRun.Settled.card {number : Nat} {slot : Slot} {c : Card}
    (hf : f.state.memory.findCard number = some (slot, c)) : m.cardAt slot = some { c with
      paid := if whole = true then c.paid else c.paid + ((holdsOf c.number f.holds).map fun d => d.2.paid).sum
      lots := if whole = true then c.lots else (partsBack t.memory.today c.lots (holdsOf c.number f.holds)).1
      holds := (holdsOf c.number f.holds).foldl
        (fun l d => l.erase ⟨d.1, (t.memory.holdSlot d.1).generation⟩) c.holds
      counter := if number ∈ f.changed then (c.counter + 1) % 65536 else c.counter
      lastActivity := if number ∈ f.changed then t.memory.today else c.lastActivity
      last := if number ∈ f.changed then none else c.last } := by
  have htoday : acc.1.today = t.memory.today :=
    ((congrArg RecordMemory.today h.settles.frame.memory).trans rfl).trans h.runs.frame.today
  have hgen : ∀ n, (f.state.memory.holdSlot n).generation = (t.memory.holdSlot n).generation := fun n => by
    by_cases hn : n ∈ f.holds.map Prod.fst
    · obtain ⟨d, hd, rfl⟩ := List.mem_map.mp hn
      rw [h.runs.holds.placed d hd]
    · rw [h.runs.holds.free n hn]
  have hcard := (RecordMemory.findCard_spec (h.notes.card _ _ _ (h.settles.card _ _ _ hf))).2.1
  obtain rfl := (RecordMemory.findCard_spec hf).1
  rw [hcard, htoday, h.runs.frame.today]
  simp only [hgen]
  split <;> rfl

/-- The cards of no member are as they were. -/
theorem TenderRun.Settled.beside : t.memory.CardsBeside numbers m :=
  (h.runs.cards.trans h.settles.beside).trans h.notes.beside

/-- The merchant after the tender: paid for every member hold kept, and none of them open. -/
theorem TenderRun.Settled.merchantAt : m.merchant index = if whole = true then
    { r with position := { r.position with
      gross := r.position.gross + (placedTotal f.holds : Int)
      items := r.position.items + (f.holds.length : Int)
      drawn := f.holds.foldl (fun b d => drawParts b d.2.parts) r.position.drawn } } else r := by
  have hm : m.merchant index = acc.1.merchant index := congrArg (Table.get Merchant.unused · index) h.notes.merchants
  rw [hm, h.settles.merchant.at]
  cases whole <;> simp [Merchant.settledAll]

theorem TenderRun.Settled.otherMerchants {j : Nat} (hj : j ≠ index) : m.merchant j = t.memory.merchant j := by
  have hm : m.merchant j = acc.1.merchant j := 
    congrArg (Table.get Merchant.unused · j) h.notes.merchants
  rw [hm, h.settles.merchant.others j hj, h.runs.merchant.others j hj]

/-- The hold slots after the tender: those it used are freed at their next generation. -/
theorem TenderRun.Settled.holdSlot (n : Nat) : m.holdSlot n = if n ∈ f.holds.map Prod.fst then
    endedSlot (t.memory.holdSlot n).generation merchant .settled else t.memory.holdSlot n := by
  have hm : m.holdSlot n = acc.1.holdSlot n := congrArg (Table.get HoldSlot.free · n) h.notes.holds
  rw [hm, h.settles.slots n]
  split
  · next hn =>
    obtain ⟨d, hd, rfl⟩ := List.mem_map.mp hn
    rw [h.runs.holds.placed d hd]
  · next hn => exact h.runs.holds.free n hn

/-- No member hold outlives the tender: every hold record is as it was. -/
theorem TenderRun.Settled.record (n : Nat) : (m.holdSlot n).record = (t.memory.holdSlot n).record := by
  rw [h.holdSlot n]
  split
  · next hn =>
    obtain ⟨d, hd, rfl⟩ := List.mem_map.mp hn
    exact (h.runs.holds.were d hd).symm
  · rfl

/-- Nothing else of the memory is changed. -/
theorem TenderRun.Settled.memory : m = { t.memory with
    mainCards := m.mainCards, poolCards := m.poolCards, merchants := m.merchants, holds := m.holds
    watches := f.state.memory.watches, funds := m.funds } := by
  have h1 := h.notes.frame
  have h2 := congrArg (fun k : RecordMemory => { k with mainCards := m.mainCards, poolCards := m.poolCards })
    h.settles.frame.memory
  have h3 := congrArg (fun k : RecordMemory => { k with
    mainCards := m.mainCards, poolCards := m.poolCards, merchants := acc.1.merchants, holds := acc.1.holds
    funds := acc.1.funds }) h.runs.frame.memory
  have h4 := h1.trans (h2.trans h3)
  rw [h.notes.merchants, h.notes.holds, h.notes.funds]
  exact h4

end

end Sys2Proof.Machine
end

section
/-! The tender whole (R90 to R94). -/

namespace Sys2Proof.Machine

variable {s t : State} {merchant index amount settle count : Nat} {r : Merchant} {members : List MemberOperands}
  {partly : Bool} {ps : List Member}

/-- A tender that passes its checks judges its members in order and settles (R90, R91, R93). -/
theorem tenderChange_run (he : t.engine = .trading) (ha1 : 1 ≤ amount) (ha : amount ≤ 10000000) (hc1 : 1 ≤ count)
    (hc : count ≤ 6) (hs : flagOf settle = some partly) (hp : convertAll memberOf members = some ps)
    (hw : ∀ p ∈ ps, wellFormedNumber p.card = true) (hf : ∀ p ∈ ps, (t.memory.findCard p.card).isSome = true)
    (hm : t.memory.findMerchant merchant = some (index, r)) :
    tenderChange merchant amount settle count members t =
      (tenderRun t merchant amount ps ps.length).settle merchant amount partly := by
  have hra : inRange 1 maxAmount amount = true := (inRange_iff ..).mpr ⟨ha1, ha⟩
  have hrc : inRange 1 6 count = true := (inRange_iff ..).mpr ⟨hc1, hc⟩
  have hall := List.all_eq_true.mpr hw
  have hfound := List.all_eq_true.mpr hf
  simp only [tenderChange, he, hra, hrc, hs, hp, hall, hm, hfound, tenderRun_all]
  rfl

theorem tenderRun_members (hm : t.memory.findMerchant merchant = some (index, r))
    (hmr : t.memory.merchants.rising = true) (hhr : t.memory.holds.rising = true)
    (hps : ∀ p ∈ ps, (t.memory.findCard p.card).isSome = true) :
    TenderRun.Runs t merchant index r amount (ps.map Member.card) (tenderRun t merchant amount ps ps.length) := by
  have h := tenderRun_runs (amount := amount) hm hmr hhr hps ps.length
  rwa [List.take_length] at h

/-- The holds of a member's card, by the number it stands under. -/
theorem someJoined_members {b : RecordMemory} {today : Nat} {holds : List (Nat × HoldRecord)} :
    SomeJoined b today (ps.map Member.card) holds ↔ ∃ p ∈ ps, ∃ e, b.findCard p.card = some e ∧
      ∃ x ∈ (partsBack today e.2.lots (holdsOf e.2.number holds)).2, x.2 ≠ .writtenOff := by
  unfold SomeJoined
  simp only [List.mem_map, exists_exists_and_eq_and]
  refine exists_congr fun p => and_congr_right fun _ => exists_congr fun e => and_congr_right fun he => ?_
  rw [(RecordMemory.findCard_spec (slot := e.1) (c := e.2) he).1]

theorem allJoined_members {b : RecordMemory} {today : Nat} {holds : List (Nat × HoldRecord)}
    (h : ∀ p ∈ ps, ∀ e, b.findCard p.card = some e →
      ∀ x ∈ (partsBack today e.2.lots (holdsOf e.2.number holds)).2, x.2 ≠ .writtenOff) :
    AllJoined b today (ps.map Member.card) holds := by
  intro number hn e he
  obtain ⟨p, hp, rfl⟩ := List.mem_map.mp hn
  rw [← (RecordMemory.findCard_spec (slot := e.1) (c := e.2) he).1]
  exact h p hp e he

/-- Settles O42: the run is the fold of the members, each stepping by R91 and R92, and its settlement is read off the
records it leaves. -/
theorem tenderSettlesWhole : Obligations.TenderSettlesWhole := by
  intro s t tag merchant amount settle count members partly ps index r htake he ha1 ha hc1 hc hs hp hw hf hm hmr hhr
  have hruns := tenderRun_members (amount := amount) hm hmr hhr hf
  have hchange := tenderChange_run he ha1 ha hc1 hc hs hp hw hf hm
  have hsteps := fun (k : Nat) (p : Member) (hk : ps[k]? = some p) =>
    tenderRun_stepsTo (amount := amount) hm hmr hhr hf hk
  generalize hrun : tenderRun t merchant amount ps = run at hruns hchange hsteps
  have hrun0 : run 0 = ⟨t, amount, [], [], none, false⟩ := by rw [← hrun]; rfl
  generalize hf' : run ps.length = f at hruns hchange
  have htotal := hruns.totals
  have hplaced : amount - f.remainder = placedTotal f.holds := by omega
  obtain ⟨o, ho⟩ : ∃ o, tenderOutcome f.holds partly f.remainder (amount - f.remainder) r.position.gross = o := ⟨_, rfl⟩
  have hend := hruns.settled (fun number hn => by
    obtain ⟨p, hp, rfl⟩ := List.mem_map.mp hn
    exact hf p hp) (keepsWhole o)
  obtain ⟨u, hu⟩ : ∃ u, (f.state.withMemory (f.endMemory merchant (keepsWhole o))).enter 21 o (f.endFlags merchant o)
      tag (.tendered (f.endAnswers merchant (keepsWhole o)) (amount - f.remainder)
        (if keepsWhole o = true then amount - f.remainder else 0) f.remainder f.mark
        (if keepsWhole o = true then some r.period else none)) = u := ⟨_, rfl⟩
  have hexec : exec (.tender tag merchant amount settle count members) s = .next u := by
    rw [← hu]
    have hanswer := hchange.trans (TenderRun.settle_eq hruns.merchant.found ho)
    refine exec_hold_request htake ((naming_else fun x => ?_).trans hanswer)
    rw [hanswer, ← ho]
    exact tenderOutcome_ne_refused _ _ _ _ _ x
  refine ⟨u, f.endAnswers merchant (keepsWhole o), o, f.endFlags merchant o, amount - f.remainder,
    if keepsWhole o = true then amount - f.remainder else 0, f.remainder,
    if keepsWhole o = true then some r.period else none, run, ?_⟩
  dsimp only
  rw [hf']
  have hmem : u.memory = f.endMemory merchant (keepsWhole o) := by rw [← hu]; rfl
  have htoday := hruns.frame.today
  rw [hmem]
  refine ⟨hexec, ?_, hrun0, hsteps, rfl, by omega, ho.symm, rfl, rfl, f.endAnswers_eq merchant _,
    hruns.endAnswers_length _, ?_, hruns.endFlags_zero, ?_, rfl, rfl, fun hk => TenderRun.endFlags_kept hk,
    fun hk => (TenderRun.endFlags_back hk).trans ?_, fun p hp => ?_, fun q hq => ?_, ?_,
    fun j hj => hend.otherMerchants hj, hend.holdSlot, hend.record, fun hk => ?_, fun hk hall => ?_, ?_, hend.memory⟩
  · have hanswers : f.state.answers = t.answers := by rw [hruns.frame.state]
    have hnumber : f.state.lastNumber = t.lastNumber := by rw [hruns.frame.state]
    rw [← hu, State.enter_answers, State.withMemory_answers, State.withMemory_lastNumber, hanswers, hnumber]
    rfl
  · rw [hplaced]
    exact (endAnswers_placed ..).symm
  · rw [← ho]
    exact keepsWhole_short ..
  · rw [← htoday, hend.settles.bonus hk]
    exact someJoined_members
  · obtain ⟨slot, c, hfc⟩ := hruns.cards.found (hf p hp)
    refine ⟨slot, c, hfc, ?_⟩
    simp only [decide_eq_true_eq (p := p.card ∈ f.changed)]
    exact hend.card hfc
  · exact hend.beside.others q fun number hn e he => by
      obtain ⟨p, hp, rfl⟩ := List.mem_map.mp hn
      exact hq p hp e he
  · rw [hplaced]
    exact hend.merchantAt
  · rw [hend.notes.funds]
    exact hend.settles.spent hk
  · rw [hend.notes.funds]
    exact hend.settles.kept hk (htoday ▸ allJoined_members hall)
  · have hu' : u = { f.state with
        memory := u.memory, answers := u.answers, lastNumber := u.lastNumber, interruptsSent := u.interruptsSent } := by
      rw [← hu]
      rfl
    rw [← hmem]
    exact hu'.trans (congrArg (fun k : State => { k with
      memory := u.memory, answers := u.answers, lastNumber := u.lastNumber, interruptsSent := u.interruptsSent })
      hruns.frame.state)

end Sys2Proof.Machine
end

section
/-! REFUND on a touched card (R97 to R101). -/

namespace Sys2Proof.Machine

variable {s t : State} {tag card merchant paid count total index : Nat} {parts : List PartOperands}
  {ps : List (Fin 8 × Nat)} {r : Merchant} {slot : Slot} {c c0 : Card}

/-! ### The parts capped and restored (R98, R100) -/

/-- A part is restored up to the bonus drawn less returned, and converted beyond (R98). -/
theorem capPart_spec (q : Position) (x : Fin 8 × Nat) :
    (capPart q x).restored + (capPart q x).converted = x.2 ∧ (capPart q x).sponsor = x.1 ∧
      ((capPart q x).restored : Int) = min (x.2 : Int) (max 0 (q.drawn[x.1.val] - q.returned[x.1.val])) := by
  refine ⟨?_, rfl, ?_⟩ <;>
    · simp only [capPart]
      omega

/-- Each restored part takes one step of the lot-merge rule, its value joins the lots, and the lots stay in order (R4,
R100). -/
theorem restoreLots_weigh {M : Type} [AddCommMonoid M] (v : Fin 8 → ℕ →+ M) {lots restored lots' : List Lot}
    {steps : List Nat} (h : LotsOrdered lots) (hr : restoreLots lots restored = some (lots', steps)) :
    steps.length = restored.length ∧ weigh v lots' = weigh v lots + weigh v restored ∧ LotsOrdered lots' := by
  induction restored generalizing lots steps with
  | nil =>
    cases hr
    exact ⟨rfl, (add_zero _).symm, h⟩
  | cons p rest ih =>
    rw [restoreLots] at hr
    split at hr
    · cases hr
    · next placed step hm =>
      obtain ⟨⟨lots', steps⟩, hrest, he⟩ := Option.map_eq_some_iff.mp hr
      cases he
      obtain ⟨hlen, hw, ho⟩ := ih (mergeLot_ordered h hm) hrest
      refine ⟨congrArg (· + 1) hlen, ?_, ho⟩
      rw [hw, weigh_mergeLot v h.apart hm, weigh_cons, add_assoc]

/-! ### The refund on the touched card (R97 to R101) -/

/-- What a REFUND that passes its checks writes and answers (R101). -/
def refundedCard (m : RecordMemory) (slot : Slot) (c : Card) (index : Nat) (r : Merchant) (paid total life : Nat)
    (capped : List CappedPart) (lots : List Lot) (steps : List Nat) : RecordMemory × Reply :=
  let day := min 65535 (m.today + life)
  let restored := restoredParts day capped
  let credit := paid + (capped.map CappedPart.converted).sum
  let c' := { c with
    paid := c.paid + credit, lots := lots, counter := (c.counter + 1) % 65536, lastActivity := m.today, last := none }
  let m' := (({ m with
      funds := restored.foldl (fun f l => f.unspendPart (l, .joined 0)) (m.funds.unspendPaid credit) } :
      RecordMemory).setMerchant index { r with position := { r.position with
        refunded := r.position.refunded + (total : Int)
        returned := returnSponsors r.position.returned capped } }).putCard slot c'
  (m', ⟨.done,
    ⟨decide (m'.total c' = 0), false,
      decide (0 < (capped.map CappedPart.converted).sum ∨ 65535 < m.today + life), decide (restored ≠ []), false⟩,
    .refunded credit (capped.map fun x => (x.converted, x.restored)) day steps (c'.paid + sumLots lots) c'.counter
      (r.position.due - total) r.period⟩)

/-- A REFUND on the touched card: its declines in order, or the refund. -/
theorem refundCard_eq (m : RecordMemory) (slot : Slot) (c0 : Card) (index : Nat) (r : Merchant) (paid : Nat)
    (ps : List (Fin 8 × Nat)) (total : Nat) :
    refundCard m slot c0 index r paid ps total =
      let k := m.touch c0
      let p := m.product c0.product
      let capped := ps.map (capPart r.position)
      if r.state = .suspended then declineTouched k.memory slot k.card k.wrote .merchantSuspended
      else if 999999999999 < r.position.refunded + (total : Int) then
        declineTouched k.memory slot k.card k.wrote .positionLimit
      else if r.position.due - total < -(r.allowance : Int) then
        declineTouched k.memory slot k.card k.wrote .allowance
      else if p.maxBalance < m.total k.card + total then declineTouched k.memory slot k.card k.wrote .overLimit
      else
        match restoreLots k.card.lots (restoredParts (min 65535 (m.today + p.refundLife)) capped) with
        | none => declineTouched k.memory slot k.card k.wrote .lotsFull
        | some (lots, steps) =>
          refundedCard k.memory slot k.card index r paid total p.refundLife capped lots steps := by
  have hbonus : ∀ l : List Lot, (!l.isEmpty) = decide (l ≠ []) := fun l => by cases l <;> rfl
  simp only [refundCard, product_touch, RecordMemory.touch_total, RecordMemory.touch_today, cappedDay_eq,
    List.foldl_map, zeroFlag_eq, hbonus, ← Bool.decide_or]
  rfl

theorem exec_refund_found (h : s.take (.refund tag card merchant paid count parts) = some t)
    (he : t.engine = .trading) (ho : refundOf paid count parts = some (ps, total)) (hw : wellFormedNumber card = true)
    (hm : t.memory.findMerchant merchant = some (index, r)) (hf : t.memory.findCard card = some (slot, c))
    {a : RecordMemory × Reply} (ha : refundCard t.memory slot c index r paid ps total = a)
    (hn : ∀ x, a.2.outcome ≠ .refused x) :
    exec (.refund tag card merchant paid count parts) s =
      .next ((t.withMemory a.1).enter 22 a.2.outcome a.2.flags tag a.2.body) := by
  refine answerRequest_onCard (f := fun m slot c => refundCard m slot c index r paid ps total) h hw hf ?_ ha hn
  simp only [refundChange, he, ho, hw, hm, ne_eq, not_true_eq_false, if_false, Bool.not_true, Bool.false_eq_true]

/-- Settles O43: by the cases of `refundCard_eq`, each part by `capPart_spec`, and the lots by `restoreLots_weigh`. -/
theorem refundCreditsTheCard : Obligations.RefundCreditsTheCard := by
  refine ⟨?_, capPart_spec, fun lots restored lots' steps ho hr =>
    restoreLots_weigh (fun _ => AddMonoidHom.id ℕ) ho hr⟩
  intro s t tag card merchant paid count parts ps total index r slot c0 h he hops hw hm hf k c p capped credit day
    restored due run declined
  have answer := fun a => exec_refund_found (a := a) h he hops hw hm hf
  have eq := refundCard_eq t.memory slot c0 index r paid ps total
  have hdue : due = r.position.due - total := rfl
  dsimp only at eq
  rw [hdue]
  split
  · next hsuspended => exact answer _ (eq.trans (if_pos hsuspended)) nofun
  next hsuspended =>
  rw [if_neg hsuspended] at eq
  split
  · next hover => exact answer _ (eq.trans (if_pos hover)) nofun
  next hover =>
  rw [if_neg hover] at eq
  split
  · next hallowance => exact answer _ (eq.trans (if_pos hallowance)) nofun
  next hallowance =>
  rw [if_neg hallowance] at eq
  split
  · next hbalance => exact answer _ (eq.trans (if_pos hbalance)) nofun
  next hbalance =>
  rw [if_neg hbalance] at eq
  split at eq
  · next hfull =>
    rw [show restoreLots c.lots restored = none from hfull]
    exact answer _ eq nofun
  · next lots steps hplaced =>
    rw [show restoreLots c.lots restored = some (lots, steps) from hplaced]
    exact answer _ eq nofun

end Sys2Proof.Machine
end

section
/-! VOID-LAST on a touched card (R103 to R109). -/

namespace Sys2Proof.Machine

variable {s t : State} {m : RecordMemory} {tag card merchant stamp atMerchant period index : Nat} {r : Merchant}
  {slot : Slot} {c c0 : Card} {v : Movement} {wrote : Bool}

/-! ### The movement at its merchant (R105) -/

/-- A position contains a movement by its gross, its items and its bonus drawn of each sponsor (R105). -/
theorem Position.contains_iff (q : Position) (amount : Nat) (parts : List Lot) :
    q.contains amount parts = true ↔ (amount : Int) ≤ q.gross ∧ 1 ≤ q.items ∧
      ∀ x : Fin 8, ((sumLots (parts.filter fun l => l.sponsor = x) : Nat) : Int) ≤ q.drawn[x.val] := by
  simp only [contains, Bool.and_eq_true, decide_eq_true_eq, List.all_eq_true, List.mem_finRange, true_imp_iff,
    and_assoc]
  rfl

/-- The merchant holds a movement exactly when its record is in the movement's period and contains it (R105). -/
theorem RecordMemory.holdsMovement_eq_some_iff :
    m.holdsMovement merchant period v = some (index, r) ↔
      m.findMerchant merchant = some (index, r) ∧ r.period = period ∧ r.position.contains v.amount v.parts = true := by
  unfold holdsMovement
  split
  · next i x hx =>
    rw [hx]
    split
    · next hc =>
      refine ⟨fun e => ⟨e, ?_⟩, fun h => h.1⟩
      cases e
      exact hc
    · next hc =>
      refine ⟨nofun, fun ⟨e, h⟩ => ?_⟩
      cases e
      exact absurd h hc
  · next hx =>
    rw [hx]
    exact ⟨nofun, fun h => nomatch h.1⟩

theorem Position.due_unaccrue (q : Position) (amount : Nat) (parts : List Lot) :
    (q.unaccrue amount parts).due = q.due - amount := by
  simp only [due, unaccrue]
  omega

/-! ### A redemption or capture voided (R104, R106, R107) -/

/-- What a void of a REDEEM or CAPTURE that passes its tests writes and answers (R106, R107). -/
def voidedSpent (m : RecordMemory) (slot : Slot) (c : Card) (v : Movement) (index : Nat) (r : Merchant) :
    RecordMemory × Reply :=
  let back := placeParts m.today c.lots v.parts
  let position := r.position.unaccrue v.amount v.parts
  let c' := { c with
    paid := c.paid + v.paid, lots := back.1, counter := (c.counter + 1) % 65536, lastActivity := m.today, last := none }
  let m' := (({ m with funds := back.2.foldl Funds.unspendPart (m.funds.unspendPaid v.paid) } :
    RecordMemory).setMerchant index { r with position := position }).putCard slot c'
  (m', ⟨.done, ⟨decide (m'.total c' = 0), false, false, decide (∃ f ∈ back.2, f.2 ≠ .writtenOff), false⟩,
    .voided v.kind v.amount v.paid back.2 (c'.paid + sumLots back.1) c'.counter (some position.due) (some r.period)⟩)

theorem voidSpentMovement_eq (m : RecordMemory) (slot : Slot) (c : Card) (v : Movement) (index : Nat) (r : Merchant) :
    voidSpentMovement m slot c v index r = voidedSpent m slot c v index r := by
  simp only [voidSpentMovement, zeroOnly_eq, anyJoined_eq]
  rfl

theorem voidSpent_elsewhere (h : merchant ≠ atMerchant) :
    voidSpent m slot c wrote v merchant atMerchant period = declineTouched m slot c wrote .stale := if_pos h

theorem voidSpent_cut (h : ∀ index r, m.findMerchant merchant = some (index, r) → r.period = period →
      ¬r.position.contains v.amount v.parts = true) :
    voidSpent m slot c wrote v merchant merchant period = declineTouched m slot c wrote .cut := by
  have hnone : m.holdsMovement merchant period v = none := Option.eq_none_iff_forall_ne_some.mpr fun ⟨index, r⟩ e => by
    obtain ⟨hm, hp, hc⟩ := RecordMemory.holdsMovement_eq_some_iff.mp e
    exact h index r hm hp hc
  simp only [voidSpent, hnone, ne_eq, not_true_eq_false, if_false]

theorem voidSpent_held (hm : m.findMerchant merchant = some (index, r)) (hp : r.period = period)
    (hc : r.position.contains v.amount v.parts = true) :
    voidSpent m slot c wrote v merchant merchant period =
      if (r.position.unaccrue v.amount v.parts).due < -(r.allowance : Int) then declineTouched m slot c wrote .allowance
      else voidedSpent m slot c v index r := by
  simp only [voidSpent, RecordMemory.holdsMovement_eq_some_iff.mpr ⟨hm, hp, hc⟩, Position.due_unaccrue,
    voidSpentMovement_eq, ne_eq, not_true_eq_false, if_false]

/-! ### The tests on the touched card (R104) -/

theorem voidCard_absent (h : (m.touch c0).card.last = none ∨ (m.touch c0).wrote = true) :
    voidCard m slot c0 merchant stamp =
      declineTouched (m.touch c0).memory slot (m.touch c0).card (m.touch c0).wrote .stale := by
  have hlast : lastAfterTouch (m.touch c0).card (m.touch c0).wrote = none := by
    unfold lastAfterTouch
    split
    · rfl
    · next hw => exact h.resolve_right hw
  simp only [voidCard, hlast]

section
variable (hv : (m.touch c0).card.last = some v) (hw : (m.touch c0).wrote = false)
include hv hw

theorem lastAfterTouch_kept : lastAfterTouch (m.touch c0).card (m.touch c0).wrote = some v := by
  rw [hw]
  exact hv

theorem voidCard_stale (h : v.stamp ≠ stamp ∨ v.day ≠ m.today) :
    voidCard m slot c0 merchant stamp =
      declineTouched (m.touch c0).memory slot (m.touch c0).card (m.touch c0).wrote .stale := by
  simp only [voidCard, lastAfterTouch_kept hv hw, if_pos h]

theorem voidCard_load (hs : v.stamp = stamp) (hd : v.day = m.today) (hk : v.kind = .load) :
    voidCard m slot c0 merchant stamp = voidLoadMovement (m.touch c0).memory slot (m.touch c0).card v := by
  simp only [voidCard, lastAfterTouch_kept hv hw, hs, hd, hk, ne_eq, not_true_eq_false, or_self, if_false]

theorem voidCard_spent (hs : v.stamp = stamp) (hd : v.day = m.today)
    (hk : v.kind = .redeem atMerchant period ∨ v.kind = .capture atMerchant period) :
    voidCard m slot c0 merchant stamp =
      voidSpent (m.touch c0).memory slot (m.touch c0).card (m.touch c0).wrote v merchant atMerchant period := by
  rcases hk with hk | hk <;>
    simp only [voidCard, lastAfterTouch_kept hv hw, hs, hd, hk, ne_eq, not_true_eq_false, or_self, if_false]

end

/-! ### The request (R103) -/

theorem exec_voidLast_found (h : s.take (.voidLast tag card merchant stamp) = some t) (he : t.engine = .trading)
    (hs : stamp ≤ 65535) (hw : wellFormedNumber card = true) (hf : t.memory.findCard card = some (slot, c))
    {a : RecordMemory × Reply} (ha : voidCard t.memory slot c merchant stamp = a)
    (hn : ∀ x, a.2.outcome ≠ .refused x) :
    exec (.voidLast tag card merchant stamp) s =
      .next ((t.withMemory a.1).enter 23 a.2.outcome a.2.flags tag a.2.body) := by
  refine answerRequest_onCard (f := fun m slot c => voidCard m slot c merchant stamp) h hw hf ?_ ha hn
  simp only [voidLastChange, he, Nat.not_lt.mpr hs, ne_eq, not_true_eq_false, if_false]

/-- Settles O44: by the tests of `voidCard`, then by the movement's kind, and for a redemption or capture by
`voidSpent_elsewhere`, `voidSpent_cut` and `voidSpent_held`. -/
theorem voidLastUndoesTheMovement : Obligations.VoidLastUndoesTheMovement := by
  intro s t tag card merchant stamp slot c0 h he hstamp hwf hf k c run next declined
  have answer := fun a => exec_voidLast_found (a := a) h he hstamp hwf hf
  refine ⟨fun habsent => answer _ (voidCard_absent habsent) nofun, fun v hv hw => ⟨fun hstale =>
    answer _ (voidCard_stale hv hw hstale) nofun, fun hs hd hk => ?_, fun hs hd atMerchant period hk => ?_⟩⟩
  · refine (answer _ (voidCard_load hv hw hs hd hk) nofun).trans ?_
    simp only [voidLoadMovement, zeroOnly_eq, hk]
    rfl
  have hspent := voidCard_spent (slot := slot) (merchant := merchant) hv hw hs hd hk
  refine ⟨fun hm => answer _ (hspent.trans (voidSpent_elsewhere hm)) nofun, ?_, ?_⟩
  · rintro rfl hcut
    refine answer _ (hspent.trans (voidSpent_cut fun index r hm hp hc => ?_)) nofun
    obtain ⟨hgross, hitems, hdrawn⟩ := (Position.contains_iff ..).mp hc
    rcases hcut index r hm with hn | hn | hn | ⟨x, hn⟩
    · exact hn hp
    · exact not_lt.mpr hgross hn
    · exact not_lt.mpr hitems hn
    · exact not_lt.mpr (hdrawn x) hn
  · rintro index r rfl hm hp hgross hitems hdrawn amount due
    have hc := (Position.contains_iff r.position v.amount v.parts).mpr ⟨hgross, hitems, hdrawn⟩
    have eq := hspent.trans (voidSpent_held hm hp hc)
    split
    · next hallowance => exact answer _ (eq.trans (if_pos hallowance)) nofun
    · next hallowance => exact answer _ (eq.trans (if_neg hallowance)) nofun

end Sys2Proof.Machine
end

section
/-! What a debit moved and its void moves back: each movement of a void undoes the debit's, and the parts drawn from a card's
lots join them again as they stood (R4, R10, R22, R23, R106, R148). -/

namespace Sys2Proof.Machine

/-! ### Movements undone in the order they were made -/

/-- Movements that each have an undoing, which passes every other movement: the undoings in the same order give back the
start. -/
theorem foldl_undone {α β : Type} {move undo : α → β → α} (comm : ∀ a x y, undo (move a x) y = move (undo a y) x)
    (cancel : ∀ a x, undo (move a x) x = a) (l : List β) (a : α) : l.foldl undo (l.foldl move a) = a := by
  induction l generalizing a with
  | nil => rfl
  | cons x l ih =>
    have pass : undo (l.foldl move (move a x)) x = l.foldl move a := by
      rw [← List.foldl_hom (fun a => undo a x) (g₂ := move) fun a y => (comm a y x).symm, cancel]
    rw [List.foldl_cons, List.foldl_cons, pass, ih]

section
variable {M : Type}

/-- Two entries of a list of sponsors grow in either order. -/
theorem set_add_comm [AddCommSemigroup M] (v : Vector M 8) (s t : Fin 8) (x y : M) :
    (v.set s.val (v[s.val] + x)).set t.val ((v.set s.val (v[s.val] + x))[t.val] + y) =
      (v.set t.val (v[t.val] + y)).set s.val ((v.set t.val (v[t.val] + y))[s.val] + x) := by
  by_cases h : s.val = t.val
  · simp only [h, Vector.getElem_set_self, Vector.set_set, add_right_comm]
  · rw [Vector.getElem_set_ne _ _ h, Vector.getElem_set_ne _ _ (Ne.symm h), Vector.set_comm _ _ h]

theorem set_add_neg [AddGroup M] (v : Vector M 8) (s : Fin 8) (x : M) :
    (v.set s.val (v[s.val] + x)).set s.val ((v.set s.val (v[s.val] + x))[s.val] + -x) = v := by
  rw [Vector.getElem_set_self, add_neg_cancel_right, Vector.set_set, Vector.set_getElem_self]

end

/-! ### The position (R148) -/

theorem undrawParts_drawParts (v : Vector Int 8) (parts : List Lot) : undrawParts (drawParts v parts) parts = v :=
  foldl_undone (fun v _ _ => set_add_comm v ..) (fun v _ => set_add_neg v ..) parts v

theorem Position.unaccrue_accrue (q : Position) (amount : Nat) (parts : List Lot) :
    (q.accrue amount parts).unaccrue amount parts = q := by
  simp only [accrue, unaccrue, add_sub_cancel_right, undrawParts_drawParts]

/-! ### The fund totals (R22, R23) -/

theorem addFor_neg_cancel (v : Vector Total 8) (s : Fin 8) (x : Total) : addFor (addFor v s (-x)) s x = v :=
  (congrArg (addFor _ s) (neg_neg x)).symm.trans (set_add_neg v s (-x))

theorem addFor_comm (v : Vector Total 8) (s t : Fin 8) (x y : Total) :
    addFor (addFor v s x) t y = addFor (addFor v t y) s x := set_add_comm ..

/-- A part that joins a lot moves the same value whatever step placed it. -/
theorem Funds.unspendJoined_eq (f : Funds) {parts : List Lot} {steps : List Nat} (h : steps.length = parts.length) :
    (List.zipWith (fun l n => (l, PartFate.joined n)) parts steps).foldl Funds.unspendPart f =
      parts.foldl (fun f l => f.unspendPart (l, .joined 0)) f := by
  induction parts generalizing steps f with
  | nil => rfl
  | cons l parts ih =>
    obtain ⟨n, steps, rfl⟩ := List.exists_cons_of_length_eq_add_one h
    exact ih _ (Nat.succ.inj h)

theorem Funds.unspendParts_spendParts (f : Funds) (parts : List Lot) :
    parts.foldl (fun f l => f.unspendPart (l, .joined 0)) (parts.foldl Funds.spendPart f) = f := by
  refine foldl_undone (fun f p q => ?_) (fun f p => ?_) parts f
  · simp only [spendPart, unspendPart, addFor_comm _ p.sponsor, add_sub_right_comm]
  · simp only [spendPart, unspendPart, addFor_neg_cancel, add_sub_cancel_right]

theorem Funds.unspendPaid_spend (f : Funds) (paid : Nat) (parts : List Lot) :
    (f.spend paid parts).unspendPaid paid = parts.foldl Funds.spendPart f := by
  rw [spend, ← List.foldl_hom (fun f : Funds => f.unspendPaid paid) (g₂ := spendPart) fun f p => ?_]
  · simp only [unspendPaid, sub_add_cancel, add_sub_cancel_right]
  · simp only [unspendPaid, spendPart, add_sub_right_comm]

/-! ### Parts put back on the lots they were drawn from (R4, R10) -/

/-- A lot inserted among lots it stands in order with. -/
theorem insertLot_between {before after : List Lot} {l : Lot} (h : LotsOrdered (before ++ l :: after)) :
    insertLot l (before ++ after) = before ++ l :: after := by
  induction before with
  | nil =>
    cases after with
    | nil => rfl
    | cons a after => exact if_pos ((List.pairwise_cons.mp h).1 a List.mem_cons_self)
  | cons b before ih =>
    obtain ⟨hb, hrest⟩ := List.pairwise_cons.mp h
    have hnot : ¬lotBefore l b = true := fun hlb => by
      have := hb l (by simp)
      rw [lotBefore_iff] at hlb this
      omega
    rw [List.cons_append, insertLot, if_neg hnot, ih hrest]
    rfl

/-- What a lot keeps of its value when some of it is taken: nothing is left of a lot taken whole. -/
def Lot.remainder (l : Lot) (taken : Nat) : List Lot :=
  (if taken < l.amount then some { l with amount := l.amount - taken } else none).toList

theorem Lot.remainder_zero {l : Lot} (h : 1 ≤ l.amount) : l.remainder 0 = [l] := congrArg Option.toList (if_pos h)

/-- What was taken of a lot joins what is left of it, or takes the lot's place again. -/
theorem mergeLot_putBack {before after : List Lot} {l : Lot} {taken : Nat} (ho : LotsOrdered (before ++ l :: after))
    (hlen : (before ++ l :: after).length ≤ 4) (hle : taken ≤ l.amount) :
    ∃ step, mergeLot (before ++ (l.remainder taken ++ after)) { l with amount := taken } =
      some (before ++ l :: after, step) := by
  unfold Lot.remainder
  split
  · have hsame : sameLot { l with amount := taken } { l with amount := l.amount - taken } = true :=
      (sameLot_iff ..).mpr ⟨rfl, rfl⟩
    have hapart : LotsApart (before ++ { l with amount := l.amount - taken } :: after) :=
      (lotsOrdered_of_keys ho (by simp [Lot.key])).apart
    refine ⟨1, (mergeLot_same (by simp [hsame])).trans ?_⟩
    rw [Option.toList_some, List.singleton_append, joinLot_split hapart hsame]
    simp only [Nat.sub_add_cancel hle]
  · obtain rfl : taken = l.amount := by omega
    have hapart := ho.apart.around (p := l) ((sameLot_iff ..).mpr ⟨rfl, rfl⟩)
    refine ⟨2, (mergeLot_room hapart ?_).trans ?_⟩
    · simp only [List.length_append, List.length_cons] at hlen ⊢
      omega
    · exact congrArg (fun k => some (k, 2)) (insertLot_between ho)

/-- Parts taken from usable lots and placed again one at a time give the lots back, and every part joins; the lots before
those taken from stand as they are. -/
theorem placeParts_takeLots {today : Nat} {reach : Lot → Bool} (hreach : ∀ l, reach l = true → today ≤ l.expiry)
    {lots : List Lot} (hpos : ∀ l ∈ lots, 1 ≤ l.amount) (before : List Lot) (share : Nat)
    (ho : LotsOrdered (before ++ lots)) (hlen : (before ++ lots).length ≤ 4) :
    (placeParts today (before ++ (takeLots reach share lots).2) (takeLots reach share lots).1).1 = before ++ lots ∧
      ∀ f ∈ (placeParts today (before ++ (takeLots reach share lots).2) (takeLots reach share lots).1).2,
        f.2 ≠ .writtenOff := by
  induction lots generalizing before share with
  | nil => exact ⟨rfl, fun f hf => absurd hf List.not_mem_nil⟩
  | cons l lots ih =>
    obtain ⟨taken, htaken⟩ : ∃ taken, taken = givenBy reach share (l :: lots) (l, 0) := ⟨_, rfl⟩
    have hgiven : taken = if reach l = true then min l.amount share else 0 := htaken.trans (givenBy_head ..)
    obtain ⟨hplaced, hjoined⟩ := ih (fun k hk => hpos k (List.mem_cons_of_mem _ hk)) (before ++ [l]) (share - taken)
      (by simpa using ho) (by simpa using hlen)
    rw [takeLots_cons reach share lots (hpos l List.mem_cons_self) htaken, ← Lot.remainder]
    simp only [List.append_assoc, List.singleton_append] at hplaced hjoined
    by_cases h0 : 0 < taken
    · have hle : taken ≤ l.amount := by split at hgiven <;> omega
      have hreached : reach l = true := by
        by_contra hr
        rw [if_neg hr] at hgiven
        omega
      have husable : ¬l.expiry < today := Nat.not_lt.mpr (hreach l hreached)
      have hkeys := (takeLots_keys reach (share - taken) lots).2
      have hkept : LotsOrdered (before ++ l :: (takeLots reach (share - taken) lots).2) :=
        lotsOrdered_of_keys ho (by simpa using hkeys)
      have hroom : (before ++ l :: (takeLots reach (share - taken) lots).2).length ≤ 4 := by
        have := hkeys.length_le
        simp only [List.length_append, List.length_cons, List.length_map] at this hlen ⊢
        omega
      obtain ⟨step, hm⟩ := mergeLot_putBack hkept hroom hle
      rw [if_pos h0, Option.toList_some, List.singleton_append, placeParts, if_neg husable, hm]
      exact ⟨hplaced, List.forall_mem_cons.mpr ⟨nofun, hjoined⟩⟩
    · obtain rfl : taken = 0 := by omega
      rw [if_neg h0, Option.toList_none, List.nil_append, Lot.remainder_zero (hpos l List.mem_cons_self)]
      exact ⟨hplaced, hjoined⟩

theorem Purse.usable_of_reachesLot {purse : Purse} {today : Nat} {l : Lot} (h : purse.reachesLot today l = true) :
    today ≤ l.expiry :=
  of_decide_eq_true ((Bool.and_eq_true _ _).mp h).1

/-- Settles O45: the lots by `placeParts_takeLots`, the position and the fund totals by undoing each movement. -/
theorem voidPutsTheCardBack : Obligations.VoidPutsTheCardBack := by
  refine ⟨fun today c asked purse order upTo d ho hlen hpos hd => ?_, Position.unaccrue_accrue,
    fun f paid parts steps hsteps => ?_⟩
  · obtain ⟨share, -, -, -, -, -, -, hpaid, -, hparts, hleft⟩ := drawdown_eq_some hd
    obtain ⟨hplaced, hjoined⟩ := placeParts_takeLots (fun _ => Purse.usable_of_reachesLot) hpos [] share ho hlen
    simp only [Card.draw, hparts, hleft]
    exact ⟨hplaced, Nat.sub_add_cancel (hpaid.trans (reachedPaid_le purse c)), hjoined⟩
  · rw [Funds.unspendJoined_eq _ hsteps, Funds.unspendPaid_spend, Funds.unspendParts_spendParts]

end Sys2Proof.Machine
end

section
/-! SET-REFERRAL-TIME and INQUIRE-REFERRAL: the setting, and what the queue and the lapse record answer (R116, R127). -/

namespace Sys2Proof.Machine

variable {t : State} {e : Referral} {number : Nat}

theorem setReferralTimeChange_eq (t : State) (seconds : Nat) : setReferralTimeChange seconds t =
    if t.engine = .unformatted then refuse .wrongState t
    else if seconds < 5 ∨ 300 < seconds then refuse .badField t
    else (t.withMemory { t.memory with referralTime := seconds },
      Reply.done (.referralTime t.memory.referralTime seconds)) := by
  have hrange : (!inRange 5 300 seconds) = true ↔ seconds < 5 ∨ 300 < seconds := by
    rw [Bool.not_eq_true', ← Bool.not_eq_true, inRange_iff]
    omega
  simp only [setReferralTimeChange, hrange]

theorem State.countReferrals_eq (t : State) (st : ReferralState) :
    t.countReferrals st = t.referrals.countP fun e => decide (e.state = st) :=
  List.countP_eq_length_filter.symm

/-- The flags of an INQUIRE-REFERRAL that gives an entry: the ZERO of the entry's card, when it is present (R1). -/
def Referral.flags (m : RecordMemory) (e : Referral) : AnswerFlags :=
  match m.findCard e.card with
  | some (_, c) => zeroOnly m c
  | none => AnswerFlags.none

theorem inquireReferralChange_unformatted (h : t.engine = .unformatted) (number : Nat) :
    inquireReferralChange number t = refuse .wrongState t := if_pos h

theorem inquireReferralChange_summary (h : t.engine ≠ .unformatted) : inquireReferralChange 0 t =
    (t, Reply.done (.referralSummary (t.referrals.countP fun e => decide (e.state = .opened))
      (t.referrals.countP fun e => decide (e.state = .lapsed)) (t.referrals.map Referral.number) t.memory.referralTime
      t.memory.nextReferral)) := by
  simp only [inquireReferralChange, if_neg h, if_true, State.countReferrals_eq]

theorem inquireReferralChange_entry (h : t.engine ≠ .unformatted) (h0 : number ≠ 0)
    (he : t.findReferral number = some e) :
    inquireReferralChange number t = (t, ⟨.done, e.flags t.memory, .referral e⟩) := by
  rw [inquireReferralChange, if_neg h, if_neg h0, he]
  rfl

/-- The answer to a number that no entry of the queue has, by the lapse record (R113). -/
def absentReferral (t : State) (number : Nat) : Reply :=
  ⟨if number ∈ t.lapseRecord then .declined .tooLate else .refused .unknownReferral, AnswerFlags.none, .empty⟩

theorem inquireReferralChange_absent (h : t.engine ≠ .unformatted) (h0 : number ≠ 0)
    (he : t.findReferral number = none) : inquireReferralChange number t = (t, absentReferral t number) := by
  simp only [inquireReferralChange, if_neg h, if_neg h0, he, List.contains_iff_mem, absentReferral]
  split <;> rfl

/-- Settles O47: the two requests by their cases; the deadline of a referral made, and what FORMAT sets. -/
theorem referralSettingAndInquiry : Obligations.ReferralSettingAndInquiry := by
  refine ⟨fun s t tag seconds h => ?_, fun s v card tag kind e h => ?_, fun s t tag day reading h he => ?_,
    fun s t tag number h => ?_⟩
  · refine (answerRequest_taken h ..).trans ?_
    rw [setReferralTimeChange_eq]
    split_ifs <;> rfl
  · unfold State.makeReferral at h
    split at h
    · cases h
    · cases h
      exact cappedTime_fst ..
  · have hf : formatChange day reading t = (t.formatted day reading, Reply.done (.formatted day reading)) := if_neg he
    refine ⟨_, answerRequest_taken h .., ?_⟩
    rw [hf]
    rfl
  · have run : ∀ {r : State × Reply}, inquireReferralChange number t = r →
        exec (.inquireReferral tag number) s = .next (r.1.enter 26 r.2.outcome r.2.flags tag r.2.body) :=
      fun hr => hr ▸ answerRequest_taken h ..
    dsimp only
    split
    · next he => exact run (inquireReferralChange_unformatted he number)
    next he =>
    split
    · next h0 =>
      subst h0
      exact run (inquireReferralChange_summary he)
    next h0 =>
    split
    · next e hf => exact ⟨_, run (inquireReferralChange_entry he h0 hf)⟩
    · next hf => exact run (inquireReferralChange_absent he h0 hf)

end Sys2Proof.Machine
end

section
/-! The lapse of a referral at its deadline, and the notice that follows it at once or from the waiting list (R122, R123,
R188). -/

namespace Sys2Proof.Machine

variable {s : State} {m : RecordMemory} {e : Referral} {slot : Slot} {c : Card} {number : Nat}

/-! ### Present cards changed in place -/

theorem RecordMemory.mapCard_found (h : m.findCard number = some (slot, c)) (f : Card → Card) :
    m.mapCard number f = m.putCard slot (f c) := by
  rw [RecordMemory.mapCard, h]

/-! ### A lapse and its notice (R122, R123) -/

/-- The card of an entry as its lapse leaves it (R122). -/
def Referral.lapsedCard (e : Referral) (c : Card) : Card :=
  { c with attemptPending := if e.kind = .unlock then false else c.attemptPending }

theorem State.lapseEntry_findCard (h : s.memory.findCard e.card = some (slot, c)) :
    (s.lapseEntry e).memory.findCard e.card = some (slot, e.lapsedCard c) := by
  rw [State.lapseEntry_memory, Referral.lapsedCard]
  split
  · rw [RecordMemory.mapCard_found h]
    exact RecordMemory.findCard_putCard h (RecordMemory.findCard_spec h).1
  · exact h

/-- A lapse writes nothing of Record Memory but the card of its entry. -/
theorem State.lapseEntry_putCard (h : s.memory.findCard e.card = some (slot, c)) (d : Card) :
    (s.lapseEntry e).memory.putCard slot d = s.memory.putCard slot d := by
  rw [State.lapseEntry_memory]
  split
  · rw [RecordMemory.mapCard_found h, RecordMemory.putCard_putCard]
  · rfl

theorem State.lapseEntry_cardAt_other (h : s.memory.findCard e.card = some (slot, c)) {other : Slot}
    (hne : other ≠ slot) : (s.lapseEntry e).memory.cardAt other = s.memory.cardAt other := by
  rw [State.lapseEntry_memory]
  split
  · rw [RecordMemory.mapCard_found h, RecordMemory.cardAt_putCard_other _ _ hne]
  · rfl

theorem State.lapseEntry_funds (h : s.memory.findCard e.card = some (slot, c)) :
    (s.lapseEntry e).memory.funds = s.memory.funds := by
  rw [State.lapseEntry_memory]
  split
  · rw [RecordMemory.mapCard_found h, RecordMemory.putCard_funds]
  · rfl

theorem State.dropReferral_eq (s : State) (number : Nat) :
    s.dropReferral number = { s with referrals := s.referrals.filter fun f => f.number ≠ number } := by
  have hp : (fun f : Referral => f.number != number) = fun f => decide (f.number ≠ number) := by
    funext f
    rw [Bool.eq_iff_iff]
    simp
  rw [State.dropReferral, hp]

/-- An entry leaves the queue as it would have left it OPEN. -/
theorem filter_lapsed (l : List Referral) (number : Nat) :
    (l.map fun r => if r.number = number then { r with state := .lapsed } else r).filter (fun f => f.number ≠ number) =
      l.filter fun f => f.number ≠ number := by
  induction l with
  | nil => rfl
  | cons r l ih =>
    rw [List.map_cons, List.filter_cons, List.filter_cons, ih]
    by_cases h : r.number = number <;> simp [h]

/-- A notice placed for an entry whose card is present (R123). -/
theorem State.placeLapseNotice_eq (h : s.memory.findCard e.card = some (slot, c)) :
    s.placeLapseNotice e =
      ({ s with
          referrals := s.referrals.filter fun f => f.number ≠ e.number
          lapseRecord := (if 32 ≤ s.lapseRecord.length then s.lapseRecord.drop 1 else s.lapseRecord) ++ [e.number]
          memory := s.memory.putCard slot { c with referralOpen := false } } : State).enter 65534 .notice
        AnswerFlags.none 0 (.lapseNotice e.number e.kind.noticeFields.1 e.tag e.card e.kind.noticeFields.2.1
          e.kind.noticeFields.2.2) := by
  rw [State.placeLapseNotice, RecordMemory.mapCard_found h, State.dropReferral_eq]
  rfl

/-- A lapse whose notice enters in the same change (R122, R123). -/
theorem State.lapseEntry_placeLapseNotice (h : s.memory.findCard e.card = some (slot, c)) :
    (s.lapseEntry e).placeLapseNotice e =
      ({ s with
          referrals := s.referrals.filter fun f => f.number ≠ e.number
          lapseRecord := (if 32 ≤ s.lapseRecord.length then s.lapseRecord.drop 1 else s.lapseRecord) ++ [e.number]
          memory := s.memory.putCard slot { e.lapsedCard c with referralOpen := false } } : State).enter 65534 .notice
        AnswerFlags.none 0 (.lapseNotice e.number e.kind.noticeFields.1 e.tag e.card e.kind.noticeFields.2.1
          e.kind.noticeFields.2.2) := by
  rw [State.placeLapseNotice_eq (State.lapseEntry_findCard h), State.lapseEntry_putCard h, State.lapseEntry_referrals,
    filter_lapsed]
  rfl

/-! ### When a lapse is taken, and where its notice goes (R122, R176, R188) -/

theorem State.lapsedWaits_eq_false (h : ∀ n, Producer.entry n ∉ s.waiting) : s.lapsedWaits = false := by
  rw [State.lapsedWaits, List.any_eq_false]
  intro p hp
  cases p with
  | entry n => exact absurd hp (h n)
  | descriptor i => exact Bool.false_ne_true
  | sweep => exact Bool.false_ne_true

/-- The first of a list to pass one test, found again among those that pass another that it passes too. -/
theorem find?_filter_of_find? {α : Type} {p q : α → Bool} {l : List α} {a : α} (h : l.find? q = some a)
    (hp : p a = true) : (l.filter p).find? q = some a := by
  induction l with
  | nil => cases h
  | cons b l ih =>
    rw [List.find?_cons] at h
    split at h
    · next hq =>
      cases h
      rw [List.filter_cons_of_pos hp, List.find?_cons_of_pos hq]
    · next hq =>
      rw [List.filter_cons]
      split
      · rw [List.find?_cons_of_neg (Bool.not_eq_true _ ▸ hq), ih h]
      · exact ih h

/-- The entry of a number is the one that lapses when it is OPEN and due, and none due falls earlier. -/
theorem State.nextLapse_eq (hb : s.lapseBlocked = false) (hf : s.findReferral number = some e) (ho : e.state = .opened)
    (hd : e.deadline ≤ s.memory.clock)
    (hfirst : ∀ f ∈ s.referrals, f.state = .opened → f.deadline ≤ s.memory.clock → e.deadline ≤ f.deadline) :
    s.nextLapse number = some e := by
  rw [State.nextLapse, hb, if_neg Bool.false_ne_true]
  refine find?_filter_of_find? (find?_filter_of_find? hf (by simp [ho, hd])) ?_
  rw [List.all_eq_true]
  intro f hf
  simp only [State.dueLapses, List.mem_filter, Bool.and_eq_true, decide_eq_true_eq] at hf
  obtain ⟨hmem, hopen, hdue⟩ := hf
  exact decide_eq_true (hfirst f hmem hopen hdue)

theorem execLapse_next (hp : s.powered = true) (he : s.engine ≠ .unformatted) (hn : s.nextLapse number = some e) :
    exec (.lapse number) s = .next ((s.lapseEntry e).offerLapse e) := by
  rw [show exec (.lapse number) s = execLapse number s from rfl, execLapse, whenPowered_on hp, if_neg he, hn]
  rfl

theorem State.offerLapse_placed (hs : s.slotFree = true) (hw : s.lapsedWaits = false) (e : Referral) :
    s.offerLapse e = s.placeLapseNotice e := by
  rw [State.offerLapse, hs, hw]
  rfl

theorem State.offerLapse_waits (h : s.slotFree = false ∨ s.lapsedWaits = true) (e : Referral) :
    s.offerLapse e = s.wait (.entry e.number) := by
  rw [State.offerLapse]
  rcases h with h | h <;> simp [h]

/-- LAPSE_NOTICE at an entry that heads the waiting list (R188). -/
theorem execLapseNotice_head (hp : s.powered = true) {rest : List Producer} (hw : s.waiting = .entry number :: rest)
    (hf : s.findReferral number = some e) :
    exec .lapseNotice s = .next (if s.slotFree then State.placeLapseNotice { s with waiting := rest } e else s) := by
  refine (whenPowered_on hp _).trans ?_
  rw [State.serveLapse, hw]
  simp only [hf]

/-- Settles O48: the lapse is the one `nextLapse_eq` gives, and its notice enters or waits as a slot is free or not. -/
theorem lapsePlacesItsNotice : Obligations.LapsePlacesItsNotice := by
  intro s number e slot c hp hf hc fields pending
  have hnum : e.number = number := (State.findReferral_queues hf).2
  subst hnum
  refine ⟨fun he ho hd hfirst => ⟨fun hfree hnone => ?_, fun hfull => ?_⟩, fun rest hw => ⟨fun hfree => ?_, fun hfull => ?_⟩⟩
  · have hwaits := State.lapsedWaits_eq_false hnone
    have hb : s.lapseBlocked = false := by rw [State.lapseBlocked, hwaits, Bool.and_false]
    rw [execLapse_next hp he (State.nextLapse_eq hb hf ho hd hfirst),
      State.offerLapse_placed (s := s.lapseEntry e) (State.slotFree_of_lt hfree) hwaits, State.lapseEntry_placeLapseNotice hc]
    rfl
  · have hslot := State.slotFree_of_ge hfull
    have hb : s.lapseBlocked = false := by rw [State.lapseBlocked, hslot, Bool.false_and]
    refine ⟨_, execLapse_next hp he (State.nextLapse_eq hb hf ho hd hfirst), ?_⟩
    rw [State.offerLapse_waits (s := s.lapseEntry e) (.inl hslot)]
    exact ⟨rfl, rfl, rfl, (RecordMemory.findCard_spec (State.lapseEntry_findCard hc)).2.1,
      fun other hne => State.lapseEntry_cardAt_other hc hne, State.lapseEntry_funds hc⟩
  · rw [execLapseNotice_head hp hw hf, if_pos (State.slotFree_of_lt hfree),
      State.placeLapseNotice_eq (s := { s with waiting := rest }) hc]
  · rw [execLapseNotice_head hp hw hf, if_neg (by rw [State.slotFree_of_ge hfull]; exact Bool.false_ne_true)]

end Sys2Proof.Machine
end

section
/-! DECIDE: a denial, an approved UNLOCK, and an approved redemption or hold judged on the touched card (R69, R117 to
R121). -/

namespace Sys2Proof.Machine

variable {s t q : State} {tag number decision index : Nat} {approve : Bool} {e : Referral} {slot : Slot} {c c0 : Card}
  {terms : Terms} {request : Attempted} {entry : Option Nat} {reason : DeclineReason} {r : Merchant}

/-! ### The request (R117) -/

theorem exec_decide (h : s.take (.decide tag number decision) = some t) {a : State × Reply}
    (ha : decideChange number decision t = a) :
    exec (.decide tag number decision) s = .next (a.1.enter 24 a.2.outcome a.2.flags tag a.2.body) :=
  ha ▸ answerRequest_taken h ..

section
variable (he : t.engine ≠ .unformatted) (hn : 1 ≤ number) (hd : decisionOf decision = some approve)
include he hn hd

theorem decideChange_lapsed (hf : t.findReferral number = some e) (hs : e.state = .lapsed) :
    decideChange number decision t = (t, ⟨.declined .tooLate, AnswerFlags.none, .empty⟩) := by
  simp only [decideChange, if_neg he, if_neg (Nat.ne_of_gt hn), hd, hf, hs]

theorem decideChange_absent (hf : t.findReferral number = none) :
    decideChange number decision t = (t, absentReferral t number) := by
  simp only [decideChange, if_neg he, if_neg (Nat.ne_of_gt hn), hd, hf, List.contains_iff_mem, absentReferral]
  split <;> rfl

theorem decideChange_opened (hf : t.findReferral number = some e) (hs : e.state = .opened)
    (hc : t.memory.findCard e.card = some (slot, c)) :
    decideChange number decision t = if approve = true then approveEntry t e slot c else denyEntry t e slot c := by
  simp only [decideChange, if_neg he, if_neg (Nat.ne_of_gt hn), hd, hf, hs, hc]

end

/-! ### DENY, and an approved UNLOCK (R69, R118, R121) -/

/-- The card of a denied entry (R69, R118). -/
def Referral.deniedCard (e : Referral) (c : Card) : Card :=
  { c with referralOpen := false, attemptPending := if e.kind = .unlock then false else c.attemptPending }

theorem denyEntry_eq (t : State) (e : Referral) (slot : Slot) (c : Card) :
    denyEntry t e slot c =
      let m := t.memory.putCard slot (e.deniedCard c)
      ((t.dropReferral e.number).withMemory m, decidedReply e (.declined .denied, zeroOnly m (e.deniedCard c),
        .declined none none none none)) := by
  have hcard : clearReferralOpen (if e.kind = .unlock then denyUnlock c else c) = e.deniedCard c := by
    unfold Referral.deniedCard
    split <;> rfl
  rw [denyEntry, hcard]

theorem approveEntry_unlock (hk : e.kind = .unlock) (t : State) (slot : Slot) (c : Card) :
    approveEntry t e slot c = approveUnlockEntry t e slot c := by
  simp only [approveEntry, hk]

/-- The approval of an entry that a debit attempt made (R119, R120). -/
theorem approveEntry_attempt (hk : e.kind = .ofAttempt terms entry request) (t : State) (slot : Slot) (c : Card) :
    approveEntry t e slot c =
      let a := approveDebit (t.dropReferral e.number) slot c terms request
      (a.1, decidedReply e a.2) := by
  cases entry <;> cases request <;> simp only [approveEntry, hk, ReferralKind.ofAttempt]

/-! ### An approved redemption or hold (R119, R120) -/

/-- The card of an approved attempt, touched and without its open referral. -/
def RecordMemory.approvedCard (m : RecordMemory) (c : Card) : Card := clearReferralOpen (m.touch c).card

/-- The state an approval works on. -/
def State.approving (q : State) (c : Card) : State := q.withMemory (q.memory.touch c).memory

/-- An approval that steps 1 to 4 end is declined; at step 3 the blocked attempt is counted (R64, R119). -/
theorem approveDebit_declined
    (hs : standing (q.memory.approvedCard c0) ((q.memory.findMerchant terms.merchant).map Prod.snd) = some reason) :
    approveDebit q slot c0 terms request =
      let c := q.memory.approvedCard c0
      if reason = .cardLocked then
        declineAttempt (q.approving c0) slot (c.blocked terms.merchant) (q.memory.touch c0).wrote reason
          (some terms.method) none none (decide (255 ≤ c.blockedCount))
      else
        declineAttempt (q.approving c0) slot c (q.memory.touch c0).wrote reason (some terms.method) none none false := by
  have hs' : standing (clearReferralOpen (q.memory.touch c0).card)
      (((q.withMemory (q.memory.touch c0).memory).memory.findMerchant terms.merchant).map Prod.snd) = some reason := hs
  simp only [approveDebit, hs', Option.getD_some, endedEarly]
  split <;> rfl

/-- An approval that passes steps 1 to 4 goes on to step 8 (R119, R120). -/
theorem approveDebit_finish (hm : q.memory.findMerchant terms.merchant = some (index, r))
    (hs : standing (q.memory.approvedCard c0) (some r) = none) :
    approveDebit q slot c0 terms request =
      finishAttempt (q.approving c0) slot (q.memory.approvedCard c0) (q.memory.touch c0).wrote index r
        ⟨terms.amount, terms.purse, terms.allowPartial⟩
        (terms.allowPartial && (q.memory.product c0.product).allowPartial) (some terms.method) none request := by
  have hm' : (q.memory.touch c0).memory.findMerchant terms.merchant = some (index, r) := hm
  have hs' : standing (clearReferralOpen (q.memory.touch c0).card) (some r) = none := hs
  have hp : (q.memory.touch c0).memory.product (clearReferralOpen (q.memory.touch c0).card).product =
      q.memory.product c0.product := product_touch ..
  simp only [approveDebit, hm', Option.map_some, hs', State.withMemory_memory, hp]
  cases request <;> rfl

/-- The product of the card an approval works on. -/
theorem State.approving_product (q : State) (c0 : Card) :
    (q.approving c0).memory.product (q.memory.approvedCard c0).product = q.memory.product c0.product := product_touch ..

/-- The standing of a card that steps 1 to 3 leave alone, by its merchant (R119). -/
theorem standing_passed (hb : c.base ≠ .expired) (hf : ¬c.frozen = true) (hl : ¬c.softLocked = true)
    (r : Option Merchant) :
    standing c r = if r = none ∨ r.map Merchant.state = some .suspended then some .merchantSuspended else none := by
  cases r <;> simp [standing, hb, hf, hl]

/-- An approved attempt answered under its entry's tag (R117). -/
theorem exec_decide_attempt (h : s.take (.decide tag number 0) = some t) (he : t.engine ≠ .unformatted)
    (hn : 1 ≤ number) (hf : t.findReferral number = some e) (ho : e.state = .opened)
    (hc : t.memory.findCard e.card = some (slot, c0)) (hk : e.kind = .ofAttempt terms entry request) {a : Attempt}
    (ha : approveDebit (t.dropReferral number) slot c0 terms request = a) :
    exec (.decide tag number 0) s =
      .next (a.1.enter 24 a.2.1 a.2.2.1 tag (.decided number e.kind e.tag a.2.2.2)) := by
  obtain rfl : e.number = number := (State.findReferral_queues hf).2
  refine (exec_decide h ((decideChange_opened he hn (approve := true) rfl hf ho hc).trans
    ((if_pos rfl).trans (approveEntry_attempt hk t slot c0)))).trans ?_
  rw [ha]
  rfl

/-- Settles O46: a number by what the queue and the lapse record have of it; an approved attempt by steps 1 to 4 and the ends
of its step 8. -/
theorem decideEndsTheReferral : Obligations.DecideEndsTheReferral := by
  intro s t tag number decision h he hn hd run
  obtain ⟨approve, happrove⟩ : ∃ approve, decisionOf decision = some approve := by
    rcases hd with rfl | rfl <;> exact ⟨_, rfl⟩
  refine ⟨?_, ?_, ?_⟩
  rotate_left
  · rintro (⟨e, hf, hs⟩ | ⟨hf, hrec⟩)
    · exact exec_decide h (decideChange_lapsed he hn happrove hf hs)
    · refine (exec_decide h (decideChange_absent he hn happrove hf)).trans ?_
      rw [absentReferral, if_pos hrec]
  · intro hf hrec
    refine (exec_decide h (decideChange_absent he hn happrove hf)).trans ?_
    rw [absentReferral, if_neg hrec]
  intro e slot c0 hf ho hc q answers
  have hnum : e.number = number := (State.findReferral_queues hf).2
  refine ⟨?_, ?_, ?_⟩
  · rintro rfl
    subst hnum
    refine (exec_decide h ((decideChange_opened he hn (approve := false) rfl hf ho hc).trans
      ((if_neg Bool.false_ne_true).trans (denyEntry_eq t e slot c0)))).trans ?_
    dsimp only [answers, decidedReply]
    rw [zeroOnly_eq]
    rfl
  · rintro rfl hk
    subst hnum
    refine (exec_decide h ((decideChange_opened he hn (approve := true) rfl hf ho hc).trans
      ((if_pos rfl).trans (approveEntry_unlock hk t slot c0)))).trans ?_
    dsimp only [answers, approveUnlockEntry, decidedReply]
    rw [zeroOnly_eq]
    rfl
  · rintro terms life rfl k c p ends found debits holds hattempt
    have exec : ∀ {entry request} {a : Attempt}, e.kind = .ofAttempt terms entry request →
        approveDebit q slot c0 terms request = a →
        run = .next (a.1.enter 24 a.2.1 a.2.2.1 tag (.decided number e.kind e.tag a.2.2.2)) :=
      fun hk ha => exec_decide_attempt h he hn hf ho hc hk ha
    have hdebits : debits → ∃ entry, e.kind = .ofAttempt terms entry .redeem := by
      rintro (hk | ⟨n, hk⟩)
      · exact ⟨none, hk⟩
      · exact ⟨some n, hk⟩
    have hholds : holds → ∃ entry, e.kind = .ofAttempt terms entry (.hold life) := by
      rintro (hk | ⟨n, hk⟩)
      · exact ⟨none, hk⟩
      · exact ⟨some n, hk⟩
    obtain ⟨entry, request, hk⟩ : ∃ entry request, e.kind = .ofAttempt terms entry request :=
      hattempt.elim (fun hd => (hdebits hd).imp fun _ hk => ⟨_, hk⟩) fun hh => (hholds hh).imp fun _ hk => ⟨_, hk⟩
    have early : ∀ {reason}, standing c (found.map Prod.snd) = some reason → reason ≠ .cardLocked →
        ends c reason false := fun hs hl =>
      exec hk (((approveDebit_declined (q := q) hs).trans (if_neg hl)).trans (declineAttempt_eq ..))
    split
    · next hb => exact early (by simp [standing, hb]) nofun
    next hb =>
    split
    · next hfr => exact early (by simp [standing, hb, hfr]) nofun
    next hfr =>
    split
    · next hl =>
      have hs : standing c (found.map Prod.snd) = some .cardLocked := by simp [standing, hb, hfr, hl]
      exact exec hk (((approveDebit_declined (q := q) hs).trans (if_pos rfl)).trans (declineAttempt_eq ..))
    next hl =>
    have hst := standing_passed hb hfr hl
    refine ⟨fun hm => early (by rw [hst, hm]; rfl) nofun, ?_⟩
    intro index r hm
    split
    · next hsusp => exact early (by rw [hst, hm]; simp [hsusp]) nofun
    next hsusp =>
    have hs : standing c (some r) = none := by rw [hst]; simp [hsusp]
    intro drawn stamp
    have finish : ∀ {entry request} {a : Attempt}, e.kind = .ofAttempt terms entry request →
        finishAttempt (q.approving c0) slot c k.wrote index r ⟨terms.amount, terms.purse, terms.allowPartial⟩
          (terms.allowPartial && p.allowPartial) (some terms.method) none request = a →
        run = .next (a.1.enter 24 a.2.1 a.2.2.1 tag (.decided number e.kind e.tag a.2.2.2)) :=
      fun hk ha => exec hk ((approveDebit_finish (q := q) hm hs).trans ha)
    have hp : (q.approving c0).memory.product c.product = p := q.approving_product c0
    have hid : r.id = terms.merchant := (RecordMemory.findMerchant_spec hm).2.1
    have hnumber : c.number = e.card := (t.memory.touch_number c0).trans (RecordMemory.findCard_spec hc).1
    have hdraw : drawdown (q.approving c0).memory.today c terms.amount terms.purse
        ((q.approving c0).memory.product c.product).order (terms.allowPartial && p.allowPartial) = drawn := by
      rw [hp]
      rfl
    have declines : ∀ {reason}, holds → (q.approving c0).memory.place c index r terms.amount terms.purse
        (terms.allowPartial && p.allowPartial) .hold (p.expiryTime t.memory.clock life) = .error reason →
        ends c reason false := fun hh hplace =>
      (hholds hh).elim fun _ hk => finish hk ((finishHold_declined hp hplace).trans (declineAttempt_eq ..))
    have room : c.holds.length < p.holdsPerCard →
        c.holds.length < ((q.approving c0).memory.product c.product).holdsPerCard := fun hroom => by rw [hp]; exact hroom
    refine ⟨fun hdb hd => ?_, fun hh hfull => declines hh (RecordMemory.place_holdsFull (by rw [hp]; exact hfull)),
      fun hh hroom hfull => declines hh (RecordMemory.place_poolFull (room hroom)
        (RecordMemory.freeHoldSlot_eq_none.mpr hfull)), fun hh hroom hfree hd => ?_, ?_⟩
    · obtain ⟨entry, hk⟩ := hdebits hdb
      exact finish hk ((finishRedeem_short (hdraw.trans hd)).trans (declineAttempt_eq ..))
    · have hsome : (q.approving c0).memory.freeHoldSlot ≠ none := fun hnone => by
        obtain ⟨j, hj, hrec⟩ := hfree
        exact RecordMemory.freeHoldSlot_eq_none.mp hnone j hj hrec
      obtain ⟨n, hslot⟩ := Option.ne_none_iff_exists'.mp hsome
      exact declines hh (RecordMemory.place_short (room hroom) hslot (hdraw.trans hd))
    intro d hd hg total
    refine ⟨fun hdb hover => ?_, fun hdb hunder => ?_, ?_⟩
    · obtain ⟨entry, hk⟩ := hdebits hdb
      exact finish hk ((finishRedeem_over (hdraw.trans hd) (by rw [hg]; exact hover)).trans (declineAttempt_eq ..))
    · obtain ⟨entry, hk⟩ := hdebits hdb
      have done := finishRedeem_done (slot := slot) (index := index) (wrote := k.wrote) (method := some terms.method) (mark := none)
        (hdraw.trans hd) hg (by rw [hg]; exact hunder)
      rw [hg] at done
      dsimp only
      rw [← hid]
      exact finish hk done
    · intro n hh hroom hn hfree hlow seconds expires handle
      obtain ⟨entry, hk⟩ := hholds hh
      have hslot : (q.approving c0).memory.freeHoldSlot = some n :=
        RecordMemory.freeHoldSlot_eq_some.mpr ⟨hn, hfree, hlow⟩
      dsimp only
      rw [← hnumber, ← hid]
      exact finish hk (finishHold_placed hp (RecordMemory.place_ok (room hroom) hslot (hdraw.trans hd)))

end Sys2Proof.Machine
end

section
/-! CLOSE-TRADING: every OPEN entry lapses, its answer enters, and the lapsed entries offer their notices in queue order (R123,
R126, R191). -/

namespace Sys2Proof.Machine

variable {s t : State} {m b : RecordMemory} {f : Card → Card} {l : List Referral} {e : Referral} {slot : Slot} {c : Card}

/-! ### The cards of several entries changed in their places -/

/-- The cards of the entries of a list changed, one after another. -/
def RecordMemory.mapEntries (f : Card → Card) (m : RecordMemory) (l : List Referral) : RecordMemory :=
  l.foldl (fun m e => m.mapCard e.card f) m

theorem RecordMemory.mapCard_absent {number : Nat} (h : m.findCard number = none) (f : Card → Card) :
    m.mapCard number f = m := by
  rw [RecordMemory.mapCard, h]

/-- A lookup after the card of a number is changed and keeps its number. -/
theorem RecordMemory.findCard_mapCard (hf : ∀ c, (f c).number = c.number) (m : RecordMemory) (number k : Nat) :
    (m.mapCard number f).findCard k =
      if k = number then (m.findCard k).map fun p => (p.1, f p.2) else m.findCard k := by
  cases h : m.findCard number with
  | none =>
    rw [RecordMemory.mapCard_absent h]
    split
    · next hk => rw [hk, h]; rfl
    · rfl
  | some p =>
    obtain ⟨slot, c⟩ := p
    rw [RecordMemory.mapCard_found h,
      RecordMemory.findCard_putCard_eq h ((hf c).trans (RecordMemory.findCard_spec h).1)]
    split
    · next hk => rw [hk, h]; rfl
    · rfl

theorem RecordMemory.findCard_mapEntries (hf : ∀ c, (f c).number = c.number) (hn : (l.map Referral.card).Nodup)
    (k : Nat) : (m.mapEntries f l).findCard k =
      if k ∈ l.map Referral.card then (m.findCard k).map fun p => (p.1, f p.2) else m.findCard k := by
  induction l generalizing m with
  | nil => rfl
  | cons e l ih =>
    rw [List.map_cons, List.nodup_cons] at hn
    rw [RecordMemory.mapEntries, List.foldl_cons, ← RecordMemory.mapEntries, ih hn.2,
      RecordMemory.findCard_mapCard hf, List.map_cons]
    by_cases hk : k = e.card
    · subst hk
      rw [if_neg hn.1, if_pos rfl, if_pos List.mem_cons_self]
    · simp only [List.mem_cons, hk, false_or, if_false]

/-- Cards changed leave every card in its slot, and the other slots alone. -/
theorem RecordMemory.CardsBeside.mapEntries {numbers : List Nat} (hf : ∀ c, (f c).number = c.number) (l : List Referral)
    (h : b.CardsBeside numbers m) : b.CardsBeside (numbers ++ l.map Referral.card) (m.mapEntries f l) := by
  induction l generalizing m numbers with
  | nil => rwa [List.map_nil, List.append_nil]
  | cons e l ih =>
    have hstep : b.CardsBeside (numbers ++ [e.card]) (m.mapCard e.card f) := by
      unfold RecordMemory.mapCard
      split
      · next slot c hc => exact h.putCard hc ((hf c).trans (RecordMemory.findCard_spec hc).1)
      · exact h.mono (List.subset_append_left ..)
    have := ih hstep
    rwa [List.append_assoc] at this

/-- A memory that differs from another in its card tables alone still does when cards are changed. -/
theorem RecordMemory.mapEntries_frame (f : Card → Card) (l : List Referral)
    (h : m = { b with mainCards := m.mainCards, poolCards := m.poolCards }) :
    m.mapEntries f l =
      { b with mainCards := (m.mapEntries f l).mainCards, poolCards := (m.mapEntries f l).poolCards } := by
  refine foldl_keeps (Q := fun u : RecordMemory => u = { b with mainCards := u.mainCards, poolCards := u.poolCards })
    (fun u e h => ?_) l m h
  unfold RecordMemory.mapCard
  split
  · next slot c hc =>
    rw [h]
    cases slot <;> rfl
  · exact h

/-! ### Every OPEN entry lapses (R122, R126) -/

/-- The entries of a list lapse one after another. -/
theorem foldl_lapseEntry (s : State) (l : List Referral) : l.foldl State.lapseEntry s =
    { s with
      referrals := s.referrals.map fun r => if r.number ∈ l.map Referral.number then { r with state := .lapsed } else r
      memory := s.memory.mapEntries denyUnlock (l.filter fun e => e.kind = .unlock) } := by
  induction l generalizing s with
  | nil => simp [RecordMemory.mapEntries]
  | cons e l ih =>
    rw [List.foldl_cons, ih]
    unfold State.lapseEntry
    dsimp only
    congr 1
    · by_cases hk : e.kind = .unlock
      · rw [if_pos hk, List.filter_cons, if_pos (decide_eq_true hk)]
        rfl
      · rw [if_neg hk, List.filter_cons, if_neg (by simpa using hk)]
    · rw [List.map_map]
      refine List.map_congr_left fun r _ => ?_
      by_cases hr : r.number = e.number <;> simp [hr]

/-- What a LAPSE-NOTICE carries (R123, R201). -/
def Referral.notice (e : Referral) : AnswerBody :=
  .lapseNotice e.number e.kind.noticeFields.1 e.tag e.card e.kind.noticeFields.2.1 e.kind.noticeFields.2.2

/-- The notices of entries in order, the first numbered after `last`. -/
def noticesAfter (last : Nat) (l : List Referral) : List Answer :=
  l.mapIdx fun k e => ⟨65534, .notice, AnswerFlags.none, 0, (last + 1 + k) % 4294967296, e.notice⟩

theorem noticesAfter_cons (last : Nat) (e : Referral) (l : List Referral) :
    noticesAfter last (e :: l) = ⟨65534, .notice, AnswerFlags.none, 0, (last + 1) % 4294967296, e.notice⟩ ::
      noticesAfter ((last + 1) % 4294967296) l := by
  rw [noticesAfter, List.mapIdx_cons, noticesAfter]
  congr 2
  funext k e
  congr 1
  omega

/-- The notices of a list of entries placed one after another (R123). -/
theorem foldl_placeLapseNotice (s : State) (l : List Referral) : ∃ last sent,
    l.foldl State.placeLapseNotice s =
      { s with
        answers := s.answers ++ noticesAfter s.lastNumber l
        lastNumber := last
        interruptsSent := sent
        referrals := s.referrals.filter fun e => e.number ∉ l.map Referral.number
        lapseRecord := l.foldl (fun r e => lapseRecordWith r e.number) s.lapseRecord
        memory := s.memory.mapEntries clearReferralOpen l } := by
  induction l generalizing s with
  | nil => exact ⟨s.lastNumber, s.interruptsSent, by simp [noticesAfter, RecordMemory.mapEntries]⟩
  | cons e l ih =>
    obtain ⟨last, sent, h⟩ := ih (s.placeLapseNotice e)
    refine ⟨last, sent, ?_⟩
    rw [List.foldl_cons, h, noticesAfter_cons]
    unfold State.placeLapseNotice State.enterNotice State.enter State.dropReferral
    dsimp only
    congr 1
    · rw [List.append_assoc]
      rfl
    · rw [List.filter_filter]
      refine List.filter_congr fun r _ => ?_
      rw [Bool.eq_iff_iff]
      simp [and_comm]

/-- Entries that find no slot join the waiting list in order (R188). -/
theorem foldl_wait (s : State) (l : List Referral) :
    l.foldl (fun s e => s.wait (.entry e.number)) s =
      { s with waiting := s.waiting ++ l.map fun e => .entry e.number } := by
  induction l generalizing s with
  | nil => rw [List.map_nil, List.append_nil]; rfl
  | cons e l ih =>
    rw [List.foldl_cons, ih, List.map_cons, State.wait]
    dsimp only
    rw [List.append_assoc]
    rfl

/-! ### The notices that find a slot (R123, R188, log 20) -/

/-- An entry that waits keeps every later one waiting. -/
theorem foldl_offerLapse_waits (l : List Referral) (h : s.slotFree = false ∨ s.lapsedWaits = true) :
    l.foldl State.offerLapse s = l.foldl (fun s e => s.wait (.entry e.number)) s := by
  induction l generalizing s with
  | nil => rfl
  | cons e l ih =>
    rw [List.foldl_cons, List.foldl_cons, State.offerLapse_waits h]
    refine ih (.inr ?_)
    rw [State.lapsedWaits, State.wait_waiting, List.any_append]
    exact Bool.or_true _

/-- How many of so many notices find a slot: none while an entry that lapsed before waits. -/
def State.noticesPlaced (s : State) (n : Nat) : Nat := if s.lapsedWaits = true then 0 else min n (64 - s.answers.length)

/-- Entries that offer their notices: the first of them place theirs, the others wait. -/
theorem foldl_offerLapse (s : State) (l : List Referral) :
    l.foldl State.offerLapse s =
      (l.drop (s.noticesPlaced l.length)).foldl (fun s e => s.wait (.entry e.number))
        ((l.take (s.noticesPlaced l.length)).foldl State.placeLapseNotice s) := by
  induction l generalizing s with
  | nil => simp
  | cons e l ih =>
    by_cases h : s.slotFree = false ∨ s.lapsedWaits = true
    · have h0 : s.noticesPlaced (e :: l).length = 0 := by
        unfold State.noticesPlaced
        split
        · rfl
        · next hw =>
          have hfull := h.resolve_right hw
          rw [State.slotFree, decide_eq_false_iff_not, show answerCapacity = 64 from rfl] at hfull
          omega
      rw [h0, foldl_offerLapse_waits _ h]
      rfl
    · obtain ⟨hslot, hw⟩ := not_or.mp h
      rw [Bool.not_eq_false] at hslot
      rw [Bool.not_eq_true] at hw
      have hn : s.noticesPlaced (e :: l).length = (s.placeLapseNotice e).noticesPlaced l.length + 1 := by
        have hw' : (s.placeLapseNotice e).lapsedWaits = false := hw
        have hlen : (s.placeLapseNotice e).answers.length = s.answers.length + 1 := by
          simp [State.placeLapseNotice]
        have := s.slotFree_iff.mp hslot
        rw [State.noticesPlaced, State.noticesPlaced, hw, hw', if_neg Bool.false_ne_true, if_neg Bool.false_ne_true, hlen,
          List.length_cons]
        omega
      rw [hn, List.take_succ_cons, List.drop_succ_cons, List.foldl_cons, List.foldl_cons,
        State.offerLapse_placed hslot hw, ih]

/-! ### CLOSE-TRADING (R126, R191) -/

/-- Every entry of the queue is LAPSED once its OPEN ones are. -/
theorem State.map_openReferrals (t : State) :
    t.referrals.map (fun r => if r.number ∈ t.openReferrals.map Referral.number then { r with state := .lapsed } else r) =
      t.referrals.map fun e => { e with state := .lapsed } := by
  refine List.map_congr_left fun r hr => ?_
  split
  · rfl
  · next hout =>
    have hs : r.state = .lapsed := by
      cases hs : r.state with
      | lapsed => rfl
      | opened => exact absurd (List.mem_map_of_mem (List.mem_filter.mpr ⟨hr, decide_eq_true hs⟩)) hout
    rw [← hs]

/-- How many notices of a CLOSE-TRADING find a slot beside its answer. -/
def State.closingNotices (t : State) : Nat :=
  if t.lapsedWaits = true then 0 else min t.openReferrals.length (63 - t.answers.length)

/-- Everything a CLOSE-TRADING taken in TRADING changes. -/
theorem State.closeTrading_eq (t : State) (tag : Nat) : ∃ last sent, t.closeTrading tag =
    { t with
      engine := .setup
      answers := t.answers ++ ⟨4, .done, AnswerFlags.none, tag, (t.lastNumber + 1) % 4294967296,
        .tradingClosed t.openReferrals.length⟩ ::
          noticesAfter ((t.lastNumber + 1) % 4294967296) (t.openReferrals.take t.closingNotices)
      lastNumber := last
      interruptsSent := sent
      waiting := t.waiting ++ (t.openReferrals.drop t.closingNotices).map fun e => .entry e.number
      referrals := (t.referrals.filter fun e =>
        e.number ∉ (t.openReferrals.take t.closingNotices).map Referral.number).map fun e => { e with state := .lapsed }
      lapseRecord := (t.openReferrals.take t.closingNotices).foldl (fun r e => lapseRecordWith r e.number) t.lapseRecord
      memory := (t.memory.mapEntries denyUnlock (t.openReferrals.filter fun e => e.kind = .unlock)).mapEntries
        clearReferralOpen (t.openReferrals.take t.closingNotices) } := by
  let lapsed : State := { t with
    engine := .setup
    referrals := t.referrals.map fun e => { e with state := .lapsed }
    memory := t.memory.mapEntries denyUnlock (t.openReferrals.filter fun e => e.kind = .unlock) }
  let v := lapsed.enter 4 .done AnswerFlags.none tag (.tradingClosed t.openReferrals.length)
  have hclose : t.closeTrading tag = t.openReferrals.foldl State.offerLapse v := by
    rw [State.closeTrading, foldl_lapseEntry]
    dsimp only
    rw [State.map_openReferrals]
  have hn : v.noticesPlaced t.openReferrals.length = t.closingNotices := by
    have hlen : v.answers.length = t.answers.length + 1 := by simp [v, lapsed]
    unfold State.noticesPlaced State.closingNotices
    rw [hlen, Nat.add_comm, Nat.sub_add_eq]
    rfl
  obtain ⟨last, sent, hplace⟩ := foldl_placeLapseNotice v (t.openReferrals.take t.closingNotices)
  refine ⟨last, sent, ?_⟩
  rw [hclose, foldl_offerLapse, hn, hplace, foldl_wait]
  have hrefs : v.referrals.filter (fun e => e.number ∉ (t.openReferrals.take t.closingNotices).map Referral.number) =
      (t.referrals.filter fun e => e.number ∉ (t.openReferrals.take t.closingNotices).map Referral.number).map fun e =>
        { e with state := .lapsed } := List.filter_map
  have hans : v.answers ++ noticesAfter v.lastNumber (t.openReferrals.take t.closingNotices) =
      t.answers ++ ⟨4, .done, AnswerFlags.none, tag, (t.lastNumber + 1) % 4294967296,
        .tradingClosed t.openReferrals.length⟩ ::
          noticesAfter ((t.lastNumber + 1) % 4294967296) (t.openReferrals.take t.closingNotices) :=
    List.append_assoc ..
  rw [hrefs, hans]
  rfl

/-! ### The cards of the lapsed entries -/

/-- With cards of their own, an entry's card is among the first `n` exactly when the entry is. -/
theorem card_mem_take (hn : (l.map Referral.card).Nodup) {k : Nat} (hk : l[k]? = some e) (n : Nat) :
    e.card ∈ (l.take n).map Referral.card ↔ k < n := by
  obtain ⟨hlt, rfl⟩ := List.getElem?_eq_some_iff.mp hk
  rw [List.map_take, List.mem_take_iff_getElem]
  constructor
  · rintro ⟨j, hj, hcard⟩
    have hjk : j = k := (hn.getElem_inj_iff (hi := by omega) (hj := by simpa using hlt)).mp
      (hcard.trans (List.getElem_map ..).symm)
    omega
  · intro hkn
    exact ⟨k, by simpa using ⟨hkn, hlt⟩, List.getElem_map ..⟩

/-- The card of a lapsed entry after a CLOSE-TRADING (R122, R123). -/
theorem cardAt_closeTrading (hn : (l.map Referral.card).Nodup) {k : Nat} (hk : l[k]? = some e)
    (hf : m.findCard e.card = some (slot, c)) (n : Nat) :
    ((m.mapEntries denyUnlock (l.filter fun e => e.kind = .unlock)).mapEntries clearReferralOpen (l.take n)).cardAt slot =
      some { c with
        referralOpen := if k < n then false else c.referralOpen
        attemptPending := if e.kind = .unlock then false else c.attemptPending } := by
  have hmem : e ∈ l := List.mem_of_getElem? hk
  have hkind : e.card ∈ (l.filter fun e => decide (e.kind = .unlock)).map Referral.card ↔ e.kind = .unlock := by
    refine ⟨fun h => ?_, fun h => List.mem_map_of_mem (List.mem_filter.mpr ⟨hmem, decide_eq_true h⟩)⟩
    obtain ⟨r, hr, hcard⟩ := List.mem_map.mp h
    obtain ⟨hrl, hrk⟩ := List.mem_filter.mp hr
    rw [← List.inj_on_of_nodup_map hn hrl hmem hcard]
    exact of_decide_eq_true hrk
  have hfound : ((m.mapEntries denyUnlock (l.filter fun e => e.kind = .unlock)).mapEntries clearReferralOpen
      (l.take n)).findCard e.card = some (slot, { c with
        referralOpen := if k < n then false else c.referralOpen
        attemptPending := if e.kind = .unlock then false else c.attemptPending }) := by
    rw [RecordMemory.findCard_mapEntries (f := clearReferralOpen) (fun _ => rfl) (hn.sublist ((List.take_sublist ..).map _)),
      RecordMemory.findCard_mapEntries (f := denyUnlock) (fun _ => rfl) (hn.sublist ((List.filter_sublist).map _)), hf]
    simp only [card_mem_take hn hk, hkind]
    split_ifs <;> rfl
  exact (RecordMemory.findCard_spec hfound).2.1

/-- A slot that holds the card of no lapsed entry is left alone. -/
theorem cardAt_closeTrading_other (hslot : ∀ e ∈ l, ∀ x, m.findCard e.card = some x → x.1 ≠ slot) (n : Nat) :
    ((m.mapEntries denyUnlock (l.filter fun e => e.kind = .unlock)).mapEntries clearReferralOpen (l.take n)).cardAt slot =
      m.cardAt slot := by
  have hbeside := ((RecordMemory.CardsBeside.refl m).mapEntries (f := denyUnlock) (fun _ => rfl)
    (l.filter fun e => e.kind = .unlock)).mapEntries (f := clearReferralOpen) (fun _ => rfl) (l.take n)
  refine hbeside.others slot fun number hnumber x hx => ?_
  have hmem : ∃ e ∈ l, e.card = number := by
    simp only [List.nil_append, List.mem_append, List.mem_map] at hnumber
    rcases hnumber with ⟨e, he, rfl⟩ | ⟨e, he, rfl⟩
    · exact ⟨e, List.mem_of_mem_filter he, rfl⟩
    · exact ⟨e, List.mem_of_mem_take he, rfl⟩
  obtain ⟨e, he, rfl⟩ := hmem
  exact hslot e he x hx

/-- Settles O19: by all that `closeTrading_eq` says a CLOSE-TRADING changes, and the cards of the lapsed entries. -/
theorem closeTradingLapsesEveryEntry : Obligations.CloseTradingLapsesEveryEntry := by
  intro s t tag h lapsed older placed notice
  have hnotice : ∀ e : Referral, e.notice = notice e := by
    rintro ⟨_, kind, _, _, _, _, _⟩
    cases kind with
    | debit => rfl
    | hold => rfl
    | unlock => rfl
    | watch request => cases request <;> rfl
  have holder : t.lapsedWaits = older := by
    refine congrArg t.waiting.any (funext fun p => ?_)
    cases p <;> rfl
  have hplaced : t.closingNotices = placed := by
    rw [State.closingNotices, holder]
    rfl
  refine ⟨fun he => ?_, fun he => ?_⟩
  · obtain ⟨last, sent, hu⟩ := t.closeTrading_eq tag
    rw [hplaced] at hu
    refine ⟨t.closeTrading tag, ?_, ?_⟩
    · show execCloseTrading tag s = _
      rw [execCloseTrading, h]
      exact if_pos he
    rw [hu]
    refine ⟨rfl, ?_, rfl, rfl, rfl, fun hn k e slot c hk hf => cardAt_closeTrading hn hk hf placed,
      fun slot hslot => cardAt_closeTrading_other hslot placed, rfl, ?_⟩
    · dsimp only
      unfold noticesAfter
      congr 3
      funext k e
      rw [hnotice]
      congr 1
      omega
    · exact RecordMemory.mapEntries_frame _ _ (RecordMemory.mapEntries_frame _ _ rfl)
  · show execCloseTrading tag s = _
    rw [execCloseTrading, h]
    exact if_neg he

end Sys2Proof.Machine
end

section
/-! The watch entries are left alone by every change of Record Memory that is not the Velocity Watch's own (R129). -/

namespace Sys2Proof.Machine

variable {m : RecordMemory} {slot : Slot} {c : Card}

/-! ### Single updates -/

@[simp] theorem RecordMemory.placeCard_watches (m : RecordMemory) (slot : Slot) (c : Card) :
    (m.placeCard slot c).watches = m.watches := by
  cases slot <;> rfl

@[simp] theorem RecordMemory.removeCard_watches (m : RecordMemory) (slot : Slot) (c : Card) :
    (m.removeCard slot c).watches = m.watches := by
  cases slot <;> rfl

@[simp] theorem RecordMemory.touch_watches (m : RecordMemory) (c : Card) : (m.touch c).memory.watches = m.watches := rfl

@[simp] theorem RecordMemory.settle_watches (m : RecordMemory) (slot : Slot) (c : Card) (wrote : Bool) :
    (m.settle slot c wrote).1.watches = m.watches := by
  rw [RecordMemory.settle_eq]
  split <;> exact RecordMemory.putCard_watches ..

@[simp] theorem RecordMemory.commit_watches (m : RecordMemory) (slot : Slot) (c : Card) (moved : Option Moved) :
    (m.commit slot c moved).1.watches = m.watches := RecordMemory.putCard_watches ..

@[simp] theorem RecordMemory.mapCard_watches (m : RecordMemory) (number : Nat) (f : Card → Card) :
    (m.mapCard number f).watches = m.watches := by
  unfold RecordMemory.mapCard
  split
  · exact RecordMemory.putCard_watches ..
  · rfl

@[simp] theorem RecordMemory.payMerchant_watches (m : RecordMemory) (i : Nat) (r : Merchant) (paid : Nat)
    (parts : List Lot) : (m.payMerchant i r paid parts).watches = m.watches := rfl

@[simp] theorem RecordMemory.returnValue_watches (m : RecordMemory) (c : Card) (paid : Nat) (parts : List Lot) :
    (m.returnValue c paid parts).1.watches = m.watches := rfl

@[simp] theorem RecordMemory.freeHold_watches (m : RecordMemory) (n : Nat) (x : HoldRecord) (cause : EndCause) :
    (m.freeHold n x cause).watches = m.watches := by
  unfold RecordMemory.freeHold
  dsimp only
  split <;> rfl

/-! ### Step 8 of an attempt, and holds given back -/

theorem RecordMemory.redeem_watches {i amount : Nat} {r : Merchant} {purse : Purse} {upTo : Bool} {d : Redeemed}
    (h : m.redeem slot c i r amount purse upTo = .ok d) : d.memory.watches = m.watches := by
  unfold RecordMemory.redeem at h
  split at h
  · cases h
  · split at h
    · cases h
    · cases h
      exact RecordMemory.commit_watches ..

theorem RecordMemory.place_watches {i amount expires : Nat} {r : Merchant} {purse : Purse} {upTo : Bool}
    {origin : HoldOrigin} {d : Placed} (h : m.place c i r amount purse upTo origin expires = .ok d) :
    d.memory.watches = m.watches := by
  unfold RecordMemory.place at h
  split at h
  · cases h
  · split at h
    · cases h
    · split at h
      · cases h
      · cases h
        rfl

theorem placeMember_watches {s : State} {i remainder : Nat} {r : Merchant} {purse : Purse} {d : Placed}
    (h : placeMember s c i r remainder purse = .ok d) : d.memory.watches = s.memory.watches := by
  unfold placeMember at h
  split at h
  · split at h
    · cases h
    · split at h <;> cases h
  · exact RecordMemory.place_watches h

@[simp] theorem RecordMemory.giveBack_watches (m : RecordMemory) (n : Nat) (x : HoldRecord) (slot : Slot) (c : Card)
    (cause : EndCause) : (m.giveBack n x slot c cause).1.watches = m.watches := by
  simp [RecordMemory.giveBack]

@[simp] theorem RecordMemory.expireHold_watches (m : RecordMemory) (n : Nat) (x : HoldRecord) :
    (m.expireHold n x).watches = m.watches := by
  unfold RecordMemory.expireHold
  split
  · exact RecordMemory.giveBack_watches ..
  · rfl

@[simp] theorem RecordMemory.expireDue_watches (ties : List Nat) (fuel : Nat) (m : RecordMemory) :
    (m.expireDue ties fuel).watches = m.watches := by
  induction fuel generalizing m with
  | zero => rfl
  | succ fuel ih =>
    unfold RecordMemory.expireDue
    split
    · rw [ih, RecordMemory.expireHold_watches]
    · rfl

@[simp] theorem RecordMemory.examine_watches (m : RecordMemory) : m.examine.watches = m.watches := by
  unfold RecordMemory.examine
  split
  · rfl
  · split
    · rfl
    · exact RecordMemory.settle_watches ..

@[simp] theorem captureMember_watches (merchant : Nat) (m : RecordMemory) (n : Nat) (x : HoldRecord) :
    (captureMember merchant m n x).watches = m.watches := by
  unfold captureMember
  split <;> simp

@[simp] theorem releaseMember_watches (m : RecordMemory) (n : Nat) (x : HoldRecord) :
    (releaseMember m n x).1.watches = m.watches := by
  unfold releaseMember
  split <;> simp

@[simp] theorem noteChange_watches (m : RecordMemory) (number : Nat) : (noteChange m number).watches = m.watches :=
  RecordMemory.mapCard_watches ..

/-! ### Requests on a card -/

@[simp] theorem declineTouched_watches (m : RecordMemory) (slot : Slot) (c : Card) (wrote : Bool)
    (reason : DeclineReason) : (declineTouched m slot c wrote reason).1.watches = m.watches :=
  RecordMemory.settle_watches ..

@[simp] theorem doneTouched_watches (m : RecordMemory) (slot : Slot) (c : Card) (wrote : Bool) :
    (doneTouched m slot c wrote).1.watches = m.watches := RecordMemory.settle_watches ..

@[simp] theorem flagCard_watches (m : RecordMemory) (slot : Slot) (c : Card) (f : Card → Card) :
    (flagCard m slot c f).1.watches = m.watches := doneTouched_watches ..

@[simp] theorem issueCard_watches (m : RecordMemory) (slot : Slot) (number product paid : Nat)
    (bonus : Option (Fin 8 × Nat × Nat)) : (issueCard m slot number product paid bonus).1.watches = m.watches := by
  simp [issueCard]

@[simp] theorem loadCard_watches (m : RecordMemory) (slot : Slot) (c : Card) (amount : Nat) :
    (loadCard m slot c amount).1.watches = m.watches := by
  unfold loadCard
  dsimp only
  split_ifs <;> simp

@[simp] theorem grantCard_watches (m : RecordMemory) (slot : Slot) (c : Card) (sponsor : Fin 8) (life amount : Nat) :
    (grantCard m slot c sponsor life amount).1.watches = m.watches := by
  unfold grantCard
  dsimp only
  split
  · simp
  · split
    · simp
    · split <;> simp

@[simp] theorem captureHold_watches (m : RecordMemory) (n : Nat) (x : HoldRecord) (slot : Slot) (c : Card) (i : Nat)
    (r : Merchant) (asked : Nat) : (captureHold m n x slot c i r asked).1.watches = m.watches := by
  unfold captureHold
  dsimp only
  split <;> simp

@[simp] theorem releaseHold_watches (m : RecordMemory) (n : Nat) (x : HoldRecord) (slot : Slot) (c : Card) :
    (releaseHold m n x slot c).1.watches = m.watches := RecordMemory.giveBack_watches ..

@[simp] theorem refundCard_watches (m : RecordMemory) (slot : Slot) (c : Card) (i : Nat) (r : Merchant) (paid : Nat)
    (parts : List (Fin 8 × Nat)) (total : Nat) : (refundCard m slot c i r paid parts total).1.watches = m.watches := by
  unfold refundCard
  dsimp only
  split
  · simp
  · split
    · simp
    · split
      · simp
      · split
        · simp
        · split <;> simp

@[simp] theorem voidSpent_watches (m : RecordMemory) (slot : Slot) (c : Card) (wrote : Bool) (v : Movement)
    (merchant atMerchant period : Nat) :
    (voidSpent m slot c wrote v merchant atMerchant period).1.watches = m.watches := by
  unfold voidSpent
  split
  · simp
  · split
    · simp
    · split
      · simp
      · simp [voidSpentMovement]

@[simp] theorem voidCard_watches (m : RecordMemory) (slot : Slot) (c : Card) (merchant stamp : Nat) :
    (voidCard m slot c merchant stamp).1.watches = m.watches := by
  unfold voidCard
  dsimp only
  split
  · simp
  · split
    · simp
    · split
      · simp [voidLoadMovement]
      · simp
      · simp

/-! ### Requests on products, sponsors and merchants -/

@[simp] theorem defineProductRecord_watches (i : Nat) (p : Product) (m : RecordMemory) :
    (defineProductRecord i p m).1.watches = m.watches := by
  unfold defineProductRecord
  dsimp only
  split_ifs <;> rfl

@[simp] theorem withdrawProductRecord_watches (i : Nat) (m : RecordMemory) :
    (withdrawProductRecord i m).1.watches = m.watches := by
  unfold withdrawProductRecord
  dsimp only
  split
  · rfl
  · split <;> rfl
  · rfl

@[simp] theorem reinstateProductRecord_watches (i : Nat) (m : RecordMemory) :
    (reinstateProductRecord i m).1.watches = m.watches := by
  unfold reinstateProductRecord
  dsimp only
  split <;> rfl

@[simp] theorem retireSponsorRecord_watches (i : Nat) (m : RecordMemory) :
    (retireSponsorRecord i m).1.watches = m.watches := by
  unfold retireSponsorRecord
  split <;> rfl

@[simp] theorem defineMerchantRecord_watches (id : Nat) (p : MerchantOperands) (m : RecordMemory) :
    (defineMerchantRecord id p m).1.watches = m.watches := by
  unfold defineMerchantRecord
  split
  · rfl
  · split <;> rfl

@[simp] theorem closeMerchantRecord_watches (i : Nat) (r : Merchant) (m : RecordMemory) :
    (closeMerchantRecord i r m).1.watches = m.watches := by
  unfold closeMerchantRecord
  dsimp only
  split_ifs <;> rfl

end Sys2Proof.Machine
end

section
/-! The queues and the armed-card lists through every change: what a property of them must keep (`Tended`), and the walk
over the requests and the engine's own steps that shows they all keep it. -/

namespace Sys2Proof.Machine

/-! ### A watch entry with its list (R129, R131 to R138) -/

/-- An entry with its armed-card list becomes another: the list keeps within its places, and the entry stays in WAIT-SECOND
exactly while the list is not empty. -/
structure EntryMove (w : WatchEntry) (l : List Armed) (w' : WatchEntry) (l' : List Armed) : Prop where
  fits : l.length ≤ armedPlaces → l'.length ≤ armedPlaces
  agrees : (w.state = .waitSecond ↔ l ≠ []) → (w'.state = .waitSecond ↔ l' ≠ [])

/-- An entry whose list is emptied and that is not in WAIT-SECOND. -/
theorem EntryMove.emptied (w : WatchEntry) (l : List Armed) {w' : WatchEntry} (h : w'.state ≠ .waitSecond) :
    EntryMove w l w' [] :=
  ⟨fun _ => Nat.zero_le _, fun _ => by simp [h]⟩

theorem waitState_eq_waitSecond (l : List Armed) : waitState l = .waitSecond ↔ l ≠ [] := by
  cases l <;> simp [waitState]

theorem armCard_length (a : WatchedAttempt) {l : List Armed} (h : l.length ≤ armedPlaces) :
    (armCard a l).length ≤ armedPlaces := by
  unfold armCard
  split
  · simpa using h
  · split
    · simpa using ‹l.length < armedPlaces›
    · simp only [List.length_append, List.length_drop, List.length_singleton]
      unfold armedPlaces at *
      omega

/-- The list an attempt leaves after the cards that leave it: the armed card joins within the places. -/
theorem armWhen_length (p : Bool) (a : WatchedAttempt) {l : List Armed} (h : l.length ≤ armedPlaces) :
    (if p then armCard a l else l).length ≤ armedPlaces := by
  split
  · exact armCard_length a h
  · exact h

theorem WatchEntry.evaluate_move (w : WatchEntry) (a : WatchedAttempt) (l : List Armed) :
    EntryMove w l { w with state := (w.evaluate a l).state } (w.evaluate a l).list := by
  unfold WatchEntry.evaluate
  split
  · exact ⟨id, id⟩
  · dsimp only
    split
    · exact .emptied _ _ nofun
    · refine ⟨fun h => armWhen_length _ a ?_, fun _ => waitState_eq_waitSecond _⟩
      split
      · exact (List.length_filter_le ..).trans ((List.length_filter_le ..).trans h)
      · exact (List.length_filter_le ..).trans h

/-- A card off a list: an entry left in WAIT-SECOND with an empty list goes to WAIT-FIRST (R131). -/
theorem EntryMove.filtered (w : WatchEntry) (l : List Armed) (p : Armed → Bool) :
    EntryMove w l { w with state := if w.state = .waitSecond ∧ (l.filter p).isEmpty then .waitFirst else w.state }
      (l.filter p) := by
  refine ⟨(List.length_filter_le ..).trans, fun h => ?_⟩
  dsimp only
  split
  · rename_i hc
    simp [List.isEmpty_iff.mp hc.2]
  · rename_i hc
    refine ⟨fun hw hl => hc ⟨hw, List.isEmpty_iff.mpr hl⟩, fun hl => h.mpr fun he => hl ?_⟩
    rw [he, List.filter_nil]

/-- A defined entry waits for its first attempt or is disabled (R137). -/
theorem watchOf_state {f : WatchOperands} {w : WatchEntry} (h : watchOf f = some w) : w.state ≠ .waitSecond := by
  unfold watchOf at h
  split at h
  · split at h
    · cases h
      dsimp only
      split <;> nofun
    · cases h
  · cases h

/-! ### What a property of the queues and lists keeps -/

/-- The second state has the first one's watch entries, armed-card lists, port queues and supply, and its referral queue and
lapse record keep within their places. -/
structure State.Beside (s u : State) : Prop where
  watches : u.memory.watches = s.memory.watches
  armed : u.armed = s.armed
  powered : u.powered = s.powered
  inbound : u.inbound = s.inbound
  answers : u.answers = s.answers
  referrals : s.referrals.length ≤ referralPlaces → u.referrals.length ≤ referralPlaces
  lapseRecord : s.lapseRecord.length ≤ lapsePlaces → u.lapseRecord.length ≤ lapsePlaces

/-- A property of states, given how many answers may stand, that every change of the queues and the armed-card lists keeps. -/
structure Tended (P : Nat → State → Prop) : Prop where
  beside : ∀ {n s u}, P n s → s.Beside u → P n u
  entry : ∀ {n s i w l}, EntryMove (s.memory.watchEntry i) (s.armedList i) w l → P n s →
    P n (State.setArmedList { s with memory := s.memory.setWatchEntry i w } i l)
  take : ∀ {s t i}, State.take s i = some t → P 64 s → P 63 t
  free : ∀ {s}, State.slotFree s = true → P 64 s → P 63 s
  weaken : ∀ {s}, P 63 s → P 64 s
  enter : ∀ {s} kind o f tag body, P 63 s → P 64 (State.enter s kind o f tag body)
  formatted : ∀ {n s} day reading, P n s → P n (State.formatted s day reading)

variable {P : Nat → State → Prop} {n : Nat} {s u : State}

section
variable (k : Tended P)
include k

/-- A change of Record Memory that leaves the watch entries. -/
theorem Tended.onMemory {m : RecordMemory} (hm : m.watches = s.memory.watches) (h : P n s) :
    P n { s with memory := m } :=
  k.beside h ⟨hm, rfl, rfl, rfl, rfl, id, id⟩

theorem Tended.withMemory {m : RecordMemory} (hm : m.watches = s.memory.watches) (h : P n s) : P n (s.withMemory m) :=
  k.onMemory hm h

theorem Tended.keeps_onMemory {change : RecordMemory → RecordMemory × Reply}
    (hc : ∀ m, (change m).1.watches = m.watches) : Keeps (P n) (Machine.onMemory change) :=
  fun _ h => k.onMemory (hc _) h

theorem Tended.setDescriptor (i : Nat) (d : Descriptor) (h : P n s) : P n (s.setDescriptor i d) := k.onMemory rfl h

theorem Tended.wait (p : Producer) (h : P n s) : P n (s.wait p) := k.beside h ⟨rfl, rfl, rfl, rfl, rfl, id, id⟩

theorem Tended.waiting (l : List Producer) (h : P n s) : P n { s with waiting := l } :=
  k.beside h ⟨rfl, rfl, rfl, rfl, rfl, id, id⟩

theorem Tended.answerRequest {i : Instr} {code tag : Nat} {change : Change} (hc : Keeps (P 63) change) (h : P 64 s)
    (hu : Machine.answerRequest i code tag change s = .next u) : P 64 u := by
  rcases answerRequest_cases i code tag change s with e | ⟨t, ht, e⟩ <;> rw [e] at hu <;> cases hu
  · exact h
  · exact k.enter _ _ _ _ _ (hc _ (k.take ht h))

/-! ### Step 7 and the watch lists (R130 to R136) -/

theorem Tended.watchAttempt (a : WatchedAttempt) (h : P n s) : P n (s.watchAttempt a).1 :=
  foldl_keeps (Q := fun acc : State × List (Nat × WatchAction) => P n acc.1)
    (fun _ _ hacc => k.entry (WatchEntry.evaluate_move ..) hacc) _ _ h

theorem Tended.disarm (card i : Nat) (h : P n s) : P n (s.disarm card i) := k.entry (.filtered ..) h

theorem Tended.disarmAll (card : Nat) (h : P n s) : P n (s.disarmAll card) :=
  foldl_keeps (fun b i hb => by
    split
    · exact k.disarm card i hb
    · exact hb) _ _ h

theorem Tended.judge (c : Card) (r : Merchant) (amount : Nat) (h : P n s) : P n (judge s c r amount).state := by
  unfold Machine.judge
  split
  · unfold endedEarly
    split <;> exact h
  · split
    · exact h
    · dsimp only
      split
      · exact h
      · unfold judgeWatch
        dsimp only
        split
        · exact k.watchAttempt _ h
        · split <;> exact k.watchAttempt _ h

/-! ### Referrals (R114, R117, R122, R123) -/

theorem Tended.makeReferral {card tag : Nat} {kind : ReferralKind} {r : State × Referral}
    (hr : s.makeReferral card tag kind = some r) (h : P n s) : P n r.1 := by
  unfold State.makeReferral at hr
  split at hr
  · cases hr
  · rename_i hroom
    cases hr
    exact k.beside h ⟨rfl, rfl, rfl, rfl, rfl, fun _ => by simpa using hroom, (List.length_filter_le ..).trans⟩

theorem Tended.dropReferral (number : Nat) (h : P n s) : P n (s.dropReferral number) :=
  k.beside h ⟨rfl, rfl, rfl, rfl, rfl, (List.length_filter_le ..).trans, id⟩

/-! ### Debit attempts (R60 to R74, R117 to R121) -/

theorem Tended.declineAttempt (slot : Slot) (c : Card) (wrote : Bool) (reason : DeclineReason) (method : Option Method)
    (mark freezer : Option Nat) (clamped : Bool) (h : P n s) :
    P n (declineAttempt s slot c wrote reason method mark freezer clamped).1 :=
  k.withMemory (RecordMemory.settle_watches ..) h

theorem Tended.referAttempt (slot : Slot) (c : Card) (wrote : Bool) (tag : Nat) (kind : ReferralKind)
    (method : Option Method) (mark : Option Nat) (h : P n s) :
    P n (referAttempt s slot c wrote tag kind method mark).1 := by
  unfold Machine.referAttempt
  split
  · exact k.declineAttempt _ _ _ _ _ _ _ _ h
  · exact k.withMemory (RecordMemory.settle_watches ..) (k.makeReferral ‹_› h)

theorem Tended.finishRedeem (slot : Slot) (c : Card) (wrote : Bool) (i : Nat) (r : Merchant) (amount : Nat)
    (purse : Purse) (upTo : Bool) (method : Option Method) (mark : Option Nat) (h : P n s) :
    P n (finishRedeem s slot c wrote i r amount purse upTo method mark).1 := by
  unfold Machine.finishRedeem
  split
  · exact k.declineAttempt _ _ _ _ _ _ _ _ h
  · exact k.withMemory (RecordMemory.redeem_watches ‹_›) h

theorem Tended.finishHold (slot : Slot) (c : Card) (wrote : Bool) (i : Nat) (r : Merchant) (amount life : Nat)
    (purse : Purse) (upTo : Bool) (method : Option Method) (mark : Option Nat) (h : P n s) :
    P n (finishHold s slot c wrote i r amount life purse upTo method mark).1 := by
  unfold Machine.finishHold
  dsimp only
  split
  · exact k.declineAttempt _ _ _ _ _ _ _ _ h
  · exact k.withMemory ((RecordMemory.commit_watches ..).trans (RecordMemory.place_watches ‹_›)) h

theorem Tended.attemptDebit (tag : Nat) (slot : Slot) (c : Card) (i : Nat) (r : Merchant) (d : DebitOperands)
    (request : Attempted) (h : P n s) : P n (attemptDebit s tag slot c i r d request).1 := by
  have hj := k.judge (s.memory.touch c).card r d.amount (k.withMemory (RecordMemory.touch_watches s.memory c) h)
  unfold Machine.attemptDebit
  dsimp only
  split
  · exact k.declineAttempt _ _ _ _ _ _ _ _ hj
  · exact k.referAttempt _ _ _ _ _ _ _ hj
  · split
    · exact k.finishRedeem _ _ _ _ _ _ _ _ _ _ hj
    · exact k.finishHold _ _ _ _ _ _ _ _ _ _ _ hj

theorem Tended.debitChange (tag card merchant : Nat) (d : Option DebitOperands) (request : Attempted) :
    Keeps (P n) (debitChange tag card merchant d request) := fun s h => by
  unfold Machine.debitChange
  split
  · exact h
  · split
    · exact h
    · split
      · exact h
      · split
        · exact h
        · split
          · exact h
          · exact k.attemptDebit _ _ _ _ _ _ _ h

theorem Tended.approveDebit (slot : Slot) (c : Card) (terms : Terms) (request : Attempted) (h : P n s) :
    P n (approveDebit s slot c terms request).1 := by
  have ht := k.withMemory (RecordMemory.touch_watches s.memory c) h
  unfold Machine.approveDebit
  dsimp only
  split
  · split
    · exact k.finishRedeem _ _ _ _ _ _ _ _ _ _ ht
    · exact k.finishHold _ _ _ _ _ _ _ _ _ _ _ ht
  · unfold endedEarly
    split <;> exact k.declineAttempt _ _ _ _ _ _ _ _ ht

theorem Tended.approveEntry (e : Referral) (slot : Slot) (c : Card) (h : P n s) : P n (approveEntry s e slot c).1 := by
  have hd := k.dropReferral e.number h
  unfold Machine.approveEntry
  dsimp only
  split
  · exact k.approveDebit _ _ _ _ hd
  · exact k.approveDebit _ _ _ _ hd
  · exact k.approveDebit _ _ _ _ hd
  · exact k.onMemory (RecordMemory.putCard_watches ..) hd

theorem Tended.decideChange (number decision : Nat) : Keeps (P n) (decideChange number decision) := fun s h => by
  unfold Machine.decideChange
  split
  · exact h
  · split
    · exact h
    · split
      · exact h
      · split
        · split
          · exact h
          · split
            · split
              · exact k.approveEntry _ _ _ h
              · exact k.onMemory (RecordMemory.putCard_watches ..) (k.dropReferral _ h)
            · exact h
        · split <;> exact h

/-! ### Cards (R36 to R47, R67, R68) -/

theorem Tended.unlockCard (tag : Nat) (slot : Slot) (c : Card) (h : P n s) : P n (unlockCard s tag slot c).1 := by
  have ht := k.onMemory (RecordMemory.touch_watches s.memory c) h
  unfold Machine.unlockCard
  dsimp only
  split
  · exact k.keeps_onMemory (fun m => declineTouched_watches ..) _ ht
  · split
    · exact k.keeps_onMemory (fun m => doneTouched_watches ..) _ ht
    · split
      · exact k.keeps_onMemory (fun m => doneTouched_watches ..) _ ht
      · split
        · exact k.keeps_onMemory (fun m => declineTouched_watches ..) _ ht
        · exact k.onMemory (RecordMemory.settle_watches ..) (k.makeReferral ‹_› ht)

theorem Tended.unlockChange (tag card : Nat) : Keeps (P n) (unlockChange tag card) := fun s h => by
  unfold Machine.unlockChange
  split
  · exact h
  · refine keeps_withCard (fun slot c s _ h => ?_) s h
    split
    · exact h
    · exact k.unlockCard tag slot c h

theorem Tended.closeTouched (slot : Slot) (c : Card) (swept : List Lot) (h : P n s) :
    P n (closeTouched s slot c swept).1 := by
  unfold Machine.closeTouched
  dsimp only
  refine k.disarmAll _ (k.onMemory ?_ h)
  rw [RecordMemory.removeCard_watches]
  rfl

theorem Tended.closeCardChange (card : Nat) : Keeps (P n) (closeCardChange card) := fun s h => by
  unfold Machine.closeCardChange
  split
  · exact h
  · refine keeps_withCard (fun slot c s _ h => ?_) s h
    split
    · exact h
    · dsimp only
      split
      · exact k.onMemory (declineTouched_watches ..) h
      · exact k.closeTouched _ _ _ (k.onMemory (RecordMemory.touch_watches ..) h)

theorem Tended.issueChange (card product sponsor life paid bonus : Nat) :
    Keeps (P n) (issueChange card product sponsor life paid bonus) := fun s h => by
  unfold Machine.issueChange
  split
  · exact h
  · split
    · exact h
    · split
      · exact h
      · split
        · exact h
        · split
          · exact h
          · split
            · exact h
            · split
              · exact h
              · split
                · exact h
                · split
                  · exact h
                  · exact k.onMemory (issueCard_watches ..) h

theorem Tended.loadChange (card amount : Nat) : Keeps (P n) (loadChange card amount) := fun s h => by
  unfold Machine.loadChange
  split
  · exact h
  · split
    · exact h
    · exact keeps_withCard (fun _ _ s _ h => k.keeps_onMemory (fun m => loadCard_watches ..) s h) s h

theorem Tended.grantBonusChange (card sponsor life amount : Nat) :
    Keeps (P n) (grantBonusChange card sponsor life amount) := fun s h => by
  unfold Machine.grantBonusChange
  split
  · exact h
  · split
    · exact h
    · split
      · exact h
      · split
        · exact h
        · split
          · exact h
          · exact keeps_withCard (fun _ _ s _ h => k.keeps_onMemory (fun m => grantCard_watches ..) s h) s h

theorem Tended.flagChange (card : Nat) (f : Card → Card) : Keeps (P n) (flagChange card f) := fun s h => by
  unfold Machine.flagChange
  split
  · exact h
  · exact keeps_withCard (fun _ _ s _ h => k.keeps_onMemory (fun m => flagCard_watches ..) s h) s h

theorem Tended.captureChange (n' generation merchant amount : Nat) :
    Keeps (P n) (captureChange n' generation merchant amount) := fun s h => by
  unfold Machine.captureChange
  split
  · exact h
  · split
    · exact h
    · exact keeps_withHold (fun s x slot c i r _ _ _ h => k.onMemory (captureHold_watches ..) h) s h

theorem Tended.releaseChange (n' generation merchant : Nat) : Keeps (P n) (releaseChange n' generation merchant) :=
  fun s h => by
    unfold Machine.releaseChange
    split
    · exact h
    · split
      · exact h
      · exact keeps_withHold (fun s x slot c i r _ _ _ h => k.onMemory (releaseHold_watches ..) h) s h

theorem Tended.refundChange (card merchant paid count : Nat) (parts : List PartOperands) :
    Keeps (P n) (refundChange card merchant paid count parts) := fun s h => by
  unfold Machine.refundChange
  split
  · exact h
  · split
    · exact h
    · split
      · exact h
      · split
        · exact h
        · exact keeps_withCard (fun _ _ s _ h => k.keeps_onMemory (fun m => refundCard_watches ..) s h) s h

theorem Tended.voidLastChange (card merchant stamp : Nat) : Keeps (P n) (voidLastChange card merchant stamp) :=
  fun s h => by
    unfold Machine.voidLastChange
    split
    · exact h
    · split
      · exact h
      · exact keeps_withCard (fun _ _ s _ h => k.keeps_onMemory (fun m => voidCard_watches ..) s h) s h

/-! ### Split tender (R90 to R94) -/

theorem Tended.record (run : TenderRun) (slot : Slot) (card : Card) (wrote : Bool) (result : MemberResult)
    (j : Judged) (drawn : Nat) (h : P n s) : P n (run.record s slot card wrote result j drawn).state :=
  k.withMemory (RecordMemory.putCard_watches ..) h

theorem Tended.member (merchant : Nat) (run : TenderRun) (p : Member) (h : P n run.state) :
    P n (run.member merchant p).state := by
  unfold TenderRun.member
  split
  · exact h
  · split
    · rename_i slot c i r _ _
      have hj := k.judge (run.state.memory.touch c).card r run.remainder
        (k.withMemory (RecordMemory.touch_watches run.state.memory c) h)
      dsimp only
      split
      · exact k.record _ _ _ _ _ _ _ hj
      · exact k.record _ _ _ _ _ _ _ hj
      · split
        · exact k.record _ _ _ _ _ _ _ hj
        · exact k.record _ _ _ _ _ _ _ (k.withMemory (placeMember_watches ‹_›) hj)
    · exact h

omit k in
theorem foldl_watches {α : Type} {f : RecordMemory → α → RecordMemory} (hf : ∀ m a, (f m a).watches = m.watches)
    (l : List α) (m : RecordMemory) : (l.foldl f m).watches = m.watches :=
  foldl_keeps (Q := fun m' : RecordMemory => m'.watches = m.watches) (fun _ a h => (hf _ a).trans h) l m rfl

theorem Tended.settleRun (run : TenderRun) (merchant amount : Nat) (acceptPartial : Bool) (h : P n run.state) :
    P n (run.settle merchant amount acceptPartial).1 := by
  unfold TenderRun.settle
  dsimp only
  split
  · exact k.withMemory ((foldl_watches noteChange_watches _ _).trans
      (foldl_watches (fun m (d : Nat × HoldRecord) => captureMember_watches merchant m d.1 d.2) _ _)) h
  · refine k.withMemory ((foldl_watches noteChange_watches _ _).trans ?_) h
    refine foldl_keeps (Q := fun acc : RecordMemory × Bool => acc.1.watches = run.state.memory.watches) ?_ _
      (run.state.memory, false) rfl
    exact fun acc d h => (releaseMember_watches acc.1 d.1 d.2).trans h

theorem Tended.tenderChange (merchant amount settle count : Nat) (members : List MemberOperands) :
    Keeps (P n) (tenderChange merchant amount settle count members) := fun s h => by
  unfold Machine.tenderChange
  split
  · exact h
  · split
    · exact h
    · split
      · split
        · exact h
        · split
          · exact h
          · split
            · exact h
            · exact k.settleRun _ _ _ _ (foldl_keeps (Q := fun run : TenderRun => P n run.state)
                (fun run p => k.member _ run p) _ _ h)
      · exact h

/-! ### Lapses and CLOSE-TRADING (R122, R123, R126, R191) -/

theorem Tended.lapseEntry (e : Referral) (h : P n s) : P n (s.lapseEntry e) := by
  refine k.beside h ⟨?_, rfl, rfl, rfl, rfl, fun h => by simpa using h, id⟩
  rw [State.lapseEntry_memory]
  split
  · exact RecordMemory.mapCard_watches ..
  · rfl

omit k in
theorem lapseRecordWith_length (number : Nat) {l : List Nat} (h : l.length ≤ lapsePlaces) :
    (lapseRecordWith l number).length ≤ lapsePlaces := by
  unfold lapseRecordWith
  rw [List.length_append, List.length_singleton]
  unfold lapsePlaces at *
  split
  · rw [List.length_drop]
    omega
  · omega

theorem Tended.placeLapseNotice (e : Referral) (h : P 63 s) : P 64 (s.placeLapseNotice e) := by
  refine k.enter _ _ _ _ _ (k.beside h ?_)
  exact ⟨RecordMemory.mapCard_watches .., rfl, rfl, rfl, rfl, (List.length_filter_le ..).trans, lapseRecordWith_length _⟩

theorem Tended.offerLapse (e : Referral) (h : P 64 s) : P 64 (s.offerLapse e) := by
  unfold State.offerLapse
  split
  · rename_i hf
    rw [Bool.and_eq_true] at hf
    exact k.placeLapseNotice e (k.free hf.1 h)
  · exact k.wait _ h

theorem Tended.serveLapse (h : P 64 s) : P 64 s.serveLapse := by
  unfold State.serveLapse
  split
  · split
    · split
      · exact k.placeLapseNotice _ (k.waiting _ (k.free ‹_› h))
      · exact k.waiting _ h
    · exact h
  · exact h

theorem Tended.closeTrading (tag : Nat) (h : P 63 s) : P 64 (s.closeTrading tag) := by
  unfold State.closeTrading
  refine foldl_keeps (fun b e => k.offerLapse e) _ _ (k.enter _ _ _ _ _ ?_)
  exact foldl_keeps (fun b e => k.lapseEntry e) _ _ (k.beside h ⟨rfl, rfl, rfl, rfl, rfl, id, id⟩)

/-! ### The payout engine and the day sweep (R157 to R181) -/

theorem Tended.endRun (i : Nat) (h : P 63 s) : P 64 (s.endRun i) := k.enter _ _ _ _ _ (k.setDescriptor _ _ h)

theorem Tended.cutMerchant (i : Nat) (h : P 63 s) : P 64 (s.cutMerchant i) :=
  k.enter _ _ _ _ _ (k.onMemory rfl h)

theorem Tended.serveStep (i : Nat) (h : P 63 s) : P 64 (s.serveStep i) := by
  unfold State.serveStep
  dsimp only
  split
  · exact k.endRun i h
  · split
    · exact k.cutMerchant i h
    · exact k.weaken (k.setDescriptor _ _ h)

theorem Tended.serveDescriptor (h : P 64 s) : P 64 s.serveDescriptor := by
  unfold State.serveDescriptor
  split
  · split
    · split
      · exact k.serveStep _ (k.waiting _ (k.free ‹_› h))
      · exact k.waiting _ h
    · exact h
  · exact h

theorem Tended.orWait (i : Nat) {step : State → Nat → State} (hs : P 63 s → P 64 (step s i)) (h : P 64 s) :
    P 64 (s.orWait i step) := by
  unfold State.orWait
  split
  · exact hs (k.free ‹_› h)
  · exact k.wait _ (k.setDescriptor _ _ h)

theorem Tended.takeTurn (i : Nat) (h : P 64 s) : P 64 (s.takeTurn i) := by
  unfold State.takeTurn
  dsimp only
  split
  · exact k.orWait i (k.endRun i) h
  · split
    · exact k.orWait i (k.cutMerchant i) h
    · exact k.setDescriptor _ _ h

theorem Tended.turn (h : P 64 s) : P 64 s.turn := by
  unfold State.turn
  split
  · exact h
  · split
    · exact k.takeTurn _ (k.beside h ⟨rfl, rfl, rfl, rfl, rfl, id, id⟩)
    · exact h

theorem Tended.setSweep (u : SweepUnit) (h : P n s) : P n (s.setSweep u) := k.onMemory rfl h

theorem Tended.endSweep (h : P 63 s) : P 64 s.endSweep := k.enter _ _ _ _ _ (k.setSweep _ h)

theorem Tended.sweepOnce (h : P 64 s) : P 64 s.sweepOnce := by
  have he := k.onMemory (RecordMemory.examine_watches s.memory) h
  unfold State.sweepOnce
  split
  · dsimp only
    split
    · exact k.setSweep _ he
    · split
      · exact k.endSweep (k.free ‹_› he)
      · exact k.wait _ (k.setSweep _ he)
  · exact h

theorem Tended.serveSweep (h : P 64 s) : P 64 s.serveSweep := by
  unfold State.serveSweep
  split
  · split
    · exact k.endSweep (k.waiting _ (k.free ‹_› h))
    · exact h
  · exact h

theorem Tended.startPayoutChange (i mode ratio first last label : Nat) :
    Keeps (P n) (startPayoutChange i mode ratio first last label) := fun s h => by
  unfold Machine.startPayoutChange
  split
  · exact h
  · split
    · exact h
    · split
      · exact h
      · split
        · exact h
        · exact h
        · exact h
        · exact k.setDescriptor _ _ h
        · exact k.setDescriptor _ _ h

theorem Tended.stopRun (i : Nat) (ends : Bool) (h : P n s) : P n (s.stopRun i ends).1 := by
  unfold State.stopRun
  dsimp only
  split <;> exact k.setDescriptor _ _ (k.waiting _ h)

theorem Tended.stopPayoutChange (i form : Nat) : Keeps (P n) (stopPayoutChange i form) := fun s h => by
  unfold Machine.stopPayoutChange
  split
  · exact h
  · split
    · exact h
    · split
      · exact h
      · split
        · exact h
        · exact h
        · exact k.stopRun _ _ h
        · exact k.stopRun _ _ h
        · exact k.stopRun _ _ h

theorem Tended.resumePayoutChange (i : Nat) : Keeps (P n) (resumePayoutChange i) := fun s h => by
  unfold Machine.resumePayoutChange
  split
  · exact h
  · split
    · exact h
    · dsimp only
      split
      · exact k.setDescriptor _ _ h
      · exact h
      · exact h
      · exact h
      · exact h

/-! ### The other requests -/

theorem Tended.formatChange (day reading : Nat) : Keeps (P n) (formatChange day reading) := fun s h => by
  unfold Machine.formatChange
  split
  · exact h
  · exact k.formatted day reading h

theorem Tended.openTrading : Keeps (P n) openTradingChange := fun s h => by
  unfold openTradingChange
  split
  · exact k.beside h ⟨rfl, rfl, rfl, rfl, rfl, id, id⟩
  · exact h

theorem Tended.execCloseTrading (tag : Nat) (h : P 64 s) (hu : execCloseTrading tag s = .next u) : P 64 u := by
  unfold Machine.execCloseTrading at hu
  split at hu
  · cases hu
    exact h
  · have ht := k.take ‹_› h
    split at hu <;> cases hu
    · exact k.closeTrading _ ht
    · exact k.enter _ _ _ _ _ ht

theorem Tended.setClockChange (reading : Nat) : Keeps (P n) (setClockChange reading) := fun s h => by
  unfold Machine.setClockChange
  split
  · exact h
  · exact k.onMemory rfl h

theorem Tended.closeDayChange : Keeps (P n) closeDayChange := fun s h => by
  unfold Machine.closeDayChange
  split
  · exact h
  · split
    · exact h
    · split
      · exact h
      · exact k.onMemory rfl h

theorem Tended.setReferralTimeChange (seconds : Nat) : Keeps (P n) (setReferralTimeChange seconds) := fun s h => by
  unfold Machine.setReferralTimeChange
  split
  · exact h
  · split
    · exact h
    · exact k.withMemory rfl h

theorem Tended.defineProductChange (i : Nat) (fields : ProductOperands) :
    Keeps (P n) (defineProductChange i fields) := fun s h => by
  unfold Machine.defineProductChange
  split
  · exact h
  · split
    · split
      · exact k.onMemory (defineProductRecord_watches ..) h
      · exact h
    · exact h

theorem Tended.defineMerchantChange (id : Nat) (p : MerchantOperands) : Keeps (P n) (defineMerchantChange id p) :=
  fun s h => by
    unfold Machine.defineMerchantChange
    split
    · exact h
    · split
      · exact h
      · exact k.onMemory (defineMerchantRecord_watches ..) h

theorem Tended.setStanding (id : Nat) (st : MerchantState) : Keeps (P n) (onMerchant id (setStanding st)) :=
  keeps_onMerchant fun _ _ _ _ h => k.onMemory rfl h

theorem Tended.closeMerchant (id : Nat) : Keeps (P n) (onMerchant id closeMerchantRecord) :=
  keeps_onMerchant fun _ _ _ _ h => k.onMemory (closeMerchantRecord_watches ..) h

theorem Tended.defineTierChange (i : Nat) (fields : Option Tier) : Keeps (P n) (defineTierChange i fields) := fun s h => by
  unfold Machine.defineTierChange
  split
  · exact h
  · split
    · split
      · exact k.onMemory rfl h
      · exact h
    · exact h

theorem Tended.defineWatchChange (i : Nat) (fields : WatchOperands) : Keeps (P n) (defineWatchChange i fields) :=
  fun s h => by
    unfold Machine.defineWatchChange
    split
    · exact h
    · split
      · split
        · exact k.entry (.emptied _ _ (watchOf_state ‹_›)) h
        · exact h
      · exact h

theorem Tended.rearmWatchChange (i : Nat) : Keeps (P n) (rearmWatchChange i) := fun s h => by
  unfold Machine.rearmWatchChange
  split
  · exact h
  · split
    · exact h
    · dsimp only
      split
      · exact h
      · exact k.entry (.emptied _ _ nofun) h
      · exact h
      · exact h

/-- Every request keeps the property. -/
theorem Tended.runRequest (i : Instr) (h : P 64 s) (hu : runRequest i s = .next u) : P 64 u := by
  have ans : ∀ {i code tag change}, Keeps (P 63) change → Machine.answerRequest i code tag change s = .next u → P 64 u :=
    fun hc hu => k.answerRequest hc h hu
  have idx : ∀ {limit index} {change : RecordMemory → RecordMemory × Reply}, (∀ m, (change m).1.watches = m.watches) →
      Keeps (P 63) (onIndex limit index change) := fun hc => keeps_onIndex (k.keeps_onMemory hc)
  cases i with
  | badCode code length tag => exact ans (keeps_refuse _) hu
  | format tag day reading => exact ans (k.formatChange _ _) hu
  | setClock tag reading => exact ans (k.setClockChange _) hu
  | openTrading tag => exact ans k.openTrading hu
  | closeTrading tag => exact k.execCloseTrading tag h hu
  | closeDay tag => exact ans k.closeDayChange hu
  | inquireClock tag => exact ans keeps_inquireClock hu
  | issue tag card product sponsor life paid bonus => exact ans ((k.issueChange _ _ _ _ _ _).naming _) hu
  | load tag card amount => exact ans ((k.loadChange _ _).naming _) hu
  | grantBonus tag card sponsor life amount => exact ans ((k.grantBonusChange _ _ _ _).naming _) hu
  | inquire tag card => exact ans ((keeps_inquire _).naming _) hu
  | freeze tag card => exact ans ((k.flagChange _ _).naming _) hu
  | thaw tag card => exact ans ((k.flagChange _ _).naming _) hu
  | lock tag card => exact ans ((k.flagChange _ _).naming _) hu
  | unlock tag card => exact ans ((k.unlockChange _ _).naming _) hu
  | closeCard tag card => exact ans ((k.closeCardChange _).naming _) hu
  | redeem tag card merchant amount selector sponsor allowPartial => exact ans ((k.debitChange _ _ _ _ _).naming _) hu
  | hold tag card merchant amount selector sponsor allowPartial life => exact ans ((k.debitChange _ _ _ _ _).naming _) hu
  | capture tag slot generation merchant amount => exact ans (k.captureChange _ _ _ _) hu
  | release tag slot generation merchant => exact ans (k.releaseChange _ _ _) hu
  | inquireHold tag slot generation => exact ans (keeps_inquireHold _ _) hu
  | tender tag merchant amount settle count members => exact ans ((k.tenderChange _ _ _ _ _).naming _) hu
  | refund tag card merchant paid count parts => exact ans ((k.refundChange _ _ _ _ _).naming _) hu
  | voidLast tag card merchant stamp => exact ans ((k.voidLastChange _ _ _).naming _) hu
  | decide tag number decision => exact ans (k.decideChange _ _) hu
  | setReferralTime tag seconds => exact ans (k.setReferralTimeChange _) hu
  | inquireReferral tag number => exact ans (keeps_inquireReferral _) hu
  | defineProduct tag product fields => exact ans (k.defineProductChange _ _) hu
  | withdrawProduct tag product => exact ans (idx (withdrawProductRecord_watches _)) hu
  | reinstateProduct tag product => exact ans (idx (reinstateProductRecord_watches _)) hu
  | inquireProduct tag product => exact ans (idx fun _ => rfl) hu
  | defineSponsor tag sponsor => exact ans (idx fun _ => rfl) hu
  | retireSponsor tag sponsor => exact ans (idx (retireSponsorRecord_watches _)) hu
  | inquireSponsor tag sponsor => exact ans (idx fun _ => rfl) hu
  | inquireFunds tag => exact ans keeps_inquireFunds hu
  | defineMerchant tag merchant category trust tier floor allowance period => exact ans (k.defineMerchantChange _ _) hu
  | suspendMerchant tag merchant => exact ans (k.setStanding _ _) hu
  | reinstateMerchant tag merchant => exact ans (k.setStanding _ _) hu
  | closeMerchant tag merchant => exact ans (k.closeMerchant _) hu
  | inquireMerchant tag form page index merchant => exact ans (keeps_inquireMerchant _ _ _ _) hu
  | defineTier tag tier rate itemFee minFee maxFee => exact ans (k.defineTierChange _ _) hu
  | inquireTier tag tier => exact ans (idx fun _ => rfl) hu
  | defineWatch tag entry fields => exact ans (k.defineWatchChange _ _) hu
  | rearmWatch tag entry => exact ans (k.rearmWatchChange _) hu
  | inquireWatch tag entry => exact ans (keeps_inquireWatch _) hu
  | startPayout tag descriptor mode ratio first last label => exact ans (k.startPayoutChange _ _ _ _ _ _) hu
  | stopPayout tag descriptor form => exact ans (k.stopPayoutChange _ _) hu
  | resumePayout tag descriptor => exact ans (k.resumePayoutChange _) hu
  | inquirePayout tag descriptor => exact ans (keeps_inquirePayout _) hu
  | _ =>
    cases hu
    exact h

/-! ### The engine's own steps -/

theorem Tended.execClockTick (h : P 64 s) (hu : execClockTick s = .next u) : P 64 u := by
  cases hu
  split
  · exact h
  · exact k.onMemory rfl h

theorem Tended.execHoldExpiry (slot : Nat) (h : P 64 s) (hu : execHoldExpiry slot s = .next u) : P 64 u := by
  refine whenPowered_keeps (P := P 64) (fun h => ?_) h hu
  split
  · exact h
  · split
    · exact k.onMemory (RecordMemory.expireHold_watches ..) h
    · exact h

theorem Tended.execLapse (number : Nat) (h : P 64 s) (hu : execLapse number s = .next u) : P 64 u := by
  refine whenPowered_keeps (P := P 64) (fun h => ?_) h hu
  split
  · exact h
  · split
    · exact k.offerLapse _ (k.lapseEntry _ h)
    · exact h

theorem Tended.execWindowExpiry (entry card : Nat) (h : P 64 s) (hu : execWindowExpiry entry card s = .next u) :
    P 64 u := by
  refine whenPowered_keeps (P := P 64) (fun h => ?_) h hu
  split
  · exact k.disarm card entry h
  · exact h

end

end Sys2Proof.Machine
end

section
/-! The queues, the lapse record and the armed-card lists keep within their sizes, and WAIT-SECOND agrees with the lists
(R113, R129, R131, R184, R185): every command. -/

namespace Sys2Proof.Machine

variable {P : Nat → State → Prop} {C : State → Prop} {n i : Nat} {s u : State}

/-! ### Every command -/

/-- A property that every change of the queues and lists keeps, and what it gives after a command: the port's words keep it
too, and the starts and the loss of power give the conclusion. -/
structure Served (P : Nat → State → Prop) (C : State → Prop) : Prop extends Tended P where
  gives : ∀ {s}, P 64 s → C s
  post : ∀ {s}, P 64 s → P 64 (State.post s)
  release : ∀ {s}, P 64 s → P 64 (State.releaseAnswer s)
  emptied : ∀ {s}, P 64 s → P 64 (State.emptyPort s)
  recovered : ∀ s ties, C (State.recover s ties)
  cold : ∀ s reading, C (State.startCold s reading)
  lost : ∀ {s} retention check cut, P 64 s →
    C { State.interrupted s cut with powered := false, retention := retention, indicatorCheck := check }

section
variable (k : Served P C)
include k

theorem Served.resetEngine (s : State) (cut : Interruption) (ties : List Nat) : C (s.resetEngine cut ties) := by
  unfold State.resetEngine
  dsimp only
  split
  · exact k.recovered ..
  · exact k.cold ..

theorem Served.writeOverrun (bit : Bool) (h : P n s) : P n (s.writeOverrun bit) :=
  k.beside h ⟨rfl, rfl, rfl, rfl, rfl, id, id⟩

theorem Served.setEnable (bit : Bool) (h : P n s) : P n (s.setEnable bit) :=
  k.beside h ⟨rfl, rfl, rfl, rfl, rfl, id, id⟩

theorem Served.storePost (offset : Nat) (bytes : List Byte) (h : P n s) : P n (s.storePost offset bytes) := by
  induction bytes generalizing offset s with
  | nil => exact h
  | cons b rest ih =>
    exact ih (s := { s with postArea := s.postArea.set offset b }) (offset + 1)
      (k.beside h ⟨rfl, rfl, rfl, rfl, rfl, id, id⟩)

theorem Served.writeWindow (offset value : Nat) (h : P 64 s) : C (s.writeWindow offset value) := by
  unfold State.writeWindow
  split
  · exact k.gives (k.writeOverrun _ h)
  · split
    · unfold State.writeControl
      dsimp only
      split
      · exact k.resetEngine _ _ _
      · exact k.gives (k.setEnable _ h)
    · split
      · exact k.gives (k.post h)
      · split
        · exact k.gives (k.release h)
        · exact k.gives (k.storePost _ _ h)

theorem Served.exec (i : Instr) (h : P 64 s) (hu : exec i s = .next u) : C u := by
  have req : Machine.runRequest i s = .next u → C u := fun hu => k.gives (k.runRequest i h hu)
  have pow : ∀ {f : State → State}, whenPowered s f = .next u → C (f s) → C u := fun hu hf =>
    whenPowered_keeps (fun _ => hf) (k.gives h) hu
  cases i with
  | postWord value => exact pow hu (k.gives (k.post h))
  | overrunFlag bit => exact pow (f := fun s => s.writeOverrun bit) hu (k.gives (k.writeOverrun bit h))
  | releaseWord value => exact pow hu (k.gives (k.release h))
  | interruptEnable bit => exact pow (f := fun s => s.setEnable bit) hu (k.gives (k.setEnable bit h))
  | engineReset bit cut ties =>
    refine pow hu ?_
    split
    · exact k.resetEngine s cut ties
    · exact k.gives h
  | windowWrite offset value =>
    replace hu : execWindowWrite offset value s = .next u := hu
    unfold execWindowWrite at hu
    split at hu
    · cases hu
    · exact pow hu (k.writeWindow offset value h)
  | powerOn ties =>
    cases hu
    split
    · exact k.recovered ..
    · exact k.cold ..
  | linkReset => exact pow hu (k.gives (k.emptied h))
  | clockTick => exact k.gives (k.execClockTick h hu)
  | holdExpiry slot => exact k.gives (k.execHoldExpiry slot h hu)
  | lapse number => exact k.gives (k.execLapse number h hu)
  | windowExpiry entry card => exact k.gives (k.execWindowExpiry entry card h hu)
  | turn => exact pow hu (k.gives (k.turn h))
  | descriptorService => exact pow hu (k.gives (k.serveDescriptor h))
  | lapseNotice => exact pow hu (k.gives (k.serveLapse h))
  | sweepStep => exact pow hu (k.gives (k.sweepOnce h))
  | sweepEnd => exact pow hu (k.gives (k.serveSweep h))
  | powerLoss batteryKept checkPasses cut =>
    replace hu : execPowerLoss batteryKept checkPasses cut s = .next u := hu
    unfold execPowerLoss at hu
    exact pow hu (k.lost _ _ cut h)
  | _ => exact req hu

end

/-! ### The sizes (R113, R131, R184, R185) -/

/-- The queues and lists hold no more than their capacities, with at most `n` answers. -/
structure State.Fits (n : Nat) (s : State) : Prop where
  inbound : s.inbound.length ≤ inboundCapacity
  answers : s.answers.length ≤ n
  referrals : s.referrals.length ≤ referralPlaces
  lapseRecord : s.lapseRecord.length ≤ lapsePlaces
  armed : ∀ e ∈ s.armed, e.2.length ≤ armedPlaces

theorem State.queuesFit_iff (s : State) : s.queuesFit ↔ s.Fits 64 :=
  ⟨fun ⟨hi, ha, hr, hl, hm⟩ => ⟨hi, ha, hr, hl, hm⟩, fun ⟨hi, ha, hr, hl, hm⟩ => ⟨hi, ha, hr, hl, hm⟩⟩

theorem State.Fits.armedList (h : s.Fits n) (i : Nat) : (s.armedList i).length ≤ armedPlaces := by
  unfold State.armedList Table.get
  cases hf : Table.find s.armed i with
  | none => exact Nat.zero_le _
  | some l => exact h.armed _ (Table.mem_of_find hf)

/-- A record of a written table is the one written or was listed before. -/
theorem Table.mem_set {α : Type} [DecidableEq α] {t : Table α} {d v : α} {k : Nat} {e : Nat × α} (h : e ∈ t.set d k v) :
    e = (k, v) ∨ e ∈ t := by
  unfold Table.set at h
  split at h
  · exact .inr (Table.mem_erase h)
  · exact Table.mem_insert h

theorem State.Fits.setArmedList {w : WatchEntry} {l : List Armed} (h : s.Fits n) (hl : l.length ≤ armedPlaces) :
    (State.setArmedList { s with memory := s.memory.setWatchEntry i w } i l).Fits n :=
  ⟨h.inbound, h.answers, h.referrals, h.lapseRecord, fun e he => by
    rcases Table.mem_set he with rfl | he
    · exact hl
    · exact h.armed e he⟩

theorem State.Fits.beside (h : s.Fits n) (b : s.Beside u) : u.Fits n :=
  ⟨b.inbound ▸ h.inbound, b.answers ▸ h.answers, b.referrals h.referrals, b.lapseRecord h.lapseRecord,
    b.armed ▸ h.armed⟩

theorem State.Fits.take {t : State} {i : Instr} (ht : s.take i = some t) (h : s.Fits 64) : t.Fits 63 := by
  obtain ⟨-, hslot, -, m, rest, hin, -, rfl⟩ := State.take_eq_some.mp ht
  have hrest : rest.length ≤ inboundCapacity := by
    have := h.inbound
    rw [hin, List.length_cons] at this
    omega
  exact ⟨hrest, Nat.le_of_lt_succ (s.slotFree_iff.mp hslot), h.referrals, h.lapseRecord, h.armed⟩

theorem State.Fits.post (h : s.Fits n) : s.post.Fits n := by
  unfold State.post
  split
  · rename_i hroom
    refine ⟨?_, h.answers, h.referrals, h.lapseRecord, h.armed⟩
    simpa using hroom
  · exact ⟨h.inbound, h.answers, h.referrals, h.lapseRecord, h.armed⟩

theorem State.Fits.releaseAnswer (h : s.Fits n) : s.releaseAnswer.Fits n := by
  unfold State.releaseAnswer
  split
  · exact h
  · rename_i rest ha
    refine ⟨h.inbound, ?_, h.referrals, h.lapseRecord, h.armed⟩
    have := h.answers
    rw [ha, List.length_cons] at this
    exact Nat.le_of_succ_le this

/-- A stop leaves the queues and lists as they are. -/
theorem State.Fits.interrupted (h : s.Fits n) (cut : Interruption) : (s.interrupted cut).Fits n := by
  unfold State.interrupted
  split <;> exact ⟨h.inbound, h.answers, h.referrals, h.lapseRecord, h.armed⟩

/-- A state whose queues and lists are empty. -/
theorem State.Fits.empty (hi : u.inbound = []) (ha : u.answers = []) (hr : u.referrals = []) (hl : u.lapseRecord = [])
    (hm : u.armed = []) : u.Fits n := by
  constructor <;> simp [*]

theorem State.fits_served : Served State.Fits (State.Fits 64) where
  beside h b := h.beside b
  entry move h := h.setArmedList (move.fits (h.armedList _))
  take ht h := h.take ht
  free hf h := { h with answers := Nat.le_of_lt_succ ((State.slotFree_iff _).mp hf) }
  weaken h := { h with answers := h.answers.trans (by decide) }
  enter kind o f tag body h := ⟨h.inbound, by
    unfold State.enter
    simpa using Nat.succ_le_succ h.answers, h.referrals, h.lapseRecord, h.armed⟩
  formatted day reading h := ⟨h.inbound, h.answers, Nat.zero_le _, Nat.zero_le _, nofun⟩
  gives h := h
  post h := h.post
  release h := h.releaseAnswer
  emptied h := ⟨Nat.zero_le _, Nat.zero_le _, h.referrals, h.lapseRecord, h.armed⟩
  recovered _ _ := .empty rfl rfl rfl rfl rfl
  cold _ _ := .empty rfl rfl rfl rfl rfl
  lost _ _ cut h :=
    have ⟨hi, ha, hr, hl, hm⟩ := h.interrupted cut
    ⟨hi, ha, hr, hl, hm⟩

/-! ### WAIT-SECOND and the lists (R129) -/

/-- The watch entries and the armed-card lists stand in rising order and agree; the answers do not bear on it. -/
structure State.ListsAgree (_ : Nat) (s : State) : Prop where
  watches : s.memory.watches.rising = true
  armed : s.armed.rising = true
  agree : s.watchesAgree

theorem State.ListsAgree.beside (h : s.ListsAgree n) (b : s.Beside u) : u.ListsAgree n := by
  refine ⟨b.watches ▸ h.watches, b.armed ▸ h.armed, ?_⟩
  have hagree := h.agree
  unfold State.watchesAgree RecordMemory.watchEntry State.armedList at *
  rwa [b.watches, b.armed, b.powered]

/-- No entry in WAIT-SECOND and no list. -/
theorem State.watchesAgree_of_empty (hw : ∀ i, (u.memory.watchEntry i).state ≠ .waitSecond) (ha : u.armed = []) :
    u.watchesAgree := by
  intro _ i _
  unfold State.armedList
  rw [ha]
  exact ⟨fun h => absurd h (hw i), fun h => absurd rfl h⟩

theorem State.ListsAgree.setArmedList {w : WatchEntry} {l : List Armed}
    (move : EntryMove (s.memory.watchEntry i) (s.armedList i) w l) (h : s.ListsAgree n) :
    (State.setArmedList { s with memory := s.memory.setWatchEntry i w } i l).ListsAgree n := by
  refine ⟨Table.rising_set _ _ _ h.watches, Table.rising_set _ _ _ h.armed, fun hp j hj => ?_⟩
  show ((s.memory.watches.set WatchEntry.formatted i w).get WatchEntry.formatted j).state = .waitSecond ↔
    (s.armed.set [] i l).get [] j ≠ []
  by_cases hji : j = i
  · subst hji
    rw [Table.get_set_same _ _ _ h.watches, Table.get_set_same _ _ _ h.armed]
    exact move.agrees (h.agree hp j hj)
  · rw [Table.get_set_other _ _ _ hji, Table.get_set_other _ _ _ hji]
    exact h.agree hp j hj

theorem WatchEntry.recovered_state (w : WatchEntry) : w.recovered.state ≠ .waitSecond := by
  unfold WatchEntry.recovered
  split
  · nofun
  · assumption

theorem RecordMemory.recovered_watchEntry (m : RecordMemory) (ties : List Nat) (i : Nat) :
    ((m.recovered ties).watchEntry i).state ≠ .waitSecond := by
  unfold RecordMemory.recovered RecordMemory.watchEntry
  dsimp only
  rw [RecordMemory.expireDue_watches]
  rcases Table.get_update_cases WatchEntry.formatted WatchEntry.recovered (m.mapCards clearReferralOpen).watches i with
    h | ⟨w, h⟩ <;> rw [h]
  · nofun
  · exact w.recovered_state

theorem State.watchesAgree_recover (s : State) (ties : List Nat) : (s.recover ties).watchesAgree :=
  State.watchesAgree_of_empty (RecordMemory.recovered_watchEntry _ ties) rfl

theorem State.watchesAgree_startCold (s : State) (reading : Nat) : (s.startCold reading).watchesAgree :=
  State.watchesAgree_of_empty (fun _ => nofun) rfl

theorem State.listsAgree_served : Served State.ListsAgree State.watchesAgree where
  beside h b := h.beside b
  entry move h := h.setArmedList move
  take ht h := by
    obtain ⟨-, -, -, m, rest, -, -, rfl⟩ := State.take_eq_some.mp ht
    exact ⟨h.watches, h.armed, h.agree⟩
  free _ h := ⟨h.watches, h.armed, h.agree⟩
  weaken h := ⟨h.watches, h.armed, h.agree⟩
  enter _ _ _ _ _ h := ⟨h.watches, h.armed, h.agree⟩
  formatted _ _ _ := ⟨rfl, rfl, State.watchesAgree_of_empty (fun _ => nofun) rfl⟩
  gives h := h.agree
  post {s} h := by
    unfold State.post
    split <;> exact ⟨h.watches, h.armed, h.agree⟩
  release {s} h := by
    unfold State.releaseAnswer
    split
    · exact h
    · exact ⟨h.watches, h.armed, h.agree⟩
  emptied h := ⟨h.watches, h.armed, h.agree⟩
  recovered := State.watchesAgree_recover
  cold := State.watchesAgree_startCold
  lost _ _ _ _ hp := absurd hp nofun

theorem State.listsAgree_of_tablesWf (hw : s.tablesWf = true) (h : s.watchesAgree) : s.ListsAgree 64 := by
  simp only [State.tablesWf, Bool.and_eq_true] at hw
  obtain ⟨⟨⟨⟨⟨hm, ha⟩, -⟩, -⟩, -⟩, -⟩ := hw
  obtain ⟨-, -, -, -, -, -, -, -, hwatches, -⟩ := (RecordMemory.tablesWf_iff _).mp hm
  exact ⟨((Table.wf_iff _ _).mp hwatches).1, ((Table.wf_iff _ _).mp ha).1, h⟩

/-- A step idles, or runs the front command, which gives the conclusion. -/
theorem Served.step (k : Served P C) (h : ∀ rest, P 64 { s with pending := rest }) (hu : step s = .next u) : C u := by
  unfold Machine.step at hu
  split at hu
  · cases hu
    exact k.gives (h s.pending)
  · exact k.exec _ (h _) hu

/-- Settles O57: the sizes and the agreement each are a property that every change of the queues and lists keeps (`Served`). -/
theorem stepKeepsQueuesWithinCapacity : Obligations.StepKeepsQueuesWithinCapacity := by
  refine ⟨fun s u h hu => ?_, fun s u hw h hu => ?_⟩
  · rw [State.queuesFit_iff] at h ⊢
    exact State.fits_served.step (fun _ => ⟨h.inbound, h.answers, h.referrals, h.lapseRecord, h.armed⟩) hu
  · have ⟨hwatches, harmed, hagree⟩ := State.listsAgree_of_tablesWf hw h
    exact State.listsAgree_served.step (fun _ => ⟨hwatches, harmed, hagree⟩) hu

end Sys2Proof.Machine
end

section
/-! Step 7 of a debit attempt (R130 to R134): what one entry's evaluation gives, in its three cases, and that every entry
is evaluated on its own list. -/

namespace Sys2Proof.Machine

variable {s : State} {m : RecordMemory} {w : WatchEntry} {a : WatchedAttempt} {list : List Armed} {i : Nat}

/-! ### An entry and its list after one of them is written -/

theorem RecordMemory.watchEntry_setWatchEntry (h : m.watches.rising = true) (i k : Nat) (w : WatchEntry) :
    (m.setWatchEntry i w).watchEntry k = if k = i then w else m.watchEntry k := by
  split
  · next e =>
    subst e
    exact Table.get_set_same _ _ _ h
  · next e => exact Table.get_set_other _ _ _ e

theorem State.armedList_setArmedList (h : s.armed.rising = true) (i k : Nat) (l : List Armed) :
    (s.setArmedList i l).armedList k = if k = i then l else s.armedList k := by
  split
  · next e =>
    subst e
    exact Table.get_set_same _ _ _ h
  · next e => exact Table.get_set_other _ _ _ e

/-! ### Every entry on its own list (R132) -/

/-- What an entry's own evaluation gives for an attempt. -/
def State.entryResult (s : State) (a : WatchedAttempt) (i : Nat) : EntryResult :=
  (s.memory.watchEntry i).evaluate a (s.armedList i)

/-- The entries of a list that trigger on an attempt, in its order, with their actions. -/
def State.triggersOf (s : State) (a : WatchedAttempt) (l : List Nat) : List (Nat × WatchAction) :=
  (l.filter fun i => (s.entryResult a i).triggered).map fun i => (i, (s.memory.watchEntry i).action)

theorem State.mem_triggersOf {l : List Nat} {action : WatchAction} : (i, action) ∈ s.triggersOf a l ↔
    i ∈ l ∧ (s.entryResult a i).triggered = true ∧ action = (s.memory.watchEntry i).action := by
  simp only [State.triggersOf, List.mem_map, List.mem_filter, Prod.mk.injEq]
  constructor
  · rintro ⟨_, ⟨hl, ht⟩, rfl, rfl⟩
    exact ⟨hl, ht, rfl⟩
  · rintro ⟨hl, ht, rfl⟩
    exact ⟨i, ⟨hl, ht⟩, rfl, rfl⟩

theorem State.triggersOf_append (s : State) (a : WatchedAttempt) (l : List Nat) (i : Nat) :
    s.triggersOf a (l ++ [i]) = s.triggersOf a l ++
      if (s.entryResult a i).triggered = true then [(i, (s.memory.watchEntry i).action)] else [] := by
  simp only [State.triggersOf, List.filter_append, List.map_append]
  cases ht : (s.entryResult a i).triggered <;> simp [ht]

/-- Step 7 under way: the entries of `done` stand as their own evaluations leave them, the others as in `s`, and those of
`done` that triggered are reported. -/
structure State.Evaluated (s : State) (a : WatchedAttempt) (done : List Nat)
    (acc : State × List (Nat × WatchAction)) : Prop where
  watches : acc.1.memory.watches.rising = true
  armed : acc.1.armed.rising = true
  entry : ∀ i, acc.1.memory.watchEntry i =
    if i ∈ done then { s.memory.watchEntry i with state := (s.entryResult a i).state } else s.memory.watchEntry i
  list : ∀ i, acc.1.armedList i = if i ∈ done then (s.entryResult a i).list else s.armedList i
  triggers : acc.2 = s.triggersOf a done

/-- An entry's turn: it still stands as in `s`, so it is evaluated as `s` holds it. -/
theorem State.Evaluated.watchOne {done : List Nat} {acc : State × List (Nat × WatchAction)}
    (h : s.Evaluated a done acc) (hi : i ∉ done) : s.Evaluated a (done ++ [i]) (State.watchOne a acc i) := by
  have hentry : acc.1.memory.watchEntry i = s.memory.watchEntry i := (h.entry i).trans (if_neg hi)
  have hlist : acc.1.armedList i = s.armedList i := (h.list i).trans (if_neg hi)
  unfold State.watchOne
  rw [hentry, hlist]
  refine ⟨Table.rising_set _ _ _ h.watches, Table.rising_set _ _ _ h.armed, fun k => ?_, fun k => ?_, ?_⟩
  · refine (RecordMemory.watchEntry_setWatchEntry h.watches i k _).trans ?_
    by_cases hk : k = i
    · subst hk
      simp [State.entryResult]
    · simp only [hk, if_false, List.mem_append, List.mem_singleton, or_false]
      exact h.entry k
  · refine (State.armedList_setArmedList h.armed i k _).trans ?_
    by_cases hk : k = i
    · subst hk
      simp [State.entryResult]
    · simp only [hk, if_false, List.mem_append, List.mem_singleton, or_false]
      exact h.list k
  · dsimp only
    rw [h.triggers, State.triggersOf_append]
    change (if (s.entryResult a i).triggered = true then _ else _) = _
    split
    · rfl
    · exact (List.append_nil _).symm

theorem State.watchAttempt_evaluated (s : State) (a : WatchedAttempt) (hw : s.memory.watches.rising = true)
    (ha : s.armed.rising = true) : s.Evaluated a (List.range 16) (s.watchAttempt a) := by
  refine foldl_induction ⟨hw, ha, fun _ => rfl, fun _ => rfl, rfl⟩ fun before i after acc hl h => h.watchOne fun hi => ?_
  have hnodup : (before ++ i :: after).Nodup := hl ▸ List.nodup_range
  exact (List.nodup_append.mp hnodup).2.2 i hi i List.mem_cons_self rfl

/-! ### One entry's evaluation in its three cases (R132 to R134) -/

/-- The cards of a list that have not run out. -/
def WatchEntry.live (w : WatchEntry) (a : WatchedAttempt) (list : List Armed) : List Armed :=
  list.filter fun e => a.now ≤ e.time + w.window

/-- The attempt's card is armed on the list and its level-2 test passes. -/
def WatchEntry.Hit (w : WatchEntry) (a : WatchedAttempt) (list : List Armed) : Prop :=
  ∃ e ∈ w.live a list, e.card = a.card ∧ w.level2.meets a = true ∧ w.relation.passes a.merchant e.merchant = true

/-- A list with the attempt's card off it. -/
def WatchedAttempt.others (a : WatchedAttempt) (list : List Armed) : List Armed :=
  list.filter fun e => e.card ≠ a.card

/-- The attempt as it stands on a list. -/
def WatchedAttempt.armed (a : WatchedAttempt) : Armed := ⟨a.card, a.merchant, a.now⟩

/-- An entry's result with the cards that stay, once the level-1 test has armed the attempt's card or not. -/
def WatchEntry.waits (w : WatchEntry) (a : WatchedAttempt) (rest : List Armed) (triggered : Bool) : EntryResult :=
  let list := if w.level1.meets a then armCard a rest else rest
  ⟨waitState list, list, triggered⟩

theorem WatchEntry.filter_runOut (w : WatchEntry) (a : WatchedAttempt) (list : List Armed) :
    (list.filter fun e => !e.runOut w.window a.now) = w.live a list :=
  List.filter_congr fun e _ => by simp [Armed.runOut, ← decide_not]

theorem WatchEntry.any_eq_true_iff_hit : ((w.live a list).any fun e =>
    e.card == a.card && w.level2.meets a && w.relation.passes a.merchant e.merchant) = true ↔ w.Hit a list := by
  simp only [List.any_eq_true, Bool.and_eq_true, beq_iff_eq, and_assoc]
  rfl

theorem WatchEntry.evaluate_idle (h : w.state = .disabled ∨ w.state = .triggered) :
    w.evaluate a list = ⟨w.state, list, false⟩ := if_pos h

/-- All that the evaluation of a live entry can do. -/
theorem WatchEntry.evaluate_cases (a : WatchedAttempt) (list : List Armed)
    (h : w.state = .waitFirst ∨ w.state = .waitSecond) :
    w.Hit a list ∧ w.mode = .oneShot ∧ w.evaluate a list = ⟨.triggered, [], true⟩ ∨
    w.Hit a list ∧ w.mode = .rearm ∧ w.evaluate a list = w.waits a (a.others (w.live a list)) true ∨
    ¬ w.Hit a list ∧ w.evaluate a list = w.waits a (w.live a list) false := by
  have hlive : ¬ (w.state = .disabled ∨ w.state = .triggered) := by rcases h with h | h <;> simp [h]
  simp only [WatchEntry.evaluate, if_neg hlive, WatchEntry.filter_runOut]
  by_cases hit : w.Hit a list
  · rw [WatchEntry.any_eq_true_iff_hit.mpr hit]
    cases hm : w.mode with
    | oneShot => exact .inl ⟨hit, rfl, rfl⟩
    | rearm =>
      have hothers : (w.live a list).filter (fun e => e.card != a.card) = a.others (w.live a list) :=
        List.filter_congr fun e _ => Bool.eq_iff_iff.mpr (by simp)
      refine .inr (.inl ⟨hit, rfl, ?_⟩)
      rw [hothers]
      rfl
  · rw [Bool.eq_false_iff.mpr fun e => hit (WatchEntry.any_eq_true_iff_hit.mp e)]
    exact .inr (.inr ⟨hit, rfl⟩)

/-! ### The card armed (R131) -/

theorem armCard_listed (h : ∃ e ∈ list, e.card = a.card) :
    armCard a list = list.map fun e => if e.card = a.card then a.armed else e :=
  if_pos (by simpa using h)

theorem armCard_unlisted (h : ∀ e ∈ list, e.card ≠ a.card) :
    armCard a list = (if list.length < 4 then list else list.drop 1) ++ [a.armed] := by
  have hany : ¬ (list.any fun e => e.card == a.card) = true := by simpa using h
  rw [armCard, if_neg hany]
  exact (apply_ite (· ++ [a.armed]) (list.length < 4) list (list.drop 1)).symm

theorem WatchedAttempt.others_unlisted (a : WatchedAttempt) (list : List Armed) :
    ∀ e ∈ a.others list, e.card ≠ a.card := fun _ he => of_decide_eq_true (List.mem_filter.mp he).2

theorem armCard_nodup (a : WatchedAttempt) (h : (list.map Armed.card).Nodup) :
    ((armCard a list).map Armed.card).Nodup := by
  by_cases hl : ∃ e ∈ list, e.card = a.card
  · have hcards : (armCard a list).map Armed.card = list.map Armed.card := by
      rw [armCard_listed hl, List.map_map]
      refine List.map_congr_left fun e _ => ?_
      simp only [Function.comp]
      split
      · next he => exact he.symm
      · rfl
    rwa [hcards]
  · have hnew : ∀ e ∈ list, e.card ≠ a.card := fun e he hc => hl ⟨e, he, hc⟩
    have hkept : List.Sublist (if list.length < 4 then list else list.drop 1) list := by
      split
      · exact List.Sublist.refl _
      · exact List.drop_sublist ..
    rw [armCard_unlisted hnew, List.map_append, List.nodup_append]
    refine ⟨h.sublist (hkept.map _), List.nodup_singleton _, fun n hn k hk => ?_⟩
    obtain ⟨e, he, rfl⟩ := List.mem_map.mp hn
    rw [List.mem_singleton.mp hk]
    exact hnew e (hkept.subset he)

/-! ### What an evaluation keeps (R129, R131) -/

theorem WatchEntry.waits_list_nodup (w : WatchEntry) (a : WatchedAttempt) {rest : List Armed} (triggered : Bool)
    (h : (rest.map Armed.card).Nodup) : ((w.waits a rest triggered).list.map Armed.card).Nodup := by
  unfold WatchEntry.waits
  dsimp only
  split
  · exact armCard_nodup a h
  · exact h

/-- No two armed cards of an entry's list are the same card. -/
theorem WatchEntry.evaluate_list_nodup (a : WatchedAttempt) (h : w.state = .waitFirst ∨ w.state = .waitSecond)
    (hl : (list.map Armed.card).Nodup) : ((w.evaluate a list).list.map Armed.card).Nodup := by
  have hlive : ((w.live a list).map Armed.card).Nodup := hl.sublist (List.filter_sublist.map _)
  rcases w.evaluate_cases a list h with ⟨-, -, hr⟩ | ⟨-, -, hr⟩ | ⟨-, hr⟩ <;> rw [hr]
  · exact List.nodup_nil
  · exact w.waits_list_nodup a _ (hlive.sublist (List.filter_sublist.map _))
  · exact w.waits_list_nodup a _ hlive

theorem WatchEntry.evaluate_triggered (a : WatchedAttempt) (h : w.state = .waitFirst ∨ w.state = .waitSecond) :
    (w.evaluate a list).triggered = true ↔ w.Hit a list := by
  rcases w.evaluate_cases a list h with ⟨hit, -, hr⟩ | ⟨hit, -, hr⟩ | ⟨hit, hr⟩ <;> rw [hr]
  · exact iff_of_true rfl hit
  · exact iff_of_true rfl hit
  · exact iff_of_false nofun hit

/-- A result that does not leave its entry TRIGGERED leaves it in the state that its list gives. -/
theorem WatchEntry.evaluate_state (a : WatchedAttempt) (h : w.state = .waitFirst ∨ w.state = .waitSecond)
    (ht : (w.evaluate a list).state ≠ .triggered) :
    (w.evaluate a list).state = if (w.evaluate a list).list = [] then .waitFirst else .waitSecond := by
  have hwait : ∀ l : List Armed, waitState l = if l = [] then .waitFirst else .waitSecond := fun l => by
    cases l <;> rfl
  rcases w.evaluate_cases a list h with ⟨-, -, hr⟩ | ⟨-, -, hr⟩ | ⟨-, hr⟩ <;> rw [hr] at ht ⊢
  · exact absurd rfl ht
  · exact hwait _
  · exact hwait _

/-! ### The list after an evaluation, by what it turns on (R133, R134) -/

theorem WatchEntry.evaluate_oneShot (h : w.state = .waitFirst ∨ w.state = .waitSecond) (hit : w.Hit a list)
    (hm : w.mode = .oneShot) : w.evaluate a list = ⟨.triggered, [], true⟩ := by
  rcases w.evaluate_cases a list h with ⟨-, -, hr⟩ | ⟨-, hm', -⟩ | ⟨hmiss, -⟩
  · exact hr
  · exact absurd (hm.symm.trans hm') nofun
  · exact absurd hit hmiss

theorem WatchEntry.evaluate_rearm (h : w.state = .waitFirst ∨ w.state = .waitSecond) (hit : w.Hit a list)
    (hm : w.mode = .rearm) : w.evaluate a list = w.waits a (a.others (w.live a list)) true := by
  rcases w.evaluate_cases a list h with ⟨-, hm', -⟩ | ⟨-, -, hr⟩ | ⟨hmiss, -⟩
  · exact absurd (hm.symm.trans hm') nofun
  · exact hr
  · exact absurd hit hmiss

theorem WatchEntry.evaluate_miss (h : w.state = .waitFirst ∨ w.state = .waitSecond) (hmiss : ¬ w.Hit a list) :
    w.evaluate a list = w.waits a (w.live a list) false := by
  rcases w.evaluate_cases a list h with ⟨hit, -, -⟩ | ⟨hit, -, -⟩ | ⟨-, hr⟩
  · exact absurd hit hmiss
  · exact absurd hit hmiss
  · exact hr

theorem WatchEntry.waits_list_of_met (h : w.level1.meets a = true) (rest : List Armed) (triggered : Bool) :
    (w.waits a rest triggered).list = armCard a rest := if_pos h

theorem WatchEntry.waits_list_of_unmet (h : w.level1.meets a = false) (rest : List Armed) (triggered : Bool) :
    (w.waits a rest triggered).list = rest := if_neg (by simp [h])

/-- Settles O37: the 16 turns of step 7 by `State.watchAttempt_evaluated`, and each conjunct on one entry by the case of
`WatchEntry.evaluate_cases` it is about. -/
theorem watchEvaluatesEveryEntry : Obligations.WatchEvaluatesEveryEntry := by
  refine ⟨fun s a hw ha i hi => ?_, fun w a list => ⟨WatchEntry.evaluate_idle, fun h => ?_⟩⟩
  · have run := s.watchAttempt_evaluated a hw ha
    have hmem : i ∈ List.range 16 := List.mem_range.mpr hi
    refine ⟨(run.entry i).trans (if_pos hmem), (run.list i).trans (if_pos hmem), fun action => ?_⟩
    rw [run.triggers, State.mem_triggersOf]
    exact and_iff_right hmem
  · refine ⟨WatchEntry.evaluate_triggered a h, fun hit hm => ?_, fun hmiss h1 => ?_, fun hit hm h1 => ?_,
      fun hmiss h1 hl => ?_, fun hmiss h1 hl => ?_, fun hit hm h1 => ?_, WatchEntry.evaluate_state a h,
      (w.evaluate_move a list).fits, WatchEntry.evaluate_list_nodup a h⟩
    · rw [WatchEntry.evaluate_oneShot h hit hm]
      exact ⟨rfl, rfl⟩
    · rw [WatchEntry.evaluate_miss h hmiss, WatchEntry.waits_list_of_unmet h1]
      rfl
    · rw [WatchEntry.evaluate_rearm h hit hm, WatchEntry.waits_list_of_unmet h1]
      rfl
    · rw [WatchEntry.evaluate_miss h hmiss, WatchEntry.waits_list_of_met h1]
      exact armCard_listed hl
    · rw [WatchEntry.evaluate_miss h hmiss, WatchEntry.waits_list_of_met h1]
      exact armCard_unlisted hl
    · rw [WatchEntry.evaluate_rearm h hit hm, WatchEntry.waits_list_of_met h1]
      exact armCard_unlisted (a.others_unlisted _)

end Sys2Proof.Machine
end

section
/-! DEFINE-WATCH, REARM-WATCH, INQUIRE-WATCH, and a card's window expiry (R136 to R139). -/

namespace Sys2Proof.Machine

variable {s t : State} {i card : Nat} {fields : WatchOperands} {w : WatchEntry} {x : Armed}

/-! ### The three requests, by what each finds (R137 to R139) -/

theorem flagOf_eq_some_iff {n : Nat} {b : Bool} : flagOf n = some b ↔ n = if b = true then 1 else 0 := by
  unfold flagOf
  cases b
  · split_ifs <;> simp_all
  · split_ifs <;> simp_all

/-- A defined entry waits for its first attempt when the enable operand is 1, and is DISABLED when it is 0. -/
theorem watchOf_enable (h : watchOf fields = some w) :
    (w.state = .waitFirst ↔ fields.enable = 1) ∧ (w.state = .disabled ↔ fields.enable = 0) := by
  unfold watchOf at h
  split at h
  · next enable _ _ _ _ _ he =>
    split at h
    · cases h
      rw [flagOf_eq_some_iff] at he
      cases enable <;> simp [he]
    · cases h
  · cases h

theorem defineWatchChange_defined (he : t.engine ≠ .unformatted) (hi : i < 16) (hw : watchOf fields = some w) :
    defineWatchChange i fields t =
      (State.setArmedList { t with memory := t.memory.setWatchEntry i w } i [],
        Reply.done (.watchDefined (t.memory.watchEntry i).state (t.armedList i).length)) := by
  rw [defineWatchChange, if_neg he, hw]
  exact if_pos hi

/-- REARM-WATCH of an entry below the table's end, by its state (R138). -/
theorem rearmWatchChange_of_state (he : t.engine ≠ .unformatted) (hi : i < 16) :
    ((t.memory.watchEntry i).state = .disabled → rearmWatchChange i t = refuse .wrongState t) ∧
    ((t.memory.watchEntry i).state = .triggered → rearmWatchChange i t =
      (State.setArmedList
        { t with memory := t.memory.setWatchEntry i { t.memory.watchEntry i with state := .waitFirst } } i [],
        Reply.done .empty)) ∧
    ((t.memory.watchEntry i).state = .waitFirst ∨ (t.memory.watchEntry i).state = .waitSecond →
      rearmWatchChange i t = (t, Reply.done .empty)) := by
  have hi' : ¬ watchEntries ≤ i := Nat.not_le.mpr hi
  rw [rearmWatchChange, if_neg he, if_neg hi']
  refine ⟨fun hs => ?_, fun hs => ?_, fun hs => ?_⟩
  · simp only [hs]
  · simp only [hs]
  · rcases hs with hs | hs <;> simp only [hs]

theorem inquireWatchChange_eq (he : t.engine ≠ .unformatted) (hi : i < 16) :
    inquireWatchChange i t = (t, Reply.done (.watch (t.memory.watchEntry i)
      ((t.armedList i).map fun e => (e, e.time + (t.memory.watchEntry i).window)))) := by
  rw [inquireWatchChange, if_neg he]
  exact if_neg (Nat.not_le.mpr hi)

/-! ### The window expiries that may come next (R136, R176) -/

theorem State.mem_dueWindows {d : Nat × Nat × Nat} : d ∈ s.dueWindows ↔
    ∃ j < 16, ∃ y ∈ s.armedList j, y.time + (s.memory.watchEntry j).window < s.memory.clock ∧
      (y.time + (s.memory.watchEntry j).window, j, y.card) = d := by
  simp only [State.dueWindows, List.mem_flatMap, List.mem_range, List.mem_map, List.mem_filter, Armed.runOut,
    decide_eq_true_eq, and_assoc, watchEntries]

/-- A listed card whose reading has passed, with none due earlier, may be taken. -/
theorem State.windowDue_of_first (hi : i < 16) (hx : x ∈ s.armedList i)
    (hpast : x.time + (s.memory.watchEntry i).window < s.memory.clock)
    (hfirst : ∀ j, j < 16 → ∀ y ∈ s.armedList j, y.time + (s.memory.watchEntry j).window < s.memory.clock →
      x.time + (s.memory.watchEntry i).window ≤ y.time + (s.memory.watchEntry j).window) :
    s.windowDue i x.card = true := by
  refine List.any_eq_true.mpr ⟨(x.time + (s.memory.watchEntry i).window, i, x.card),
    State.mem_dueWindows.mpr ⟨i, hi, x, hx, hpast, rfl⟩, ?_⟩
  have hall : ∀ d ∈ s.dueWindows, x.time + (s.memory.watchEntry i).window ≤ d.1 := fun d hd => by
    obtain ⟨j, hj, y, hy, hlate, rfl⟩ := State.mem_dueWindows.mp hd
    exact hfirst j hj y hy hlate
  simpa using hall

theorem execWindowExpiry_due (hp : s.powered = true) (he : s.engine ≠ .unformatted)
    (hd : s.windowDue i card = true) : execWindowExpiry i card s = .next (s.disarm card i) :=
  (whenPowered_on hp _).trans (congrArg _ (if_pos ⟨he, hd⟩))

/-- What a card off an entry's list leaves (R131). -/
theorem State.disarm_eq (s : State) (card i : Nat) :
    let w := s.memory.watchEntry i
    let list := (s.armedList i).filter fun y => y.card ≠ card
    s.disarm card i = { s with
      memory := s.memory.setWatchEntry i
        { w with state := if w.state = .waitSecond ∧ list = [] then .waitFirst else w.state }
      armed := s.armed.set [] i list } := by
  have hlist : (s.armedList i).filter (fun y => y.card != card) = (s.armedList i).filter fun y => y.card ≠ card :=
    List.filter_congr fun y _ => Bool.eq_iff_iff.mpr (by simp)
  simp only [State.disarm, hlist, List.isEmpty_iff]
  rfl

/-- Settles O52: each request by what its change finds, and the window expiry as `State.disarm` of a card that is due. -/
theorem watchRequests : Obligations.WatchRequests := by
  refine ⟨fun s t tag i he hi => ⟨fun fields w' h hw => ⟨?_, ?_, ?_⟩, fun h => ?_, fun h => ?_⟩,
    fun s i card x hp he hi hx hcard hpast hfirst => ?_⟩
  · exact (watchOf_enable hw).1
  · exact (watchOf_enable hw).2
  · refine (answerRequest_taken h ..).trans ?_
    rw [defineWatchChange_defined he hi hw]
    rfl
  · refine (answerRequest_taken h ..).trans ?_
    obtain ⟨hdisabled, htriggered, hwaiting⟩ := rearmWatchChange_of_state he hi
    cases hs : (t.memory.watchEntry i).state with
    | disabled => rw [hdisabled hs]; rfl
    | triggered => rw [htriggered hs]; rfl
    | waitFirst => rw [hwaiting (.inl hs)]; rfl
    | waitSecond => rw [hwaiting (.inr hs)]; rfl
  · refine (answerRequest_taken h ..).trans ?_
    rw [inquireWatchChange_eq he hi]
    rfl
  · subst hcard
    exact (execWindowExpiry_due hp he (State.windowDue_of_first hi hx hpast hfirst)).trans
      (congrArg _ (State.disarm_eq ..))

end Sys2Proof.Machine
end

section
/-! The fee of a cut: the rate part rounded half to even, and the least and most a tier allows (R152, R153). -/

namespace Sys2Proof.Machine

/-! ### Half to even (R153) -/

/-- The quotient is a nearest one, and of two nearest ones the even one. -/
theorem halfEven_spec (n d : Nat) (hd : 0 < d) :
    2 * (d * halfEven n d) ≤ 2 * n + d ∧ 2 * n ≤ 2 * (d * halfEven n d) + d ∧
      (2 * n + d = 2 * (d * halfEven n d) ∨ 2 * n = 2 * (d * halfEven n d) + d → halfEven n d % 2 = 0) := by
  have hdiv : d * (n / d) + n % d = n := Nat.div_add_mod n d
  have hlt : n % d < d := Nat.mod_lt n hd
  unfold halfEven
  dsimp only
  split_ifs
  · rw [Nat.mul_add_one]
    omega
  · rw [Nat.mul_add_one]
    omega
  · omega

/-! ### Bounds of the products (R142, R151) -/

/-- A whole number within a position's range times a rate or fee of at most 1000 stays below 10^15. -/
theorem mul_lt_of_position_range {x : Int} {n : Nat} (hx : x ≤ 999999999999) (hn : n ≤ 1000) :
    x * n < 10 ^ 15 :=
  calc x * n ≤ 999999999999 * n := mul_le_mul_of_nonneg_right hx (Int.natCast_nonneg n)
    _ < 10 ^ 15 := by omega

/-! ### The cut (R152, R153) -/

theorem Tier.fee_eq (t : Tier) (net items : Int) :
    let raw : Int := halfEven (net.toNat * t.rate) 10000 + items * t.itemFee
    t.fee net items = min net (if t.maxFee = 0 then max raw t.minFee else min (max raw t.minFee) t.maxFee) :=
  min_comm ..

/-- The fee of a net above 0 lies between 0 and the net, whatever the items. -/
theorem Tier.fee_bounds (t : Tier) {net : Int} (items : Int) (h : 0 < net) :
    0 ≤ t.fee net items ∧ t.fee net items ≤ net := by
  rw [Tier.fee_eq]
  refine ⟨le_min h.le ?_, min_le_left ..⟩
  have hleast (raw : Int) : 0 ≤ max raw (t.minFee : Int) := le_max_of_le_right (Int.natCast_nonneg _)
  split
  · exact hleast _
  · exact le_min (hleast _) (Int.natCast_nonneg _)

theorem cutOf_nonpos (t : Tier) {p : Position} (h : p.due ≤ 0) :
    cutOf t p = ⟨p.due, 0, 0, p.due, p.billings⟩ := by
  simp only [cutOf, if_neg (not_lt.mpr h), min_eq_left h]

theorem cutOf_pos (t : Tier) {p : Position} (h : 0 < p.due) :
    cutOf t p = ⟨p.due, t.fee p.due p.items, p.due - t.fee p.due p.items, 0, p.billings⟩ := by
  simp only [cutOf, if_pos h, min_eq_right h.le]

/-- The rate part of a fee, on whole numbers with sign: `halfEven_spec` for a net above 0. -/
theorem ratePart_spec {net : Int} (h : 0 < net) (rate : Nat) :
    let q : Int := halfEven (net.toNat * rate) 10000
    10000 * (2 * q - 1) ≤ 2 * (net * rate) ∧ 2 * (net * rate) ≤ 10000 * (2 * q + 1) ∧
      (2 * (net * rate) = 10000 * (2 * q - 1) ∨ 2 * (net * rate) = 10000 * (2 * q + 1) → q % 2 = 0) := by
  obtain ⟨hlow, hhigh, htie⟩ := halfEven_spec (net.toNat * rate) 10000 (by decide)
  have hcast : net * rate = ((net.toNat * rate : Nat) : Int) := by
    rw [Nat.cast_mul, Int.toNat_of_nonneg h.le]
  rw [hcast]
  dsimp only
  omega

/-- Settles O51: by `cutOf_nonpos` and `cutOf_pos`, with the rate part by `ratePart_spec`. -/
theorem tiersAndTheFeeOfACut : Obligations.TiersAndTheFeeOfACut := by
  refine fun t p => ⟨rfl, rfl, fun r => rfl, fun hgross hrefunded hcarry hitems hrate hfee => ⟨?_, ?_⟩, rfl,
    fun h => ?_, fun h => ?_⟩
  · have hnet : p.due ≤ 999999999999 := by
      rw [Position.due]
      omega
    exact mul_lt_of_position_range hnet hrate
  · exact mul_lt_of_position_range (hitems.trans hgross) hfee
  · have hdue : p.due ≤ 0 := h
    rw [cutOf_nonpos t hdue]
    exact ⟨rfl, rfl, rfl⟩
  · have hdue : 0 < p.due := h
    rw [cutOf_pos t hdue]
    obtain ⟨hnonneg, hle⟩ := t.fee_bounds p.items hdue
    obtain ⟨hlow, hhigh, htie⟩ := ratePart_spec hdue t.rate
    exact ⟨rfl, sub_add_cancel .., hnonneg, hle, _, hlow, hhigh, htie, t.fee_eq ..⟩

end Sys2Proof.Machine
end

section
/-! The merchant and fee tier requests, by the record each names (R141, R143 to R147, R151). -/

namespace Sys2Proof.Machine

variable {s t : State} {q : Instr} {m : RecordMemory} {code tag id i page : Nat} {r : Merchant}

/-! ### Requests on a merchant by its id (R141) -/

/-- A taken request that comes to a change of Record Memory alone: the memory and the reply are that change's. -/
theorem answerRequest_onMemory (h : s.take q = some t) {change : Change} {f : RecordMemory → RecordMemory × Reply}
    (hc : change t = onMemory f t) {x : RecordMemory × Reply} (hx : f t.memory = x) :
    answerRequest q code tag change s =
      .next ((t.withMemory x.1).enter code x.2.outcome x.2.flags tag x.2.body) := by
  subst hx
  rw [answerRequest_taken h, hc]
  rfl

/-- A request on an id, taken in SETUP or TRADING, is its change of the used record that holds the id. -/
theorem onMerchant_found (he : t.engine ≠ .unformatted) (hm : t.memory.findMerchant id = some (i, r))
    (change : Nat → Merchant → RecordMemory → RecordMemory × Reply) :
    onMerchant id change t = onMemory (change i r) t := by
  rw [onMerchant, if_neg he, hm]

theorem answerRequest_onMerchant_unknown (h : s.take q = some t) (he : t.engine ≠ .unformatted)
    (hm : t.memory.findMerchant id = none) (change : Nat → Merchant → RecordMemory → RecordMemory × Reply) :
    answerRequest q code tag (onMerchant id change) s =
      .next (t.enter code (.refused .unknownMerchant) AnswerFlags.none tag .empty) := by
  rw [answerRequest_taken h, onMerchant, if_neg he, hm]
  rfl

/-! ### DEFINE-MERCHANT (R143, R144) -/

theorem MerchantOperands.ranged_iff (p : MerchantOperands) :
    p.ranged = true ↔ p.category < 64 ∧ p.trust < 4 ∧ p.tier < 16 ∧ p.floor ≤ 10000000 ∧ p.allowance ≤ 100000000 := by
  simp only [MerchantOperands.ranged, Bool.and_eq_true, inRange_iff, maxAmount]
  omega

/-- The record a new merchant takes is the lowest UNUSED one. -/
theorem RecordMemory.freeMerchant_eq_some (hi : i < 512) (hfree : (m.merchant i).state = .unused)
    (hlowest : ∀ j, j < i → (m.merchant j).state ≠ .unused) : m.freeMerchant = some i :=
  firstIndex_eq_some (Nat.zero_le i) (by simpa [merchantSlots] using hi)
    (by simpa [Merchant.used] using hfree) fun j _ hj => by
      simpa [Merchant.used] using hlowest j hj

theorem RecordMemory.freeMerchant_eq_none (hfull : ∀ i, i < 512 → (m.merchant i).state ≠ .unused) :
    m.freeMerchant = none :=
  firstIndex_eq_none.mpr fun j _ hj => by
    simpa [Merchant.used] using hfull j (by simpa [merchantSlots] using hj)

theorem defineMerchantChange_ranged {p : MerchantOperands} (he : t.engine ≠ .unformatted) (hp : p.ranged = true) :
    defineMerchantChange id p t = onMemory (defineMerchantRecord id p) t := by
  rw [defineMerchantChange, if_neg he, hp]
  rfl

theorem defineMerchantRecord_found (p : MerchantOperands) (hm : m.findMerchant id = some (i, r)) :
    defineMerchantRecord id p m = (m.setMerchant i (r.redefine p), Reply.done (.merchantIndex i)) := by
  rw [defineMerchantRecord, hm]

theorem defineMerchantRecord_new (p : MerchantOperands) (hm : m.findMerchant id = none)
    (hi : m.freeMerchant = some i) :
    defineMerchantRecord id p m = (m.setMerchant i (newMerchant id p), Reply.done (.merchantIndex i)) := by
  simp only [defineMerchantRecord, hm, hi]

theorem defineMerchantRecord_full (p : MerchantOperands) (hm : m.findMerchant id = none)
    (hfull : m.freeMerchant = none) : defineMerchantRecord id p m = refuseMemory .tableFull m := by
  simp only [defineMerchantRecord, hm, hfull]

/-! ### CLOSE-MERCHANT (R146) -/

theorem closeMerchantRecord_holdsOpen (hopen : 0 < r.openHolds) :
    closeMerchantRecord i r m = refuseMemory .holdsOpen m :=
  if_pos hopen

theorem closeMerchantRecord_dueOpen (hopen : ¬ 0 < r.openHolds) (hdue : 0 < r.position.due) :
    closeMerchantRecord i r m = refuseMemory .dueOpen m :=
  (if_neg hopen).trans (if_pos hdue)

/-- A merchant with no OPEN hold and no due above 0 is written off and cleared, and its period's billings are made. -/
theorem closeMerchantRecord_closed (hopen : ¬ 0 < r.openHolds) (hdue : ¬ 0 < r.position.due) :
    closeMerchantRecord i r m =
      (RecordMemory.setMerchant
        { m with funds := { m.funds.writeOffDue (-r.position.due) with
            billed := Vector.zipWith (fun a b => a + moneyInt b) m.funds.billed r.position.billings } }
        i Merchant.unused,
        Reply.done (.merchantClosed i r.position.due (-r.position.due) r.position.billings)) := by
  refine ((if_neg hopen).trans (if_neg hdue)).trans ?_
  dsimp only
  rw [Funds.billAll_eq]
  rfl

/-! ### INQUIRE-MERCHANT (R147) -/

/-- What INQUIRE-MERCHANT gives turns on the state alone. -/
theorem reportMerchant_eq (i : Nat) (r : Merchant) (page : Nat) :
    reportMerchant i r page =
      if r.state = .unused then .merchantUnused else .merchantPage i r.state r.id r.period (r.page page) := by
  rw [reportMerchant, Merchant.used]
  by_cases h : r.state = .unused <;> simp [h]

theorem inquireMerchantChange_found (index : Nat) (he : t.engine ≠ .unformatted) (hp : page < 3)
    (hm : t.memory.findMerchant id = some (i, r)) :
    inquireMerchantChange 0 page index id t =
      (t, Reply.done (.merchantPage i r.state id r.period (r.page page))) := by
  obtain ⟨hu, rfl, -⟩ := RecordMemory.findMerchant_spec hm
  rw [inquireMerchantChange, if_neg he, if_neg (by omega), hm]
  exact congrArg (fun body => (t, Reply.done body)) (if_pos hu)

theorem inquireMerchantChange_unknown (index : Nat) (he : t.engine ≠ .unformatted) (hp : page < 3)
    (hm : t.memory.findMerchant id = none) :
    inquireMerchantChange 0 page index id t = refuse .unknownMerchant t := by
  rw [inquireMerchantChange, if_neg he, if_neg (by omega), hm]

theorem inquireMerchantChange_index (id : Nat) (he : t.engine ≠ .unformatted) (hp : page < 3) (hi : i < 512) :
    inquireMerchantChange 1 page i id t = (t, Reply.done (reportMerchant i (t.memory.merchant i) page)) := by
  rw [inquireMerchantChange, if_neg he, if_neg (by omega)]
  exact if_neg (Nat.not_le.mpr hi)

/-! ### DEFINE-TIER (R151) -/

theorem tierOf_eq (rate itemFee minFee maxFee : Nat) :
    tierOf rate itemFee minFee maxFee =
      if rate ≤ 1000 ∧ itemFee ≤ 1000 ∧ minFee ≤ 100000 ∧ maxFee ≤ 10000000 ∧ (maxFee = 0 ∨ minFee ≤ maxFee) then
        some ⟨rate, itemFee, minFee, maxFee⟩
      else none := by
  simp [tierOf, inRange_iff, and_assoc]

theorem defineTierChange_some {tier : Nat} (x : Tier) (he : t.engine ≠ .unformatted) (hi : tier < 16) :
    defineTierChange tier (some x) t = onMemory (fun m => (m.setTier tier x, Reply.done (.tier (m.tier tier)))) t := by
  rw [defineTierChange, if_neg he]
  exact if_pos hi

theorem defineTierChange_none (tier : Nat) (he : t.engine ≠ .unformatted) :
    defineTierChange tier none t = refuse .badField t := by
  rw [defineTierChange, if_neg he]

/-! ### The requests -/

/-- Settles O50: each request by the record its id or index names, and DEFINE-TIER by `tierOf_eq`. -/
theorem merchantRequests : Obligations.MerchantRequests := by
  refine fun s t tag id he =>
    ⟨fun category trust tier floor allowance period h hc ht hr hf ha => ?define,
      fun i r hm => ⟨fun h => ?suspend, fun h => ?reinstate, fun h => ?close, fun page index hp h => ?inquireId⟩,
      fun page index hp hi h => ?inquireIndex, fun hm => ?unknown,
      fun tier rate itemFee minFee maxFee hi => ⟨fun h => ?defineTier, fun h => ?inquireTier⟩⟩
  case define =>
    have hranged := defineMerchantChange_ranged (id := id) he
      ((MerchantOperands.ranged_iff ⟨category, trust, tier, floor, allowance, period⟩).mpr ⟨hc, ht, hr, hf, ha⟩)
    refine ⟨fun i r hm => ?_, fun hm => ⟨fun i hi hfree hlowest => ?_, fun hfull => ?_⟩⟩
    · exact answerRequest_onMemory h hranged (defineMerchantRecord_found _ hm)
    · exact answerRequest_onMemory h hranged
        (defineMerchantRecord_new _ hm (RecordMemory.freeMerchant_eq_some hi hfree hlowest))
    · exact answerRequest_onMemory h hranged
        (defineMerchantRecord_full _ hm (RecordMemory.freeMerchant_eq_none hfull))
  case suspend | reinstate => exact answerRequest_onMemory h (onMerchant_found he hm _) rfl
  case close =>
    have hchange := onMerchant_found he hm closeMerchantRecord
    by_cases hopen : 0 < r.openHolds
    · exact (answerRequest_onMemory h hchange (closeMerchantRecord_holdsOpen hopen)).trans (if_pos hopen).symm
    · by_cases hdue : 0 < r.position.due
      · exact (answerRequest_onMemory h hchange (closeMerchantRecord_dueOpen hopen hdue)).trans
          ((if_neg hopen).trans (if_pos hdue)).symm
      · exact (answerRequest_onMemory h hchange (closeMerchantRecord_closed hopen hdue)).trans
          ((if_neg hopen).trans (if_neg hdue)).symm
  case inquireId =>
    refine (answerRequest_taken h ..).trans ?_
    rw [inquireMerchantChange_found index he hp hm]
    rfl
  case inquireIndex =>
    refine (answerRequest_taken h ..).trans ?_
    rw [inquireMerchantChange_index id he hp hi, reportMerchant_eq]
    rfl
  case unknown =>
    refine ⟨fun h => ?_, fun h => ?_, fun h => ?_, fun page index hp h => (answerRequest_taken h ..).trans ?_⟩
    · exact answerRequest_onMerchant_unknown h he hm _
    · exact answerRequest_onMerchant_unknown h he hm _
    · exact answerRequest_onMerchant_unknown h he hm _
    · rw [inquireMerchantChange_unknown index he hp hm]
      rfl
  case defineTier =>
    have htier := tierOf_eq rate itemFee minFee maxFee
    split at htier
    case isTrue hfields =>
      refine (answerRequest_onMemory h (htier ▸ defineTierChange_some _ he hi) rfl).trans ?_
      exact (if_pos hfields).symm
    case isFalse hfields =>
      refine (answerRequest_taken h ..).trans ?_
      rw [htier, defineTierChange_none tier he, if_neg hfields]
      rfl
  case inquireTier => exact answerRequest_onIndex h he hi rfl

end Sys2Proof.Machine
end

section
/-! The arbiter's turns: which descriptor the next turn is given to, and what its turn or its service makes of the merchant
at its cursor (R158 to R164, R188). -/

namespace Sys2Proof.Machine

variable {s : State} {i : Nat} {rest : List Producer}

/-! ### The arbiter's choice (R158) -/

theorem Descriptor.walked_iff (d : Descriptor) : d.walked = true ↔ d.last < d.cursor :=
  decide_eq_true_iff

theorem Descriptor.eligible_iff (d : Descriptor) (inbound : List Message) :
    d.eligible inbound.isEmpty = true ↔
      d.state = .running ∧ (d.mode = .burst ∨ d.ratio ≤ d.credit ∨ inbound = [] ∨ d.last < d.cursor) := by
  simp only [Descriptor.eligible, Bool.and_eq_true, Bool.or_eq_true, decide_eq_true_eq, List.isEmpty_iff,
    Descriptor.walked_iff, or_assoc]

/-- The next turn goes to the first eligible descriptor of the four that follow the last served, around the ring. -/
theorem State.nextTurn_eq_some_iff : s.nextTurn = some i ↔
    ∃ k, 1 ≤ k ∧ k ≤ 4 ∧ i = (s.lastServed + k) % 4 ∧
      (s.memory.descriptor i).eligible s.inbound.isEmpty = true ∧
      ∀ l, 1 ≤ l → l < k → ¬ (s.memory.descriptor ((s.lastServed + l) % 4)).eligible s.inbound.isEmpty = true := by
  have hring : [1, 2, 3, 4] = List.range' 1 4 := rfl
  simp only [State.nextTurn, hring, List.find?_map, Option.map_eq_some_iff, List.find?_range'_eq_some,
    List.mem_range'_1, Function.comp_apply, Bool.not_eq_true', Bool.not_eq_true]
  constructor
  · rintro ⟨k, ⟨hready, ⟨hlow, hhigh⟩, hfirst⟩, rfl⟩
    exact ⟨k, hlow, Nat.le_of_lt_succ hhigh, rfl, hready, hfirst⟩
  · rintro ⟨k, hlow, hhigh, rfl, hready, hfirst⟩
    exact ⟨k, ⟨hready, ⟨hlow, Nat.lt_succ_of_le hhigh⟩, hfirst⟩, rfl⟩

/-! ### A cut made (R154, R161) -/

theorem CutResult.billed_eq (c : CutResult) : c.billed = c.billings.sum := by
  obtain ⟨net, fee, payout, carry, ⟨⟨l⟩, hl⟩⟩ := c
  match l, hl with
  | [_, _, _, _, _, _, _, _], _ => rfl

/-- A cut's fund totals in one record: the paid-out, fee and due totals, and every sponsor billed. -/
theorem Funds.settleCut_eq (f : Funds) (c : CutResult) :
    f.settleCut c = { f with
      paidOut := f.paidOut + moneyInt c.payout
      fees := f.fees + moneyInt c.fee
      due := f.due - moneyInt (c.payout + c.fee)
      billed := Vector.zipWith (fun a b => a + moneyInt b) f.billed c.billings } := by
  rw [Funds.settleCut, Funds.billAll_eq]

theorem Descriptor.afterCut_eq (d : Descriptor) (c : CutResult) :
    d.afterCut c = { d with
      state := .running, cut := d.cut + 1, payout := d.payout + c.payout, fees := d.fees + c.fee
      billed := d.billed + c.billings.sum, carried := d.carried + c.carry, cursor := d.cursor + 1, credit := 0 } := by
  rw [Descriptor.afterCut, CutResult.billed_eq]

/-! ### A turn and a service, by what stands at the cursor (R160, R162, R163) -/

theorem State.orWait_eq (s : State) (i : Nat) (step : State → Nat → State) :
    s.orWait i step =
      if s.answers.length < 64 then step s i
      else (s.setDescriptor i { s.memory.descriptor i with state := .waiting }).wait (.descriptor i) := by
  simp only [State.orWait, State.slotFree_iff]

theorem State.takeTurn_eq (s : State) (i : Nat) :
    let d := s.memory.descriptor i
    let r := s.memory.merchant d.cursor
    s.takeTurn i =
      if d.last < d.cursor then s.orWait i State.endRun
      else if r.state ≠ .unused ∧ r.period = d.label then s.orWait i State.cutMerchant
      else s.setDescriptor i d.pass := by
  simp only [State.takeTurn, Descriptor.walked_iff, Descriptor.cuts_iff]

theorem State.serveStep_eq (s : State) (i : Nat) :
    let d := s.memory.descriptor i
    let r := s.memory.merchant d.cursor
    s.serveStep i =
      if d.last < d.cursor then s.endRun i
      else if r.state ≠ .unused ∧ r.period = d.label then s.cutMerchant i
      else s.setDescriptor i d.pass := by
  simp only [State.serveStep, Descriptor.walked_iff, Descriptor.cuts_iff]

theorem execTurn_next (hp : s.powered = true) (he : s.engine ≠ .unformatted) (hn : s.nextTurn = some i) :
    execTurn s = .next (State.takeTurn { s with lastServed := i } i) := by
  rw [execTurn, whenPowered_on hp, State.turn, if_neg he, hn]

theorem execTurn_none (hp : s.powered = true) (hn : s.nextTurn = none) : execTurn s = .next s := by
  rw [execTurn, whenPowered_on hp, State.turn, hn]
  exact congrArg _ (ite_self s)

/-- A WAITING descriptor at the head of the list is served when a slot is free. -/
theorem execDescriptorService_served (hp : s.powered = true) (hw : s.waiting = .descriptor i :: rest)
    (hfree : s.answers.length < 64) (hd : (s.memory.descriptor i).state = .waiting) :
    execDescriptorService s = .next (State.serveStep { s with waiting := rest } i) := by
  rw [execDescriptorService, whenPowered_on hp]
  simp only [State.serveDescriptor, hw, State.slotFree_of_lt hfree, hd, if_true]

theorem execDescriptorService_blocked (hp : s.powered = true) (hw : s.waiting = .descriptor i :: rest)
    (hfull : 64 ≤ s.answers.length) : execDescriptorService s = .next s := by
  rw [execDescriptorService, whenPowered_on hp]
  simp [State.serveDescriptor, hw, State.slotFree_of_ge hfull]

/-- Settles O54: the choice by `State.nextTurn_eq_some_iff`, the turn and the service by the branches of `State.takeTurn_eq`
and `State.serveStep_eq`. -/
theorem turnExaminesTheMerchant : Obligations.TurnExaminesTheMerchant := by
  refine ⟨fun s i => ?choice, fun s i rest hp he => ⟨fun hn => ?turn, fun hn => ?idle, fun hw hfree hd => ?service,
    fun hw hfull => ?blocked⟩⟩
  case choice => simpa only [Descriptor.eligible_iff] using State.nextTurn_eq_some_iff (s := s) (i := i)
  case turn =>
    refine (execTurn_next hp he hn).trans (congrArg _ ?_)
    rw [State.takeTurn_eq, State.orWait_eq, State.orWait_eq, State.cutMerchant, Funds.settleCut_eq,
      Descriptor.afterCut_eq]
    rfl
  case idle => exact execTurn_none hp hn
  case service =>
    refine (execDescriptorService_served hp hw hfree hd).trans (congrArg _ ?_)
    rw [State.serveStep_eq, State.cutMerchant, Funds.settleCut_eq, Descriptor.afterCut_eq]
    rfl
  case blocked => exact execDescriptorService_blocked hp hw hfull

end Sys2Proof.Machine
end

section
/-! START-PAYOUT, STOP-PAYOUT, RESUME-PAYOUT and INQUIRE-PAYOUT, by the state of the descriptor each names (R157, R166 to
R168). -/

namespace Sys2Proof.Machine

variable {s t : State} {i mode ratio first last label form : Nat} {run : RunMode} {ends : Bool}

/-! ### START-PAYOUT (R157) -/

theorem runModeOf_eq_some_iff : runModeOf mode = some run ↔ mode = 0 ∧ run = .step ∨ mode = 1 ∧ run = .burst := by
  unfold runModeOf
  split <;> simp_all [eq_comm]

theorem payoutInRange_iff : payoutInRange i ratio first last = true ↔
    i < 4 ∧ 1 ≤ ratio ∧ ratio ≤ 64 ∧ first ≤ last ∧ last ≤ 511 := by
  simp only [payoutInRange, Bool.and_eq_true, inRange_iff]
  omega

/-- START-PAYOUT with its operands in range, by the descriptor's state. -/
theorem startPayoutChange_of_state (he : t.engine ≠ .unformatted) (hm : runModeOf mode = some run)
    (hr : payoutInRange i ratio first last = true) :
    let d := t.memory.descriptor i
    (d.state = .running ∨ d.state = .waiting ∨ d.state = .stopped →
      startPayoutChange i mode ratio first last label t = refuse .runBusy t) ∧
    (d.state = .idle ∨ d.state = .done → startPayoutChange i mode ratio first last label t =
      (t.setDescriptor i (startRun run ratio first last label), Reply.done (.payoutStarted i))) := by
  rw [startPayoutChange, if_neg he, hm, hr]
  refine ⟨?_, ?_⟩
  · rintro (hs | hs | hs) <;> simp [hs]
  · rintro (hs | hs) <;> simp [hs]

/-! ### STOP-PAYOUT (R166) -/

/-- STOP-PAYOUT of either form, by the descriptor's state. -/
theorem stopPayoutChange_of_state (he : t.engine ≠ .unformatted) (hi : i < 4) (hf : stopFormOf form = some ends) :
    let d := t.memory.descriptor i
    (d.state = .idle ∨ d.state = .done → stopPayoutChange i form t = refuse .wrongState t) ∧
    (d.state = .running ∨ d.state = .waiting ∨ d.state = .stopped → stopPayoutChange i form t = t.stopRun i ends) := by
  rw [stopPayoutChange, if_neg he, hf]
  refine ⟨?_, ?_⟩
  · rintro (hs | hs) <;> simp [hs, hi]
  · rintro (hs | hs | hs) <;> simp [hs, hi]

/-! ### RESUME-PAYOUT and INQUIRE-PAYOUT (R167, R168) -/

theorem resumePayoutChange_of_state (he : t.engine ≠ .unformatted) (hi : i < 4) :
    let d := t.memory.descriptor i
    (d.state = .stopped →
      resumePayoutChange i t = (t.setDescriptor i { d with state := .running }, Reply.done .empty)) ∧
    (d.state = .running ∨ d.state = .waiting → resumePayoutChange i t = (t, Reply.done .empty)) ∧
    (d.state = .idle ∨ d.state = .done → resumePayoutChange i t = refuse .wrongState t) := by
  rw [resumePayoutChange, if_neg he, if_neg (Nat.not_le.mpr hi)]
  refine ⟨fun hs => ?_, ?_, ?_⟩
  · simp only [hs]
  · rintro (hs | hs) <;> simp only [hs]
  · rintro (hs | hs) <;> simp only [hs]

theorem Descriptor.waitsFor_eq (d : Descriptor) :
    d.waitsFor = if d.state = .waiting then some (if d.last < d.cursor then .close else .cut) else none := by
  simp only [Descriptor.waitsFor, Descriptor.walked_iff]

theorem inquirePayoutChange_eq (he : t.engine ≠ .unformatted) (hi : i < 4) :
    inquirePayoutChange i t =
      (t, Reply.done (.descriptor (t.memory.descriptor i) (t.memory.descriptor i).waitsFor)) := by
  rw [inquirePayoutChange, if_neg he]
  exact if_neg (Nat.not_le.mpr hi)

/-- Settles O53: each request by what its change makes of the descriptor in its state. -/
theorem payoutRequests : Obligations.PayoutRequests := by
  refine fun s t tag i he hi => ⟨fun mode run ratio first last label h hm hlow hhigh hrange hend => ?start,
    fun form h hf => ?stop, fun h => ?resume, fun h => ?inquire⟩
  case start =>
    obtain ⟨hbusy, hfree⟩ := startPayoutChange_of_state (label := label) he (runModeOf_eq_some_iff.mpr hm)
      (payoutInRange_iff.mpr ⟨hi, hlow, hhigh, hrange, hend⟩)
    refine ⟨fun hs => (answerRequest_taken h ..).trans ?_, fun hs => (answerRequest_taken h ..).trans ?_⟩
    · rw [hbusy hs]
      rfl
    · rw [hfree hs]
      rfl
  case stop =>
    obtain ⟨ends, hform⟩ : ∃ ends, stopFormOf form = some ends := by
      rcases hf with rfl | rfl
      · exact ⟨false, rfl⟩
      · exact ⟨true, rfl⟩
    obtain ⟨hnone, hrun⟩ := stopPayoutChange_of_state he hi hform
    refine ⟨fun hs => (answerRequest_taken h ..).trans ?_, fun hs => (answerRequest_taken h ..).trans ?_⟩
    · rw [hnone hs]
      rfl
    · rw [hrun hs]
      rcases hf with rfl | rfl <;> (cases hform; rfl)
  case resume =>
    refine (answerRequest_taken h ..).trans ?_
    obtain ⟨hstopped, hgoing, hnone⟩ := resumePayoutChange_of_state he hi
    cases hs : (t.memory.descriptor i).state with
    | stopped => rw [hstopped hs]; rfl
    | running => rw [hgoing (.inl hs)]; rfl
    | waiting => rw [hgoing (.inr hs)]; rfl
    | idle => rw [hnone (.inl hs)]; rfl
    | done => rw [hnone (.inr hs)]; rfl
  case inquire =>
    refine (answerRequest_taken h ..).trans ?_
    rw [inquirePayoutChange_eq he hi, Descriptor.waitsFor_eq]
    rfl

end Sys2Proof.Machine
end

section
/-! The trading clock and CLOSE-DAY (R173, R175, R177, R182). -/

namespace Sys2Proof.Machine

variable {s t : State} {tag reading : Nat}

/-! ### The clock (R173, R175) -/

theorem setClockChange_forward (h : t.memory.clock ≤ reading) :
    setClockChange reading t = ({ t with memory := { t.memory with clock := reading } },
      Reply.done (.clockSet t.memory.clock reading)) :=
  if_neg (Nat.not_lt.mpr h)

theorem setClockChange_backward (h : reading < t.memory.clock) :
    setClockChange reading t =
      (t, ⟨.refused .badTime, AnswerFlags.none, .clockSet t.memory.clock t.memory.clock⟩) :=
  if_pos h

/-- Settles O9: the tick by the engine state, SET-CLOCK by the side of the present reading that the new one is on. -/
theorem clockCountsAndIsSetForward : Obligations.ClockCountsAndIsSetForward := by
  refine ⟨fun s he => ?ticks, fun s he => ?stands, fun s t tag reading h =>
    ⟨fun hr => ?forward, fun hr => ?backward⟩⟩
  case ticks => exact congrArg Host.Outcome.next (if_neg he)
  case stands => exact congrArg Host.Outcome.next (if_pos he)
  case forward =>
    refine (answerRequest_taken h ..).trans ?_
    rw [setClockChange_forward hr]
    rfl
  case backward =>
    refine (answerRequest_taken h ..).trans ?_
    rw [setClockChange_backward hr]

/-! ### CLOSE-DAY and INQUIRE-CLOCK (R177, R182) -/

theorem closeDayChange_busy (he : t.engine ≠ .unformatted) (hb : t.memory.sweep.state ≠ .idle) :
    closeDayChange t = refuse .sweepBusy t := by
  rw [closeDayChange, if_neg he, if_pos hb]

theorem closeDayChange_lastDay (he : t.engine ≠ .unformatted) (hi : t.memory.sweep.state = .idle)
    (hd : 65535 ≤ t.memory.today) : closeDayChange t = refuse .wrongState t := by
  rw [closeDayChange, if_neg he, if_neg (not_not.mpr hi)]
  exact if_pos hd

theorem closeDayChange_idle (he : t.engine ≠ .unformatted) (hi : t.memory.sweep.state = .idle)
    (hd : t.memory.today < 65535) :
    closeDayChange t =
      ({ t with memory := { t.memory with
          today := t.memory.today + 1
          sweep := SweepUnit.begin (t.memory.today + 1) } },
        Reply.done (.dayClosed (t.memory.today + 1))) := by
  rw [closeDayChange, if_neg he, if_neg (not_not.mpr hi)]
  exact if_neg (Nat.not_le.mpr hd)

theorem inquireClockChange_eq (he : t.engine ≠ .unformatted) :
    inquireClockChange t = (t, Reply.done (.clock t.memory.clock t.memory.today t.memory.sweep)) :=
  if_neg he

/-- Settles O10: CLOSE-DAY by the unit's state and the day. -/
theorem closeDayStartsTheWalk : Obligations.CloseDayStartsTheWalk := by
  refine fun s t tag he => ⟨fun h => ?close, fun h => ?inquire⟩
  case close =>
    rw [show exec (.closeDay tag) s = _ from answerRequest_taken h ..]
    refine ⟨fun hb => ?busy, fun hi hd => ?lastDay, fun hi hd => ?begins⟩
    case busy =>
      rw [closeDayChange_busy he hb]
      rfl
    case lastDay =>
      rw [closeDayChange_lastDay he hi hd.ge]
      rfl
    case begins =>
      rw [closeDayChange_idle he hi hd]
      rfl
  case inquire =>
    refine (answerRequest_taken h ..).trans ?_
    rw [inquireClockChange_eq he]
    rfl

end Sys2Proof.Machine
end

section
/-! The day sweep: what the walk's step examines, where it moves, and how it ends (R179, R181, R188). -/

namespace Sys2Proof.Machine

variable {s : State} {m : RecordMemory} {v : SweepUnit} {c : Card} {next : Slot} {rest : List Producer}

/-! ### The slot at the cursor examined (R179) -/

/-- Writing a card back leaves the unit alone, and the unit has no part in what is written. -/
theorem RecordMemory.settle_withSweep (m : RecordMemory) (u : SweepUnit) (slot : Slot) (c : Card) (wrote : Bool) :
    (RecordMemory.settle { m with sweep := u } slot c wrote).1 = { (m.settle slot c wrote).1 with sweep := u } := by
  cases wrote <;> cases slot <;> rfl

theorem RecordMemory.examine_free (hc : m.cardAt m.sweep.cursor = none) : m.examine = m := by
  rw [examine, hc]

theorem RecordMemory.examine_passed (hc : m.cardAt m.sweep.cursor = some c) (h : m.sweep.day ≤ c.sweptThrough) :
    m.examine = { m with sweep := { m.sweep with passed := m.sweep.passed + 1 } } := by
  rw [examine, hc]
  exact if_pos h

/-- The unit's counters after a card behind the day is swept (R178, R179). -/
theorem SweepUnit.count_behind (u : SweepUnit) (h : c.sweptThrough < u.day) :
    let gone := c.lots.filter fun l => decide (l.expiry < u.day)
    u.count (sweepCard u.day c) = { u with
      swept := u.swept + 1
      expired := u.expired + if c.expiry < u.day ∧ c.base = .active then 1 else 0
      lots := u.lots + gone.length
      bonus := u.bonus + sumLots gone } := by
  simp only [count, sweepCard_behind h, Bool.and_eq_true, decide_eq_true_eq]

/-- A card behind a day, swept and written back: it is a value change only when a lot is written off (R29, R179). -/
theorem RecordMemory.settle_sweepCard (m : RecordMemory) (slot : Slot) {day : Nat} (h : c.sweptThrough < day) :
    let gone := c.lots.filter fun l => decide (l.expiry < day)
    (m.settle slot (sweepCard day c).card !(sweepCard day c).written.isEmpty).1 = m.putCard slot
      (if gone = [] then
        { c with base := if c.expiry < day then .expired else c.base, sweptThrough := day }
      else
        { c with
          lots := c.lots.filter fun l => decide (day ≤ l.expiry)
          base := if c.expiry < day then .expired else c.base
          sweptThrough := day
          counter := (c.counter + 1) % 65536
          lastActivity := m.today
          last := none }) := by
  intro gone
  rw [settle_pair, sweepCard_behind h]
  by_cases hg : gone = []
  case pos =>
    have hall : (c.lots.filter fun l => decide (day ≤ l.expiry)) = c.lots :=
      List.filter_eq_self.mpr fun l hl => by simpa using List.filter_eq_nil_iff.mp hg l hl
    simp [gone, hg, hall]
  case neg =>
    have hsome : gone.isEmpty = false := List.isEmpty_eq_false_iff.mpr hg
    simp only [gone, hg, hsome, Bool.not_false, if_true, if_false]

theorem RecordMemory.examine_swept (hc : m.cardAt m.sweep.cursor = some c) (h : c.sweptThrough < m.sweep.day) :
    let w := sweepCard m.sweep.day c
    m.examine =
      { (RecordMemory.settle { m with funds := w.written.foldl Funds.writeOffLot m.funds } m.sweep.cursor w.card
          !w.written.isEmpty).1 with
        sweep := m.sweep.count w } := by
  intro w
  rw [← settle_withSweep, examine, hc]
  exact if_neg (Nat.not_le.mpr h)

/-! ### The cursor (R179) -/

theorem Slot.after_main {n : Nat} (h : n < 1048575) : Slot.after (.main n) = some (.main (n + 1)) :=
  if_pos (Nat.succ_lt_succ h)

theorem Slot.after_overflow {n : Nat} (h : n < 65535) : Slot.after (.overflow n) = some (.overflow (n + 1)) :=
  if_pos (Nat.succ_lt_succ h)

/-! ### The walk's step and its end (R179, R181) -/

/-- A step that leaves the unit `v` before it moves on: the cursor advances. -/
theorem State.sweepOnce_moves (he : s.engine ≠ .unformatted) (hs : s.memory.sweep.state = .sweeping)
    (hx : s.memory.examine = { m with sweep := v }) (hn : v.cursor.after = some next) :
    s.sweepOnce = s.withMemory { m with sweep := { v with cursor := next } } := by
  rw [sweepOnce, if_pos ⟨he, hs⟩]
  simp only [hx, hn]
  rfl

/-- The last step with an answer slot free places the SWEEP-END. -/
theorem State.sweepOnce_ends (he : s.engine ≠ .unformatted) (hs : s.memory.sweep.state = .sweeping)
    (hx : s.memory.examine = { m with sweep := v }) (hn : v.cursor.after = none) (hfree : s.answers.length < 64) :
    s.sweepOnce = (s.withMemory { m with sweep := { v with state := .idle } }).enterNotice 65535 v.notice := by
  rw [sweepOnce, if_pos ⟨he, hs⟩]
  simp only [hx, hn]
  exact if_pos (State.slotFree_of_lt hfree)

/-- The last step with no answer slot free joins the waiting list. -/
theorem State.sweepOnce_waits (he : s.engine ≠ .unformatted) (hs : s.memory.sweep.state = .sweeping)
    (hx : s.memory.examine = { m with sweep := v }) (hn : v.cursor.after = none) (hfull : 64 ≤ s.answers.length) :
    s.sweepOnce = (s.withMemory { m with sweep := { v with state := .ending } }).wait .sweep := by
  rw [sweepOnce, if_pos ⟨he, hs⟩]
  simp only [hx, hn]
  exact if_neg (Bool.eq_false_iff.mp (State.slotFree_of_ge hfull))

theorem State.serveSweep_served (hw : s.waiting = .sweep :: rest) (hfree : s.answers.length < 64) :
    s.serveSweep = State.endSweep { s with waiting := rest } := by
  simp only [serveSweep, hw, State.slotFree_of_lt hfree, if_true]

theorem State.serveSweep_blocked (hfull : 64 ≤ s.answers.length) : s.serveSweep = s := by
  unfold serveSweep
  split
  · exact if_neg (Bool.eq_false_iff.mp (State.slotFree_of_ge hfull))
  · rfl

/-- Settles O11: what the slot at the cursor holds fixes the records and the unit before the step moves on
(`examine_free`, `examine_passed`, `examine_swept`); the cursor and the answer queue fix the rest. -/
theorem walkSweepsAndEnds : Obligations.WalkSweepsAndEnds := by
  refine ⟨?walk, fun _ => Slot.after_main, rfl, fun _ => Slot.after_overflow, ?service⟩
  case walk =>
    rintro s _ hp he rfl hs gone found m v
    obtain ⟨hx, hcursor, hday⟩ : s.memory.examine = { m with sweep := v } ∧ v.cursor = s.memory.sweep.cursor ∧
        v.day = s.memory.sweep.day := by
      dsimp only [m, v, found]
      split
      case h_1 hc => exact ⟨RecordMemory.examine_free hc, rfl, rfl⟩
      case h_2 c hc =>
        split
        case isTrue h => exact ⟨RecordMemory.examine_passed hc h, rfl, rfl⟩
        case isFalse h =>
          have hbehind := Nat.lt_of_not_le h
          refine ⟨(RecordMemory.examine_swept hc hbehind).trans ?_, rfl, rfl⟩
          rw [SweepUnit.count_behind _ hbehind, RecordMemory.settle_sweepCard _ _ hbehind, sweepCard_behind hbehind]
    have step : exec .sweepStep s = .next s.sweepOnce := whenPowered_on hp _
    rw [step]
    refine ⟨fun next hn => congrArg _ (State.sweepOnce_moves he hs hx (hcursor ▸ hn)), fun hlast => ?_⟩
    have hn : v.cursor.after = none := by rw [hcursor, hlast]; rfl
    refine ⟨fun hfree => congrArg _ ?_, fun hfull => congrArg _ (State.sweepOnce_waits he hs hx hn hfull)⟩
    rw [State.sweepOnce_ends he hs hx hn hfree, SweepUnit.notice, hday]
    rfl
  case service =>
    rintro s rest _ hp hw rfl
    have step : exec .sweepEnd s = .next s.serveSweep := whenPowered_on hp _
    rw [step]
    exact ⟨fun hfree => congrArg _ (State.serveSweep_served hw hfree),
      fun hfull => congrArg _ (State.serveSweep_blocked hfull)⟩

end Sys2Proof.Machine
end

section
/-! What a request's change leaves alone (the port, the engine state, the indicator, the update slots), and that no request is
answered with a notice (R187, R200). -/

namespace Sys2Proof.Machine

variable {s u : State} {m : RecordMemory} {change : Change} {slot : Slot} {c : Card}

/-! ### Answered requests -/

/-- A state but for Record Memory, the Referral Queue with its lapse record, the armed-card lists and the waiting list: what
no change of a request touches but FORMAT's, OPEN-TRADING's and CLOSE-TRADING's. -/
def State.desk (s : State) : State :=
  { s with memory := State.reset.memory, waiting := [], referrals := [], lapseRecord := [], armed := [] }

/-- A change that leaves the desk, answered with an outcome that is no notice. -/
structure Answered (s u : State) (o : AnswerOutcome) : Prop where
  desk : u.desk = s.desk
  outcome : o ≠ .notice

/-- Every state's change is so answered. -/
def Answers (change : Change) : Prop := ∀ s, Answered s (change s).1 (change s).2.outcome

theorem answers_refuse (r : RefusalReason) : Answers (refuse r) := fun _ => ⟨rfl, nofun⟩

theorem Answers.naming (h : Answers change) (cards : List Nat) : Answers (Machine.naming cards change) := fun s => by
  obtain ⟨hs, ho, -⟩ := naming_frame cards change s
  rw [hs, ho]
  exact h s

theorem answers_onMemory {change : RecordMemory → RecordMemory × Reply} (h : ∀ m, (change m).2.outcome ≠ .notice) :
    Answers (onMemory change) := fun _ => ⟨rfl, h _⟩

theorem answers_withCard {number : Nat} {change : Slot → Card → Change} (h : ∀ slot c, Answers (change slot c)) :
    Answers (withCard number change) := fun s => by
  unfold withCard
  split
  · exact answers_refuse _ s
  · split
    · exact answers_refuse _ s
    · exact h _ _ s

theorem answers_onIndex {limit index : Nat} {change : RecordMemory → RecordMemory × Reply}
    (h : ∀ m, (change m).2.outcome ≠ .notice) : Answers (onIndex limit index change) := fun s => by
  unfold onIndex
  split
  · exact answers_refuse _ s
  · split
    · exact answers_refuse _ s
    · exact answers_onMemory h s

theorem answers_onMerchant {id : Nat} {change : Nat → Merchant → RecordMemory → RecordMemory × Reply}
    (h : ∀ i r m, (change i r m).2.outcome ≠ .notice) : Answers (onMerchant id change) := fun s => by
  unfold onMerchant
  split
  · exact answers_refuse _ s
  · split
    · exact answers_onMemory (h _ _) s
    · exact answers_refuse _ s

theorem answers_withHold {n generation merchant : Nat}
    {change : RecordMemory → HoldRecord → Slot → Card → Nat → Merchant → RecordMemory × Reply}
    (h : ∀ m x slot c i r, (change m x slot c i r).2.outcome ≠ .notice) :
    Answers (withHold n generation merchant change) := fun s => by
  unfold withHold
  split
  · exact answers_refuse _ s
  · split
    · exact ⟨rfl, nofun⟩
    · exact answers_refuse _ s
  · split
    · exact answers_refuse _ s
    · split
      · exact answers_onMemory (fun m => h m _ _ _ _ _) s
      · exact answers_refuse _ s
      · exact answers_refuse _ s

/-! ### Outcomes of changes of Record Memory -/

theorem doneOrPart_ne_notice (less : Bool) : doneOrPart less ≠ .notice := by cases less <;> nofun

theorem loadCard_outcome (amount : Nat) : (loadCard m slot c amount).2.outcome ≠ .notice := by
  unfold loadCard
  dsimp only
  split
  · nofun
  · split
    · nofun
    · split <;> nofun

theorem grantCard_outcome (sponsor : Fin 8) (life amount : Nat) :
    (grantCard m slot c sponsor life amount).2.outcome ≠ .notice := by
  unfold grantCard
  dsimp only
  split
  · nofun
  · split
    · nofun
    · split <;> nofun

theorem captureHold_outcome (n : Nat) (x : HoldRecord) (i : Nat) (r : Merchant) (asked : Nat) :
    (captureHold m n x slot c i r asked).2.outcome ≠ .notice := by
  unfold captureHold
  dsimp only
  split
  · nofun
  · exact doneOrPart_ne_notice _

theorem refundCard_outcome (i : Nat) (r : Merchant) (paid : Nat) (parts : List (Fin 8 × Nat)) (total : Nat) :
    (refundCard m slot c i r paid parts total).2.outcome ≠ .notice := by
  unfold refundCard
  dsimp only
  split
  · nofun
  · split
    · nofun
    · split
      · nofun
      · split
        · nofun
        · split <;> nofun

theorem voidSpent_outcome (wrote : Bool) (v : Movement) (merchant atMerchant period : Nat) :
    (voidSpent m slot c wrote v merchant atMerchant period).2.outcome ≠ .notice := by
  unfold voidSpent
  split
  · nofun
  · split
    · nofun
    · split <;> nofun

theorem voidCard_outcome (merchant stamp : Nat) : (voidCard m slot c merchant stamp).2.outcome ≠ .notice := by
  unfold voidCard
  dsimp only
  split
  · nofun
  · split
    · nofun
    · split
      · nofun
      · exact voidSpent_outcome _ _ _ _ _
      · exact voidSpent_outcome _ _ _ _ _

theorem defineProductRecord_outcome (i : Nat) (p : Product) : (defineProductRecord i p m).2.outcome ≠ .notice := by
  unfold defineProductRecord
  dsimp only
  split
  · nofun
  · split <;> nofun

theorem withdrawProductRecord_outcome (i : Nat) : (withdrawProductRecord i m).2.outcome ≠ .notice := by
  unfold withdrawProductRecord
  dsimp only
  split
  · nofun
  · split <;> nofun
  · nofun

theorem reinstateProductRecord_outcome (i : Nat) : (reinstateProductRecord i m).2.outcome ≠ .notice := by
  unfold reinstateProductRecord
  dsimp only
  split <;> nofun

theorem retireSponsorRecord_outcome (i : Nat) : (retireSponsorRecord i m).2.outcome ≠ .notice := by
  unfold retireSponsorRecord
  split <;> nofun

theorem defineMerchantRecord_outcome (id : Nat) (p : MerchantOperands) :
    (defineMerchantRecord id p m).2.outcome ≠ .notice := by
  unfold defineMerchantRecord
  split
  · nofun
  · split <;> nofun

theorem closeMerchantRecord_outcome (i : Nat) (r : Merchant) : (closeMerchantRecord i r m).2.outcome ≠ .notice := by
  unfold closeMerchantRecord
  dsimp only
  split
  · nofun
  · split <;> nofun

/-! ### Debit attempts and decisions (R72 to R81, R117 to R121) -/

/-- The desk has no watch entry in it. -/
theorem State.desk_watchBlind (d : State) : WatchBlind fun s => s.desk = d := fun _ _ _ _ h => h

theorem judge_desk (s : State) (c : Card) (r : Merchant) (amount : Nat) : (judge s c r amount).state.desk = s.desk :=
  (State.desk_watchBlind s.desk).judge c r amount rfl

theorem State.disarmAll_desk (s : State) (card : Nat) : (s.disarmAll card).desk = s.desk :=
  (State.desk_watchBlind s.desk).disarmAll card rfl

theorem State.makeReferral_desk {card tag : Nat} {kind : ReferralKind} {r : State × Referral}
    (h : s.makeReferral card tag kind = some r) : r.1.desk = s.desk := by
  unfold State.makeReferral at h
  split at h <;> cases h
  rfl

theorem declineAttempt_answered (wrote : Bool) (reason : DeclineReason) (method : Option Method) (mark freezer : Option Nat)
    (clamped : Bool) : Answered s (declineAttempt s slot c wrote reason method mark freezer clamped).1
      (declineAttempt s slot c wrote reason method mark freezer clamped).2.1 := ⟨rfl, nofun⟩

theorem referAttempt_answered (wrote : Bool) (tag : Nat) (kind : ReferralKind) (method : Option Method) (mark : Option Nat) :
    Answered s (referAttempt s slot c wrote tag kind method mark).1 (referAttempt s slot c wrote tag kind method mark).2.1 := by
  unfold referAttempt
  split
  · exact declineAttempt_answered ..
  · next hr => exact ⟨State.makeReferral_desk hr, nofun⟩

theorem finishRedeem_answered (wrote : Bool) (i : Nat) (r : Merchant) (amount : Nat) (purse : Purse) (upTo : Bool)
    (method : Option Method) (mark : Option Nat) :
    Answered s (finishRedeem s slot c wrote i r amount purse upTo method mark).1
      (finishRedeem s slot c wrote i r amount purse upTo method mark).2.1 := by
  unfold finishRedeem
  split
  · exact declineAttempt_answered ..
  · exact ⟨rfl, doneOrPart_ne_notice _⟩

theorem finishHold_answered (wrote : Bool) (i : Nat) (r : Merchant) (amount life : Nat) (purse : Purse) (upTo : Bool)
    (method : Option Method) (mark : Option Nat) :
    Answered s (finishHold s slot c wrote i r amount life purse upTo method mark).1
      (finishHold s slot c wrote i r amount life purse upTo method mark).2.1 := by
  unfold finishHold
  dsimp only
  split
  · exact declineAttempt_answered ..
  · exact ⟨rfl, doneOrPart_ne_notice _⟩

theorem Answered.trans {t : State} {o : AnswerOutcome} (h : Answered t u o) (hd : t.desk = s.desk) : Answered s u o :=
  ⟨h.desk.trans hd, h.outcome⟩

theorem attemptDebit_answered (tag : Nat) (i : Nat) (r : Merchant) (d : DebitOperands) (request : Attempted) :
    Answered s (attemptDebit s tag slot c i r d request).1 (attemptDebit s tag slot c i r d request).2.1 := by
  have hj : (judge (s.withMemory (s.memory.touch c).memory) (s.memory.touch c).card r d.amount).state.desk = s.desk :=
    judge_desk ..
  unfold attemptDebit
  dsimp only
  split
  · exact (declineAttempt_answered ..).trans hj
  · exact (referAttempt_answered ..).trans hj
  · split
    · exact (finishRedeem_answered ..).trans hj
    · exact (finishHold_answered ..).trans hj

theorem debitChange_answers (tag card merchant : Nat) (d : Option DebitOperands) (request : Attempted) :
    Answers (debitChange tag card merchant d request) := fun s => by
  unfold debitChange
  split
  · exact answers_refuse _ s
  · split
    · exact answers_refuse _ s
    · split
      · exact answers_refuse _ s
      · split
        · exact answers_refuse _ s
        · split
          · exact answers_refuse _ s
          · exact attemptDebit_answered ..

theorem approveDebit_answered (terms : Terms) (request : Attempted) :
    Answered s (approveDebit s slot c terms request).1 (approveDebit s slot c terms request).2.1 := by
  unfold approveDebit
  dsimp only
  split
  · split
    · exact (finishRedeem_answered ..).trans rfl
    · exact (finishHold_answered ..).trans rfl
  · refine (declineAttempt_answered ..).trans ?_
    unfold endedEarly
    split <;> rfl

theorem approveEntry_answered (e : Referral) : Answered s (approveEntry s e slot c).1 (approveEntry s e slot c).2.outcome := by
  have hd : (s.dropReferral e.number).desk = s.desk := rfl
  unfold approveEntry
  dsimp only
  split
  · exact (approveDebit_answered ..).trans hd
  · exact (approveDebit_answered ..).trans hd
  · exact (approveDebit_answered ..).trans hd
  · exact ⟨rfl, nofun⟩

theorem decideChange_answers (number decision : Nat) : Answers (decideChange number decision) := fun s => by
  unfold decideChange
  split
  · exact answers_refuse _ s
  · split
    · exact answers_refuse _ s
    · split
      · exact answers_refuse _ s
      · split
        · split
          · exact ⟨rfl, nofun⟩
          · split
            · split
              · exact approveEntry_answered _
              · exact ⟨rfl, nofun⟩
            · exact answers_refuse _ s
        · split
          · exact ⟨rfl, nofun⟩
          · exact answers_refuse _ s

/-! ### Cards (R36 to R47, R67, R68) -/

theorem issueChange_answers (card product sponsor life paid bonus : Nat) :
    Answers (issueChange card product sponsor life paid bonus) := fun s => by
  unfold issueChange
  split
  · exact answers_refuse _ s
  · split
    · exact answers_refuse _ s
    · split
      · exact answers_refuse _ s
      · repeat' split
        all_goals exact ⟨rfl, nofun⟩

theorem loadChange_answers (card amount : Nat) : Answers (loadChange card amount) := fun s => by
  unfold loadChange
  split
  · exact answers_refuse _ s
  · split
    · exact answers_refuse _ s
    · exact answers_withCard (fun _ _ => answers_onMemory fun _ => loadCard_outcome _) s

theorem grantBonusChange_answers (card sponsor life amount : Nat) :
    Answers (grantBonusChange card sponsor life amount) := fun s => by
  unfold grantBonusChange
  split
  · exact answers_refuse _ s
  · split
    · exact answers_refuse _ s
    · split
      · exact answers_refuse _ s
      · split
        · exact answers_refuse _ s
        · split
          · exact answers_refuse _ s
          · exact answers_withCard (fun _ _ => answers_onMemory fun _ => grantCard_outcome _ _ _) s

theorem inquireChange_answers (card : Nat) : Answers (inquireChange card) := fun s => by
  unfold inquireChange
  split
  · exact answers_refuse _ s
  · exact answers_withCard (fun _ _ _ => ⟨rfl, fun h => by cases h⟩) s

theorem flagChange_answers (card : Nat) (f : Card → Card) : Answers (flagChange card f) := fun s => by
  unfold flagChange
  split
  · exact answers_refuse _ s
  · exact answers_withCard (fun _ _ => answers_onMemory fun _ h => by cases h) s

theorem unlockCard_answered (tag : Nat) : Answered s (unlockCard s tag slot c).1 (unlockCard s tag slot c).2.outcome := by
  unfold unlockCard
  dsimp only
  split
  · exact ⟨rfl, nofun⟩
  · split
    · exact ⟨rfl, nofun⟩
    · split
      · exact ⟨rfl, nofun⟩
      · split
        · exact ⟨rfl, nofun⟩
        · next hr => exact ⟨State.makeReferral_desk hr, nofun⟩

theorem unlockChange_answers (tag card : Nat) : Answers (unlockChange tag card) := fun s => by
  unfold unlockChange
  split
  · exact answers_refuse _ s
  · refine answers_withCard (fun slot c s => ?_) s
    split
    · exact answers_refuse _ s
    · exact unlockCard_answered tag

theorem closeTouched_answered (swept : List Lot) :
    Answered s (closeTouched s slot c swept).1 (closeTouched s slot c swept).2.outcome := by
  refine ⟨?_, nofun⟩
  unfold closeTouched
  dsimp only
  rw [State.disarmAll_desk]
  rfl

theorem closeCardChange_answers (card : Nat) : Answers (closeCardChange card) := fun s => by
  unfold closeCardChange
  split
  · exact answers_refuse _ s
  · refine answers_withCard (fun slot c s => ?_) s
    split
    · exact answers_refuse _ s
    · dsimp only
      split
      · exact ⟨rfl, nofun⟩
      · exact (closeTouched_answered _).trans rfl

theorem refundChange_answers (card merchant paid count : Nat) (parts : List PartOperands) :
    Answers (refundChange card merchant paid count parts) := fun s => by
  unfold refundChange
  split
  · exact answers_refuse _ s
  · split
    · exact answers_refuse _ s
    · split
      · exact answers_refuse _ s
      · split
        · exact answers_refuse _ s
        · exact answers_withCard (fun _ _ => answers_onMemory fun _ => refundCard_outcome _ _ _ _ _) s

theorem voidLastChange_answers (card merchant stamp : Nat) : Answers (voidLastChange card merchant stamp) := fun s => by
  unfold voidLastChange
  split
  · exact answers_refuse _ s
  · split
    · exact answers_refuse _ s
    · exact answers_withCard (fun _ _ => answers_onMemory fun _ => voidCard_outcome _ _) s

/-! ### Holds (R82 to R89) -/

theorem captureChange_answers (n generation merchant amount : Nat) :
    Answers (captureChange n generation merchant amount) := fun s => by
  unfold captureChange
  split
  · exact answers_refuse _ s
  · split
    · exact answers_refuse _ s
    · exact answers_withHold (fun _ _ _ _ _ _ => captureHold_outcome _ _ _ _ _) s

theorem releaseChange_answers (n generation merchant : Nat) : Answers (releaseChange n generation merchant) := fun s => by
  unfold releaseChange
  split
  · exact answers_refuse _ s
  · split
    · exact answers_refuse _ s
    · exact answers_withHold (fun _ _ _ _ _ _ h => by cases h) s

theorem inquireHoldChange_answers (n generation : Nat) : Answers (inquireHoldChange n generation) := fun s => by
  unfold inquireHoldChange
  split
  · exact answers_refuse _ s
  · split
    · exact answers_refuse _ s
    · split
      · exact answers_refuse _ s
      · exact ⟨rfl, nofun⟩
      · exact ⟨rfl, nofun⟩

/-! ### Split tender (R90 to R94) -/

theorem TenderRun.member_desk (merchant : Nat) (run : TenderRun) (p : Member) :
    (run.member merchant p).state.desk = run.state.desk := by
  unfold TenderRun.member
  split
  · rfl
  · split
    · have hj := fun m c r => judge_desk (run.state.withMemory m) c r run.remainder
      dsimp only
      split
      · exact hj ..
      · exact hj ..
      · split
        · exact hj ..
        · exact hj ..
    · rfl

theorem settlement_outcome (placedAny acceptPartial : Bool) (remainder : Nat) (exceeds : Bool) (o : AnswerOutcome)
    (h : settlement placedAny acceptPartial remainder exceeds = .capture o ∨
      settlement placedAny acceptPartial remainder exceeds = .release o) : o ≠ .notice := by
  rintro rfl
  unfold settlement at h
  revert h
  repeat' split
  all_goals simp

theorem TenderRun.settle_answered (run : TenderRun) (merchant amount : Nat) (acceptPartial : Bool) :
    Answered run.state (run.settle merchant amount acceptPartial).1 (run.settle merchant amount acceptPartial).2.outcome := by
  unfold TenderRun.settle
  dsimp only
  split
  · next h => exact ⟨rfl, settlement_outcome _ _ _ _ _ (.inl h)⟩
  · next h => exact ⟨rfl, settlement_outcome _ _ _ _ _ (.inr h)⟩

theorem tenderChange_answers (merchant amount settle count : Nat) (members : List MemberOperands) :
    Answers (tenderChange merchant amount settle count members) := fun s => by
  unfold tenderChange
  split
  · exact answers_refuse _ s
  · split
    · exact answers_refuse _ s
    · split
      · split
        · exact answers_refuse _ s
        · split
          · exact answers_refuse _ s
          · split
            · exact answers_refuse _ s
            · exact (TenderRun.settle_answered ..).trans (foldl_keeps (Q := fun run : TenderRun => run.state.desk = s.desk)
                (fun run p h => (run.member_desk merchant p).trans h) _ _ rfl)
      · exact answers_refuse _ s

/-! ### The other requests -/

theorem setClockChange_answers (reading : Nat) : Answers (setClockChange reading) := fun s => by
  unfold setClockChange
  split <;> exact ⟨rfl, nofun⟩

theorem closeDayChange_answers : Answers closeDayChange := fun s => by
  unfold closeDayChange
  split
  · exact answers_refuse _ s
  · split
    · exact answers_refuse _ s
    · split <;> exact ⟨rfl, nofun⟩

theorem inquireClockChange_answers : Answers inquireClockChange := fun s => by
  unfold inquireClockChange
  split <;> exact ⟨rfl, nofun⟩

theorem setReferralTimeChange_answers (seconds : Nat) : Answers (setReferralTimeChange seconds) := fun s => by
  unfold setReferralTimeChange
  split
  · exact answers_refuse _ s
  · split <;> exact ⟨rfl, nofun⟩

theorem inquireReferralChange_answers (number : Nat) : Answers (inquireReferralChange number) := fun s => by
  unfold inquireReferralChange
  split
  · exact answers_refuse _ s
  · split
    · exact ⟨rfl, nofun⟩
    · split
      · exact ⟨rfl, nofun⟩
      · split <;> exact ⟨rfl, nofun⟩

theorem defineProductChange_answers (i : Nat) (fields : ProductOperands) : Answers (defineProductChange i fields) :=
  fun s => by
    unfold defineProductChange
    split
    · exact answers_refuse _ s
    · split
      · split
        · exact answers_onMemory (fun _ => defineProductRecord_outcome _ _) s
        · exact answers_refuse _ s
      · exact answers_refuse _ s

theorem inquireFundsChange_answers : Answers inquireFundsChange := fun s => by
  unfold inquireFundsChange
  split <;> exact ⟨rfl, nofun⟩

theorem defineMerchantChange_answers (id : Nat) (p : MerchantOperands) : Answers (defineMerchantChange id p) := fun s => by
  unfold defineMerchantChange
  split
  · exact answers_refuse _ s
  · split
    · exact answers_refuse _ s
    · exact answers_onMemory (fun _ => defineMerchantRecord_outcome _ _) s

theorem inquireMerchantChange_answers (form page index merchant : Nat) :
    Answers (inquireMerchantChange form page index merchant) := fun s => by
  unfold inquireMerchantChange
  split
  · exact answers_refuse _ s
  · split
    · exact answers_refuse _ s
    · split
      · split <;> exact ⟨rfl, nofun⟩
      · split <;> exact ⟨rfl, nofun⟩
      · exact answers_refuse _ s

theorem defineTierChange_answers (i : Nat) (fields : Option Tier) : Answers (defineTierChange i fields) := fun s => by
  unfold defineTierChange
  split
  · exact answers_refuse _ s
  · split
    · split <;> exact ⟨rfl, nofun⟩
    · exact answers_refuse _ s

theorem defineWatchChange_answers (i : Nat) (fields : WatchOperands) : Answers (defineWatchChange i fields) := fun s => by
  unfold defineWatchChange
  split
  · exact answers_refuse _ s
  · split
    · split <;> exact ⟨rfl, nofun⟩
    · exact answers_refuse _ s

theorem rearmWatchChange_answers (i : Nat) : Answers (rearmWatchChange i) := fun s => by
  unfold rearmWatchChange
  split
  · exact answers_refuse _ s
  · split
    · exact answers_refuse _ s
    · dsimp only
      split <;> exact ⟨rfl, nofun⟩

theorem inquireWatchChange_answers (i : Nat) : Answers (inquireWatchChange i) := fun s => by
  unfold inquireWatchChange
  split
  · exact answers_refuse _ s
  · split <;> exact ⟨rfl, nofun⟩

theorem startPayoutChange_answers (i mode ratio first last label : Nat) :
    Answers (startPayoutChange i mode ratio first last label) := fun s => by
  unfold startPayoutChange
  split
  · exact answers_refuse _ s
  · split
    · exact answers_refuse _ s
    · split
      · exact answers_refuse _ s
      · split <;> exact ⟨rfl, nofun⟩

theorem stopPayoutChange_answers (i form : Nat) : Answers (stopPayoutChange i form) := fun s => by
  have stop : ∀ ends, Answered s (s.stopRun i ends).1 (s.stopRun i ends).2.outcome := fun ends => by
    unfold State.stopRun
    dsimp only
    split <;> exact ⟨rfl, nofun⟩
  unfold stopPayoutChange
  split
  · exact answers_refuse _ s
  · split
    · exact answers_refuse _ s
    · split
      · exact answers_refuse _ s
      · split
        · exact answers_refuse _ s
        · exact answers_refuse _ s
        · exact stop _
        · exact stop _
        · exact stop _

theorem resumePayoutChange_answers (i : Nat) : Answers (resumePayoutChange i) := fun s => by
  unfold resumePayoutChange
  split
  · exact answers_refuse _ s
  · split
    · exact answers_refuse _ s
    · dsimp only
      split <;> exact ⟨rfl, nofun⟩

theorem inquirePayoutChange_answers (i : Nat) : Answers (inquirePayoutChange i) := fun s => by
  unfold inquirePayoutChange
  split
  · exact answers_refuse _ s
  · split <;> exact ⟨rfl, nofun⟩

end Sys2Proof.Machine
end

section
/-! The requests as one table: each command but CLOSE-TRADING is a code, a tag and a change, answered in one way; what its
message's header says of it (R187, R197). -/

namespace Sys2Proof.Machine

variable {s t u : State} {i : Instr} {m : Message} {code tag : Nat}

/-! ### The table -/

/-- A request as the port answers it: the code and tag its answer carries, and its change. -/
structure Request where
  code : Nat
  tag : Nat
  change : Change

/-- The requests; CLOSE-TRADING is not answered in the common way, because its notices follow its answer (R191). -/
def requestOf : Instr → Option Request
  | .badCode code _ tag => some ⟨badKind code, tag, refuse (badReason code)⟩
  | .format tag day reading => some ⟨1, tag, formatChange day reading⟩
  | .setClock tag reading => some ⟨2, tag, setClockChange reading⟩
  | .openTrading tag => some ⟨3, tag, openTradingChange⟩
  | .closeDay tag => some ⟨5, tag, closeDayChange⟩
  | .inquireClock tag => some ⟨6, tag, inquireClockChange⟩
  | .issue tag card product sponsor life paid bonus =>
      some ⟨7, tag, naming [card] (issueChange card product sponsor life paid bonus)⟩
  | .load tag card amount => some ⟨8, tag, naming [card] (loadChange card amount)⟩
  | .grantBonus tag card sponsor life amount =>
      some ⟨9, tag, naming [card] (grantBonusChange card sponsor life amount)⟩
  | .inquire tag card => some ⟨10, tag, naming [card] (inquireChange card)⟩
  | .freeze tag card => some ⟨11, tag, naming [card] (flagChange card fun c => { c with frozen := true })⟩
  | .thaw tag card => some ⟨12, tag, naming [card] (flagChange card fun c => { c with frozen := false })⟩
  | .lock tag card => some ⟨13, tag, naming [card] (flagChange card fun c => { c with softLocked := true })⟩
  | .unlock tag card => some ⟨14, tag, naming [card] (unlockChange tag card)⟩
  | .closeCard tag card => some ⟨15, tag, naming [card] (closeCardChange card)⟩
  | .redeem tag card merchant amount selector sponsor allowPartial =>
      some ⟨16, tag, naming [card] (debitChange tag card merchant (debitOf amount selector sponsor allowPartial) .redeem)⟩
  | .hold tag card merchant amount selector sponsor allowPartial life =>
      some ⟨17, tag,
        naming [card] (debitChange tag card merchant (debitOf amount selector sponsor allowPartial) (.hold life))⟩
  | .capture tag slot generation merchant amount => some ⟨18, tag, captureChange slot generation merchant amount⟩
  | .release tag slot generation merchant => some ⟨19, tag, releaseChange slot generation merchant⟩
  | .inquireHold tag slot generation => some ⟨20, tag, inquireHoldChange slot generation⟩
  | .tender tag merchant amount settle count members =>
      some ⟨21, tag, naming (members.map MemberOperands.card) (tenderChange merchant amount settle count members)⟩
  | .refund tag card merchant paid count parts =>
      some ⟨22, tag, naming [card] (refundChange card merchant paid count parts)⟩
  | .voidLast tag card merchant stamp => some ⟨23, tag, naming [card] (voidLastChange card merchant stamp)⟩
  | .decide tag number decision => some ⟨24, tag, decideChange number decision⟩
  | .setReferralTime tag seconds => some ⟨25, tag, setReferralTimeChange seconds⟩
  | .inquireReferral tag number => some ⟨26, tag, inquireReferralChange number⟩
  | .defineProduct tag product fields => some ⟨27, tag, defineProductChange product fields⟩
  | .withdrawProduct tag product => some ⟨28, tag, onIndex 64 product (withdrawProductRecord product)⟩
  | .reinstateProduct tag product => some ⟨29, tag, onIndex 64 product (reinstateProductRecord product)⟩
  | .inquireProduct tag product =>
      some ⟨30, tag, onIndex 64 product fun m => (m, Reply.done (.product (m.product product)))⟩
  | .defineSponsor tag sponsor =>
      some ⟨31, tag, onIndex 8 sponsor fun m => (m.setSponsor sponsor .active, Reply.done .empty)⟩
  | .retireSponsor tag sponsor => some ⟨32, tag, onIndex 8 sponsor (retireSponsorRecord sponsor)⟩
  | .inquireSponsor tag sponsor =>
      some ⟨33, tag, onIndex 8 sponsor fun m => (m, Reply.done (reportSponsor m sponsor))⟩
  | .inquireFunds tag => some ⟨34, tag, inquireFundsChange⟩
  | .defineMerchant tag merchant category trust tier floor allowance period =>
      some ⟨35, tag, defineMerchantChange merchant ⟨category, trust, tier, floor, allowance, period⟩⟩
  | .suspendMerchant tag merchant => some ⟨36, tag, onMerchant merchant (setStanding .suspended)⟩
  | .reinstateMerchant tag merchant => some ⟨37, tag, onMerchant merchant (setStanding .opened)⟩
  | .closeMerchant tag merchant => some ⟨38, tag, onMerchant merchant closeMerchantRecord⟩
  | .inquireMerchant tag form page index merchant => some ⟨39, tag, inquireMerchantChange form page index merchant⟩
  | .defineTier tag tier rate itemFee minFee maxFee =>
      some ⟨40, tag, defineTierChange tier (tierOf rate itemFee minFee maxFee)⟩
  | .inquireTier tag tier => some ⟨41, tag, onIndex 16 tier fun m => (m, Reply.done (.tier (m.tier tier)))⟩
  | .defineWatch tag entry fields => some ⟨42, tag, defineWatchChange entry fields⟩
  | .rearmWatch tag entry => some ⟨43, tag, rearmWatchChange entry⟩
  | .inquireWatch tag entry => some ⟨44, tag, inquireWatchChange entry⟩
  | .startPayout tag descriptor mode ratio first last label =>
      some ⟨45, tag, startPayoutChange descriptor mode ratio first last label⟩
  | .stopPayout tag descriptor form => some ⟨46, tag, stopPayoutChange descriptor form⟩
  | .resumePayout tag descriptor => some ⟨47, tag, resumePayoutChange descriptor⟩
  | .inquirePayout tag descriptor => some ⟨48, tag, inquirePayoutChange descriptor⟩
  | _ => none

variable {r : Request}

/-- A request of the table is answered as the table says. -/
theorem exec_request (h : requestOf i = some r) (s : State) : exec i s = answerRequest i r.code r.tag r.change s := by
  cases i <;> cases h <;> rfl

theorem runRequest_request (h : requestOf i = some r) (s : State) : runRequest i s = exec i s := by
  cases i <;> cases h <;> rfl

/-- A command that a message can spell is in the table, or is a CLOSE-TRADING. -/
theorem requestOf_or_closeTrading (h : i.fields ≠ none) :
    (∃ r, requestOf i = some r) ∨ ∃ tag, i = .closeTrading tag := by
  cases i with
  | closeTrading tag => exact .inr ⟨tag, rfl⟩
  | postWord | overrunFlag | releaseWord | interruptEnable | engineReset | windowWrite | powerOn | linkReset | clockTick
  | holdExpiry | lapse | windowExpiry | turn | descriptorService | lapseNotice | sweepStep | sweepEnd | powerLoss =>
    exact absurd rfl h
  | _ => exact .inl ⟨_, rfl⟩

/-- A request that is taken: its change, and then its answer. -/
theorem exec_request_taken (h : requestOf i = some r) (ht : s.take i = some t) :
    exec i s = .next ((r.change t).1.enter r.code (r.change t).2.outcome (r.change t).2.flags r.tag (r.change t).2.body) :=
  (exec_request h s).trans (answerRequest_taken ht ..)

/-! ### The header of the message (R197) -/

/-- The code and the tag in the header of the message that spells a request. -/
def headerOf (i : Instr) : Option (Nat × Nat) :=
  i.fields.bind fun fields => fields[0]?.bind fun code => fields[2]?.map fun tag => (code.2, tag.2)

theorem readFixed_header (m : Message) (code : Nat) : headerOf (readFixed m code) = some (code, field m 4 4) := by
  unfold readFixed
  dsimp only
  split <;> rfl

/-- A message reads as a request of its own code and tag. -/
theorem readMessage_header (m : Message) : headerOf (readMessage m) = some (field m 0 2, field m 4 4) := by
  unfold readMessage
  dsimp only
  split
  · next hcode =>
    rw [hcode]
    repeat' split
    all_goals rfl
  · split
    · next hcode =>
      rw [hcode]
      repeat' split
      all_goals rfl
    · split
      · exact readFixed_header m _
      · rfl

theorem headerOf_request (h : requestOf i = some r) : ∃ code, headerOf i = some (code, r.tag) := by
  cases i <;> cases h <;> exact ⟨_, rfl⟩

theorem headerOf_request_code (h : requestOf i = some r) (hbad : ∀ code length tag, i ≠ .badCode code length tag) :
    headerOf i = some (r.code, r.tag) := by
  cases i with
  | badCode code length tag => exact absurd rfl (hbad code length tag)
  | _ => cases h <;> rfl

/-- A request's answer carries the tag of the message taken. -/
theorem Request.tag_eq (h : requestOf (readMessage m) = some r) : r.tag = field m 4 4 := by
  obtain ⟨code, hc⟩ := headerOf_request h
  rw [readMessage_header] at hc
  exact congrArg Prod.snd (Option.some.inj hc).symm

theorem closeTrading_tag (h : readMessage m = .closeTrading tag) : tag = field m 4 4 := by
  have := readMessage_header m
  rw [h] at this
  exact congrArg Prod.snd (Option.some.inj this)

theorem Request.code_eq (h : requestOf (readMessage m) = some r)
    (hbad : ∀ code length tag, readMessage m ≠ .badCode code length tag) : r.code = field m 0 2 := by
  have := headerOf_request_code h hbad
  rw [readMessage_header] at this
  exact congrArg Prod.fst (Option.some.inj this).symm

/-! ### What the changes of the table leave alone -/

/-- Every request of the table but FORMAT and OPEN-TRADING leaves the desk. -/
theorem Request.answers (h : requestOf i = some r) (hf : ∀ tag day reading, i ≠ .format tag day reading)
    (ho : ∀ tag, i ≠ .openTrading tag) : Answers r.change := by
  cases i with
  | badCode code length tag => cases h; exact answers_refuse _
  | format tag day reading => exact absurd rfl (hf _ _ _)
  | setClock tag reading => cases h; exact setClockChange_answers _
  | openTrading tag => exact absurd rfl (ho _)
  | closeDay tag => cases h; exact closeDayChange_answers
  | inquireClock tag => cases h; exact inquireClockChange_answers
  | issue => cases h; exact (issueChange_answers _ _ _ _ _ _).naming _
  | load => cases h; exact (loadChange_answers _ _).naming _
  | grantBonus => cases h; exact (grantBonusChange_answers _ _ _ _).naming _
  | inquire => cases h; exact (inquireChange_answers _).naming _
  | freeze => cases h; exact (flagChange_answers _ _).naming _
  | thaw => cases h; exact (flagChange_answers _ _).naming _
  | lock => cases h; exact (flagChange_answers _ _).naming _
  | unlock => cases h; exact (unlockChange_answers _ _).naming _
  | closeCard => cases h; exact (closeCardChange_answers _).naming _
  | redeem => cases h; exact (debitChange_answers _ _ _ _ _).naming _
  | hold => cases h; exact (debitChange_answers _ _ _ _ _).naming _
  | capture => cases h; exact captureChange_answers _ _ _ _
  | release => cases h; exact releaseChange_answers _ _ _
  | inquireHold => cases h; exact inquireHoldChange_answers _ _
  | tender => cases h; exact (tenderChange_answers _ _ _ _ _).naming _
  | refund => cases h; exact (refundChange_answers _ _ _ _ _).naming _
  | voidLast => cases h; exact (voidLastChange_answers _ _ _).naming _
  | decide => cases h; exact decideChange_answers _ _
  | setReferralTime => cases h; exact setReferralTimeChange_answers _
  | inquireReferral => cases h; exact inquireReferralChange_answers _
  | defineProduct => cases h; exact defineProductChange_answers _ _
  | withdrawProduct => cases h; exact answers_onIndex fun _ => withdrawProductRecord_outcome _
  | reinstateProduct => cases h; exact answers_onIndex fun _ => reinstateProductRecord_outcome _
  | inquireProduct => cases h; exact answers_onIndex fun _ => nofun
  | defineSponsor => cases h; exact answers_onIndex fun _ => nofun
  | retireSponsor => cases h; exact answers_onIndex fun _ => retireSponsorRecord_outcome _
  | inquireSponsor => cases h; exact answers_onIndex fun _ => nofun
  | inquireFunds => cases h; exact inquireFundsChange_answers
  | defineMerchant => cases h; exact defineMerchantChange_answers _ _
  | suspendMerchant => cases h; exact answers_onMerchant fun _ _ _ => nofun
  | reinstateMerchant => cases h; exact answers_onMerchant fun _ _ _ => nofun
  | closeMerchant => cases h; exact answers_onMerchant fun _ _ _ => closeMerchantRecord_outcome _ _
  | inquireMerchant => cases h; exact inquireMerchantChange_answers _ _ _ _
  | defineTier => cases h; exact defineTierChange_answers _ _
  | inquireTier => cases h; exact answers_onIndex fun _ => nofun
  | defineWatch => cases h; exact defineWatchChange_answers _ _
  | rearmWatch => cases h; exact rearmWatchChange_answers _
  | inquireWatch => cases h; exact inquireWatchChange_answers _
  | startPayout => cases h; exact startPayoutChange_answers _ _ _ _ _ _
  | stopPayout => cases h; exact stopPayoutChange_answers _ _
  | resumePayout => cases h; exact resumePayoutChange_answers _
  | inquirePayout => cases h; exact inquirePayoutChange_answers _
  | _ => cases h

end Sys2Proof.Machine
end

section
/-! The engine state and the retention indicator: what every command leaves alone but FORMAT, OPEN-TRADING, CLOSE-TRADING and
the starts (R189, R194, R195). -/

namespace Sys2Proof.Machine

variable {s t u : State} {i : Instr}

/-! ### The engine's own steps -/

/-- The engine state and the retention indicator. -/
def State.regime (s : State) : EngineState × Retention := (s.engine, s.retention)

theorem State.regime_of_desk (h : u.desk = s.desk) : u.regime = s.regime :=
  (congrArg State.regime h :)

@[simp] theorem State.regime_enter (s : State) (kind : Nat) (o : AnswerOutcome) (f : AnswerFlags) (tag : Nat)
    (b : AnswerBody) : (s.enter kind o f tag b).regime = s.regime := rfl

theorem State.regime_take (h : s.take i = some t) : t.regime = s.regime := by
  obtain ⟨-, -, -, -, -, -, -, rfl⟩ := State.take_eq_some.mp h
  rfl

theorem State.regime_orWait {step : State → Nat → State} (h : ∀ s i, (step s i).regime = s.regime) (s : State) (i : Nat) :
    (s.orWait i step).regime = s.regime := by
  unfold State.orWait
  split
  · exact h s i
  · rfl

theorem State.regime_turn (s : State) : s.turn.regime = s.regime := by
  unfold State.turn
  split
  · rfl
  · split
    · unfold State.takeTurn
      dsimp only
      split
      · exact State.regime_orWait (step := State.endRun) (fun _ _ => rfl) ..
      · split
        · exact State.regime_orWait (step := State.cutMerchant) (fun _ _ => rfl) ..
        · rfl
    · rfl

theorem State.regime_serveDescriptor (s : State) : s.serveDescriptor.regime = s.regime := by
  unfold State.serveDescriptor
  split
  · split
    · split
      · unfold State.serveStep
        dsimp only
        split
        · rfl
        · split <;> rfl
      · rfl
    · rfl
  · rfl

theorem State.regime_sweepOnce (s : State) : s.sweepOnce.regime = s.regime := by
  unfold State.sweepOnce
  split
  · dsimp only
    split
    · rfl
    · split <;> rfl
  · rfl

theorem State.regime_serveSweep (s : State) : s.serveSweep.regime = s.regime := by
  unfold State.serveSweep
  split
  · split <;> rfl
  · rfl

theorem State.regime_offerLapse (s : State) (e : Referral) : (s.offerLapse e).regime = s.regime := by
  unfold State.offerLapse
  split <;> rfl

theorem State.regime_serveLapse (s : State) : s.serveLapse.regime = s.regime := by
  unfold State.serveLapse
  split
  · split
    · split <;> rfl
    · rfl
  · rfl

/-- A step of a powered board keeps the regime when its change does. -/
theorem regime_whenPowered {f : State → State} (h : (f s).regime = s.regime) (hu : whenPowered s f = .next u) :
    u.regime = s.regime := whenPowered_keeps (P := fun u => u.regime = s.regime) (fun _ => h) rfl hu

theorem regime_execHoldExpiry (slot : Nat) (hu : execHoldExpiry slot s = .next u) : u.regime = s.regime := by
  refine regime_whenPowered ?_ hu
  split
  · rfl
  · split <;> rfl

theorem regime_execLapse (number : Nat) (hu : execLapse number s = .next u) : u.regime = s.regime := by
  refine regime_whenPowered ?_ hu
  split
  · rfl
  · split
    · exact State.regime_offerLapse ..
    · rfl

theorem regime_execWindowExpiry (entry card : Nat) (hu : execWindowExpiry entry card s = .next u) :
    u.regime = s.regime := by
  refine regime_whenPowered ?_ hu
  split <;> rfl

/-! ### The port -/

theorem State.regime_post (s : State) : s.post.regime = s.regime := by
  unfold State.post
  split <;> rfl

theorem State.regime_releaseAnswer (s : State) : s.releaseAnswer.regime = s.regime := by
  unfold State.releaseAnswer
  split <;> rfl

theorem State.regime_storePost (offset : Nat) (bytes : List Byte) (s : State) :
    (s.storePost offset bytes).regime = s.regime := by
  induction bytes generalizing offset s with
  | nil => rfl
  | cons b rest ih => exact ih ..

/-- A window write that does not reset the engine. -/
theorem State.regime_writeWindow {offset value : Nat} (h : offset = 0x10C → value.testBit 1 = false) (s : State) :
    (s.writeWindow offset value).regime = s.regime := by
  unfold State.writeWindow
  split
  · rfl
  · split
    · next hc =>
      unfold State.writeControl
      rw [h hc]
      rfl
    · split
      · exact State.regime_post s
      · split
        · exact State.regime_releaseAnswer s
        · exact State.regime_storePost ..

/-! ### Stops and starts (R190, R193 to R195) -/

/-- What a stop leaves of a board beside Record Memory and the update slots: a FORMAT under way has made the indicator LOST. -/
theorem State.interrupted_frame (s : State) (cut : Interruption) : ∃ memory slots retention,
    s.interrupted cut = { s with memory := memory, slots := slots, retention := retention } ∧
      (retention = s.retention ∨ retention = .lost) := by
  unfold State.interrupted
  split
  · exact ⟨_, _, _, rfl, .inr rfl⟩
  · exact ⟨_, _, _, rfl, .inl rfl⟩

theorem State.intact_iff (s : State) : s.intact = true ↔ s.retention = .valid ∧ s.indicatorCheck = true := by
  simp [State.intact]

/-! ### Engine moves (R189) -/

/-- A command moves the engine state by R189's table, and a state without a formatted memory keeps its indicator LOST. -/
structure EngineMoves (i : Instr) (s u : State) : Prop where
  lost : u.engine = .unformatted → u.retention = .lost
  moves : u.engine ≠ s.engine →
    (s.engine ≠ .trading ∧ u.engine = .setup ∧ ∃ tag day reading, i = .format tag day reading) ∨
    (s.engine = .setup ∧ u.engine = .trading ∧ ∃ tag, i = .openTrading tag) ∨
    (s.engine = .trading ∧ u.engine = .setup ∧ ∃ tag, i = .closeTrading tag) ∨
    ((s.engine = .trading ∧ u.engine = .setup ∧ u.startCause = .resumed ∧ u.retention = .valid ∨
        s.engine ≠ .unformatted ∧ u.engine = .unformatted ∧ u.startCause = .cold ∧ u.retention = .lost) ∧
      ((∃ ties, i = .powerOn ties) ∨ (∃ cut ties, i = .engineReset true cut ties) ∨
        ∃ value, i = .windowWrite 0x10C value ∧ value.testBit 1 = true))

variable (hl : s.engine = .unformatted → s.retention = .lost)
include hl

theorem EngineMoves.kept (h : u.regime = s.regime) : EngineMoves i s u := by
  obtain ⟨he, hr⟩ := Prod.mk.inj h
  exact ⟨fun hu => hr.trans (hl (he.symm.trans hu)), fun hne => absurd he hne⟩

/-- A start with retention intact is from SETUP or TRADING, since an UNFORMATTED engine's indicator is LOST. -/
theorem EngineMoves.recover (hi : s.intact = true) (ties : List Nat)
    (hcmd : (∃ ties, i = .powerOn ties) ∨ (∃ cut ties, i = .engineReset true cut ties) ∨
      ∃ value, i = .windowWrite 0x10C value ∧ value.testBit 1 = true) : EngineMoves i s (s.recover ties) := by
  have hv := (s.intact_iff.mp hi).1
  have hu : (s.recover ties).engine = .setup := rfl
  refine ⟨fun h => (nomatch hu.symm.trans h), fun hne => .inr (.inr (.inr ⟨.inl ⟨?_, hu, rfl, hv⟩, hcmd⟩))⟩
  cases he : s.engine with
  | unformatted =>
    rw [hl he] at hv
    cases hv
  | setup => exact absurd (hu.trans he.symm) hne
  | trading => rfl

omit hl in
theorem EngineMoves.startCold (reading : Nat)
    (hcmd : (∃ ties, i = .powerOn ties) ∨ (∃ cut ties, i = .engineReset true cut ties) ∨
      ∃ value, i = .windowWrite 0x10C value ∧ value.testBit 1 = true) : EngineMoves i s (s.startCold reading) :=
  ⟨fun _ => rfl, fun hne => .inr (.inr (.inr ⟨.inr ⟨fun he => hne he.symm, rfl, rfl, rfl⟩, hcmd⟩))⟩

theorem EngineMoves.resetEngine (cut : Interruption) (ties : List Nat)
    (hcmd : (∃ ties, i = .powerOn ties) ∨ (∃ cut ties, i = .engineReset true cut ties) ∨
      ∃ value, i = .windowWrite 0x10C value ∧ value.testBit 1 = true) : EngineMoves i s (s.resetEngine cut ties) := by
  obtain ⟨memory, slots, retention, h, hr⟩ := s.interrupted_frame cut
  have hl' : (s.interrupted cut).engine = .unformatted → (s.interrupted cut).retention = .lost := by
    rw [h]
    intro he
    rcases hr with rfl | rfl
    · exact hl he
    · rfl
  have he : (s.interrupted cut).engine = s.engine := by rw [h]
  unfold State.resetEngine
  dsimp only
  split
  · next hi =>
    have := EngineMoves.recover hl' hi ties hcmd
    exact ⟨this.lost, by simpa only [he] using this.moves⟩
  · exact ⟨fun _ => rfl, by simpa only [he] using (EngineMoves.startCold (s := s.interrupted cut) _ hcmd).moves⟩

theorem EngineMoves.format (tag day reading : Nat) (hu : exec (.format tag day reading) s = .next u) :
    EngineMoves (.format tag day reading) s u := by
  rcases answerRequest_cases (.format tag day reading) 1 tag (formatChange day reading) s with h | ⟨t, ht, h⟩
  · cases h.symm.trans hu
    exact .kept hl rfl
  · cases h.symm.trans hu
    have he : t.engine = s.engine := congrArg Prod.fst (State.regime_take ht)
    by_cases hs : t.engine = .trading
    · refine .kept hl ?_
      rw [formatChange, if_pos hs]
      exact (State.regime_enter ..).trans (State.regime_take ht)
    · rw [formatChange, if_neg hs]
      exact ⟨nofun, fun _ => .inl ⟨he ▸ hs, rfl, tag, day, reading, rfl⟩⟩

theorem EngineMoves.openTrading (tag : Nat) (hu : exec (.openTrading tag) s = .next u) :
    EngineMoves (.openTrading tag) s u := by
  rcases answerRequest_cases (.openTrading tag) 3 tag openTradingChange s with h | ⟨t, ht, h⟩
  · cases h.symm.trans hu
    exact .kept hl rfl
  · cases h.symm.trans hu
    have he : t.engine = s.engine := congrArg Prod.fst (State.regime_take ht)
    by_cases hs : t.engine = .setup ∧ t.memory.tradable
    · rw [openTradingChange, if_pos hs]
      exact ⟨nofun, fun _ => .inr (.inl ⟨he ▸ hs.1, rfl, tag, rfl⟩)⟩
    · refine .kept hl ?_
      rw [openTradingChange, if_neg hs]
      exact (State.regime_enter ..).trans (State.regime_take ht)

theorem EngineMoves.closeTrading (tag : Nat) (hu : exec (.closeTrading tag) s = .next u) :
    EngineMoves (.closeTrading tag) s u := by
  replace hu : execCloseTrading tag s = .next u := hu
  unfold execCloseTrading at hu
  split at hu
  · cases hu
    exact .kept hl rfl
  · next t ht =>
    have he : t.engine = s.engine := congrArg Prod.fst (State.regime_take ht)
    split at hu <;> cases hu
    · next hs =>
      obtain ⟨last, sent, h⟩ := t.closeTrading_eq tag
      rw [h]
      exact ⟨nofun, fun _ => .inr (.inr (.inl ⟨he ▸ hs, rfl, tag, rfl⟩))⟩
    · exact .kept hl ((State.regime_enter ..).trans (State.regime_take ht))

theorem EngineMoves.request {r : Request} (hr : requestOf i = some r) (hf : ∀ tag day reading, i ≠ .format tag day reading)
    (ho : ∀ tag, i ≠ .openTrading tag) (hu : exec i s = .next u) : EngineMoves i s u := by
  rw [exec_request hr] at hu
  rcases answerRequest_cases i r.code r.tag r.change s with h | ⟨t, ht, h⟩
  · cases h.symm.trans hu
    exact .kept hl rfl
  · cases h.symm.trans hu
    exact .kept hl ((State.regime_of_desk (Request.answers hr hf ho t).desk).trans (State.regime_take ht))

/-- Every command moves the engine state by R189's table. -/
theorem EngineMoves.exec (hu : exec i s = .next u) : EngineMoves i s u := by
  have pow : ∀ {f : State → State}, whenPowered s f = .next u → EngineMoves i s (f s) → EngineMoves i s u := fun hu hf =>
    whenPowered_keeps (P := EngineMoves i s) (fun _ => hf) (.kept hl rfl) hu
  cases i with
  | format tag day reading => exact .format hl tag day reading hu
  | openTrading tag => exact .openTrading hl tag hu
  | closeTrading tag => exact .closeTrading hl tag hu
  | postWord value => exact pow hu (.kept hl s.regime_post)
  | overrunFlag bit => exact pow (f := fun s => s.writeOverrun bit) hu (.kept hl rfl)
  | releaseWord value => exact pow hu (.kept hl s.regime_releaseAnswer)
  | interruptEnable bit => exact pow (f := fun s => s.setEnable bit) hu (.kept hl rfl)
  | engineReset bit cut ties =>
    refine pow (f := fun s => if bit then s.resetEngine cut ties else s) hu ?_
    cases bit with
    | true => exact .resetEngine hl cut ties (.inr (.inl ⟨cut, ties, rfl⟩))
    | false => exact .kept hl rfl
  | windowWrite offset value =>
    replace hu : execWindowWrite offset value s = .next u := hu
    unfold execWindowWrite at hu
    split at hu
    · cases hu
    · refine pow hu ?_
      by_cases hc : offset = 0x10C ∧ value.testBit 1 = true
      · obtain ⟨rfl, hb⟩ := hc
        have hw : s.writeWindow 0x10C value = (s.setEnable (value.testBit 0)).resetEngine Interruption.between [] := by
          simp [State.writeWindow, State.writeControl, hb]
        have := EngineMoves.resetEngine (s := s.setEnable (value.testBit 0)) (i := .windowWrite 0x10C value) hl
          Interruption.between [] (.inr (.inr ⟨value, rfl, hb⟩))
        rw [hw]
        exact ⟨this.lost, this.moves⟩
      · exact .kept hl (s.regime_writeWindow fun ho => by simpa [ho] using hc)
  | powerOn ties =>
    cases hu
    split
    · next hi => exact .recover hl hi ties (.inl ⟨ties, rfl⟩)
    · exact .startCold 0 (.inl ⟨ties, rfl⟩)
  | linkReset => exact pow hu (.kept hl rfl)
  | clockTick =>
    cases hu
    split <;> exact .kept hl rfl
  | holdExpiry slot => exact .kept hl (regime_execHoldExpiry slot hu)
  | lapse number => exact .kept hl (regime_execLapse number hu)
  | windowExpiry entry card => exact .kept hl (regime_execWindowExpiry entry card hu)
  | turn => exact pow hu (.kept hl s.regime_turn)
  | descriptorService => exact pow hu (.kept hl s.regime_serveDescriptor)
  | lapseNotice => exact pow hu (.kept hl s.regime_serveLapse)
  | sweepStep => exact pow hu (.kept hl s.regime_sweepOnce)
  | sweepEnd => exact pow hu (.kept hl s.regime_serveSweep)
  | powerLoss kept ok cut =>
    refine pow (f := fun s => { s.interrupted cut with
      powered := false
      retention := if kept then (s.interrupted cut).retention else .lost
      indicatorCheck := (s.interrupted cut).indicatorCheck && ok }) hu ?_
    obtain ⟨memory, slots, retention, h, hr⟩ := s.interrupted_frame cut
    rw [h]
    refine ⟨fun he => ?_, fun hne => absurd rfl hne⟩
    cases kept with
    | false => rfl
    | true => exact hr.elim (fun e => e.trans (hl he)) id
  | _ => exact .request hl rfl nofun nofun hu

omit hl in
/-- Settles O21: a step idles, or runs the front command, which moves the engine state as `EngineMoves.exec` says. -/
theorem engineStateMovesByItsTable : Obligations.EngineStateMovesByItsTable := by
  intro s u hl hu
  unfold step at hu
  split at hu
  · next hp =>
    cases hu
    exact ⟨hl, fun i rest h => by rw [hp] at h; cases h⟩
  · next i rest hp =>
    have hm := EngineMoves.exec (s := { s with pending := rest }) hl hu
    refine ⟨hm.lost, fun j rest' h => ?_⟩
    rw [hp] at h
    cases h
    exact hm.moves

end Sys2Proof.Machine
end

section
/-! The port: when a message is taken and how it is answered (R159, R165, R187, R189), posting, releases and interrupt messages
(R184 to R186, R196). -/

namespace Sys2Proof.Machine

variable {s t u : State} {i : Instr} {r : Request} {m : Message}

/-! ### The take (R159, R165, R187) -/

/-- No BURST descriptor holds the intake. -/
theorem State.burstHeld_eq_false_iff (s : State) : s.burstHeld = false ↔
    ∀ d, d < 4 → (s.memory.descriptor d).mode = .burst →
      (s.memory.descriptor d).state ≠ .running ∧ (s.memory.descriptor d).state ≠ .waiting := by
  have hd : ∀ d, d < 4 ↔ d ∈ [0, 1, 2, 3] := fun d => by simp; omega
  simp only [burstHeld, List.any_eq_false, hd, Bool.and_eq_true, Bool.or_eq_true, decide_eq_true_eq, not_and, not_or, ne_eq]

theorem Descriptor.credited_idle : Descriptor.idle.credited = Descriptor.idle := by decide

/-- Settles O2: the take's own law (`take_eq_some`), and each descriptor after it by the update of its table. -/
theorem takeNeedsMessageSlotAndNoBurst : Obligations.TakeNeedsMessageSlotAndNoBurst := by
  intro s t i
  refine ⟨?_, fun hr h d => ?_⟩
  · rw [State.take_eq_some, State.slotFree_iff, State.burstHeld_eq_false_iff]
  · obtain ⟨-, -, -, -, -, -, -, rfl⟩ := State.take_eq_some.mp h
    exact Table.get_update Descriptor.credited_idle hr d

/-! ### Every request taken is answered once (R187) -/

/-- Every request of the table leaves the port's queues to its answer, which is no notice. -/
theorem Request.port (h : requestOf i = some r) (t : State) :
    (r.change t).1.inbound = t.inbound ∧ (r.change t).1.answers = t.answers ∧
      (r.change t).1.lastNumber = t.lastNumber ∧ (r.change t).2.outcome ≠ .notice := by
  by_cases hf : ∃ tag day reading, i = .format tag day reading
  · obtain ⟨tag, day, reading, rfl⟩ := hf
    cases h
    dsimp only
    unfold formatChange
    split <;> exact ⟨rfl, rfl, rfl, nofun⟩
  · by_cases ho : ∃ tag, i = .openTrading tag
    · obtain ⟨tag, rfl⟩ := ho
      cases h
      dsimp only
      unfold openTradingChange
      split <;> exact ⟨rfl, rfl, rfl, nofun⟩
    · obtain ⟨hd, hout⟩ := Request.answers h (fun tag day reading e => hf ⟨tag, day, reading, e⟩) (fun tag e => ho ⟨tag, e⟩) t
      exact ⟨(congrArg State.inbound hd :), (congrArg State.answers hd :), (congrArg State.lastNumber hd :), hout⟩

theorem State.take_port (h : s.take i = some t) :
    t.answers = s.answers ∧ t.lastNumber = s.lastNumber ∧ ∃ m rest, s.inbound = m :: rest ∧ t.inbound = rest ∧
      readMessage m = i := by
  obtain ⟨-, -, -, m, rest, hin, hi, rfl⟩ := State.take_eq_some.mp h
  exact ⟨rfl, rfl, m, rest, hin, rfl, hi⟩

theorem execCloseTrading_waits {tag : Nat} (h : s.take (.closeTrading tag) = none) :
    exec (.closeTrading tag) s = .next s := by
  show execCloseTrading tag s = _
  rw [execCloseTrading, h]

theorem noticesAfter_outcome {last : Nat} {l : List Referral} {n : Answer} (h : n ∈ noticesAfter last l) :
    n.outcome = .notice := by
  obtain ⟨k, hk, rfl⟩ := List.mem_mapIdx.mp h
  rfl

/-- What a CLOSE-TRADING that is taken enters: its answer, then notices (R191). -/
theorem execCloseTrading_taken {tag : Nat} (h : s.take (.closeTrading tag) = some t) :
    ∃ u o body notices, exec (.closeTrading tag) s = .next u ∧ u.inbound = t.inbound ∧
      u.answers = t.answers ++ ⟨4, o, AnswerFlags.none, tag, (t.lastNumber + 1) % 4294967296, body⟩ :: notices ∧
      o ≠ .notice ∧ ∀ n ∈ notices, n.outcome = .notice := by
  have he : exec (.closeTrading tag) s = execCloseTrading tag s := rfl
  rw [he, execCloseTrading, h]
  dsimp only
  split
  · obtain ⟨last, sent, hu⟩ := t.closeTrading_eq tag
    exact ⟨_, .done, .tradingClosed t.openReferrals.length, _, rfl, by rw [hu], by rw [hu], nofun,
      fun n => noticesAfter_outcome⟩
  · exact ⟨_, .refused .wrongState, .empty, [], rfl, rfl, State.enter_answers .., nofun, fun _ h => absurd h List.not_mem_nil⟩

/-- Settles O3: a request of the table by its one way of being answered, CLOSE-TRADING by its own. -/
theorem everyRequestTakenIsAnsweredOnce : Obligations.EveryRequestTakenIsAnsweredOnce := by
  intro s i hi
  rcases requestOf_or_closeTrading hi with ⟨r, hr⟩ | ⟨tag, rfl⟩
  · refine ⟨fun h => (exec_request hr s).trans (answerRequest_waits h ..), fun t m rest hin ht => ?_⟩
    obtain ⟨ha, hn, m', rest', hin', hrest, hm⟩ := State.take_port ht
    obtain ⟨rfl, rfl⟩ := List.cons.inj (hin.symm.trans hin')
    obtain ⟨hci, hca, hcn, ho⟩ := Request.port hr t
    subst hm
    let a : Answer := ⟨r.code, (r.change t).2.outcome, (r.change t).2.flags, r.tag, (s.lastNumber + 1) % 4294967296,
      (r.change t).2.body⟩
    refine ⟨_, a, [], exec_request_taken hr ht, ?_, hci.trans hrest, Request.tag_eq hr, rfl, ho,
      fun _ h => absurd h List.not_mem_nil, fun h => absurd rfl h⟩
    rw [State.enter_answers, hca, hcn, ha, hn, wordSpan]
  · refine ⟨execCloseTrading_waits, fun t m rest hin ht => ?_⟩
    obtain ⟨ha, hn, m', rest', hin', hrest, hm⟩ := State.take_port ht
    obtain ⟨rfl, rfl⟩ := List.cons.inj (hin.symm.trans hin')
    obtain ⟨u, o, body, notices, hu, hui, hua, ho, hnotice⟩ := execCloseTrading_taken ht
    rw [ha, hn] at hua
    exact ⟨u, _, notices, hu, hua, hui.trans hrest, closeTrading_tag hm, rfl, ho, hnotice, fun _ => ⟨tag, rfl⟩⟩

/-! ### UNFORMATTED (R189) -/

/-- A request refused WRONG-STATE without a change, with no flag but ZERO, which is clear while no card is present. -/
structure Shut (t : State) (r : State × Reply) : Prop where
  state : r.1 = t
  outcome : r.2.outcome = .refused .wrongState
  body : r.2.body = .empty
  flags : ∃ zero, r.2.flags = { AnswerFlags.none with zero := zero } ∧
    ((∀ number, t.memory.findCard number = none) → zero = false)

theorem Shut.refused {change : Change} (h : change t = refuse .wrongState t) : Shut t (change t) := by
  rw [h]
  exact ⟨rfl, rfl, rfl, false, rfl, fun _ => rfl⟩

theorem Shut.named {change : Change} {cards : List Nat} (h : change t = refuse .wrongState t) :
    Shut t (naming cards change t) := by
  have ho : (change t).2.outcome = .refused .wrongState := by rw [h]; rfl
  rw [naming_refused ho, h]
  refine ⟨rfl, rfl, rfl, _, rfl, fun hn => ?_⟩
  cases cards with
  | nil => rfl
  | cons n rest => simp [refuse, RecordMemory.namedZero, hn]

/-- In UNFORMATTED every request but FORMAT, SET-CLOCK and a message that does not decode is so refused. -/
theorem Request.shut (h : requestOf i = some r) (he : t.engine = .unformatted)
    (hf : ∀ tag day reading, i ≠ .format tag day reading) (hc : ∀ tag reading, i ≠ .setClock tag reading)
    (hb : ∀ code length tag, i ≠ .badCode code length tag) : Shut t (r.change t) := by
  have hn : t.engine ≠ .trading := by rw [he]; nofun
  have hs : ¬(t.engine = .setup ∧ t.memory.tradable = true) := by rw [he]; nofun
  cases i with
  | format tag day reading => exact absurd rfl (hf _ _ _)
  | setClock tag reading => exact absurd rfl (hc _ _)
  | badCode code length tag => exact absurd rfl (hb _ _ _)
  | openTrading => cases h; exact .refused (if_neg hs)
  | issue | load | grantBonus | closeCard | redeem | hold | tender | refund | voidLast => cases h; exact .named (if_pos hn)
  | inquire | freeze | thaw | lock | unlock => cases h; exact .named (if_pos he)
  | postWord | overrunFlag | releaseWord | interruptEnable | engineReset | windowWrite | powerOn | linkReset | clockTick
  | holdExpiry | lapse | windowExpiry | turn | descriptorService | lapseNotice | sweepStep | sweepEnd | powerLoss
  | closeTrading => cases h
  | _ => cases h; exact .refused (if_pos he)

/-- Settles O20: by what the table's changes do in UNFORMATTED, and CLOSE-TRADING by its own test. -/
theorem unformattedRefusesOtherRequests : Obligations.UnformattedRefusesOtherRequests := by
  intro s t i m hm ht he hf hc hb
  obtain ⟨-, -, m', rest, hin, -, rfl⟩ := State.take_port ht
  rw [hin] at hm
  obtain rfl : m' = m := Option.some.inj hm
  have hfields : (readMessage m').fields ≠ none := fun h => by
    have := readMessage_header m'
    rw [headerOf, h] at this
    cases this
  rcases requestOf_or_closeTrading hfields with ⟨r, hr⟩ | ⟨tag, htag⟩
  · obtain ⟨hstate, hout, hbody, zero, hflags, hz⟩ := Request.shut hr he hf hc hb
    refine ⟨zero, ?_, hz⟩
    rw [exec_request_taken hr ht, hstate, hout, hbody, hflags, Request.tag_eq hr, Request.code_eq hr hb]
  · have hcode : field m' 0 2 = 4 := by
      have := readMessage_header m'
      rw [htag] at this
      exact congrArg Prod.fst (Option.some.inj this).symm
    refine ⟨false, ?_, fun _ => rfl⟩
    rw [hcode, ← closeTrading_tag htag, htag]
    rw [htag] at ht
    show execCloseTrading tag s = _
    rw [execCloseTrading, ht]
    exact if_neg (by rw [he]; nofun)

/-! ### Single requests of the port (R187, R190, R191) -/

/-- A request that is taken, by what its change gives. -/
theorem exec_request_change (h : requestOf i = some r) (ht : s.take i = some t) {c : State × Reply} (hc : r.change t = c) :
    exec i s = .next (c.1.enter r.code c.2.outcome c.2.flags r.tag c.2.body) := hc ▸ exec_request_taken h ht

/-- Settles O8: the message is taken and refused, by its kind and reason. -/
theorem undecodedMessageIsRefused : Obligations.UndecodedMessageIsRefused :=
  fun _ _ _ _ _ h => answerRequest_taken h ..

/-- Settles O17: FORMAT's change in and outside TRADING, and the empty tables by what an unlisted index holds. -/
theorem formatSetsEveryTable : Obligations.FormatSetsEveryTable := by
  intro s t tag day reading ht
  have hr : requestOf (.format tag day reading) = some ⟨1, tag, formatChange day reading⟩ := rfl
  refine ⟨fun he => exec_request_change hr ht (if_neg he), fun he => exec_request_change hr ht (if_pos he), fun m i => ?_⟩
  · have empty : ∀ {α : Type} (d : α) {table : Table α}, table = [] → table.get d i = d := by
      rintro α d _ rfl
      rfl
    refine ⟨fun h => ?_, fun h => ?_, empty _, empty _, empty _, empty _, fun h => ?_, fun h => ?_, empty _⟩
    · rw [RecordMemory.product, empty _ h]
      exact ⟨rfl, rfl⟩
    · rw [RecordMemory.merchant, empty _ h]
      exact ⟨rfl, rfl⟩
    · rw [RecordMemory.descriptor, empty _ h]
      exact ⟨rfl, rfl⟩
    · rw [RecordMemory.cardAt, h]
      rfl

theorem RecordMemory.tradable_iff (m : RecordMemory) :
    m.tradable = true ↔ (∃ p ∈ m.products, p.2.state = .active) ∧ ∃ r ∈ m.merchants, r.2.state ≠ .unused := by
  simp [tradable, Merchant.used]

/-- Settles O18: by R191's test. -/
theorem openTradingNeedsProductAndMerchant : Obligations.OpenTradingNeedsProductAndMerchant := by
  intro s t tag ht
  have hr : requestOf (.openTrading tag) = some ⟨3, tag, openTradingChange⟩ := rfl
  refine ⟨fun he hp hm => exec_request_change hr ht (if_pos ⟨he, t.memory.tradable_iff.mpr ⟨hp, hm⟩⟩), fun h => ?_⟩
  · have hnot : ¬(t.engine = .setup ∧ t.memory.tradable = true) := by
      rw [RecordMemory.tradable_iff]
      rintro ⟨he, ⟨p, hp, hactive⟩, r, hr, hused⟩
      rcases h with h | h | h
      · exact h he
      · exact h p hp hactive
      · exact hused (h r hr)
    exact exec_request_change hr ht (if_neg hnot)

/-! ### Posting, releases and interrupt messages (R184 to R186, R196) -/

/-- Settles O4: each word on a powered board, POST_WORD by the room in the inbound queue. -/
theorem postingAndLinkReset : Obligations.PostingAndLinkReset := by
  intro s value hp
  have on := fun f => whenPowered_on hp f
  refine ⟨fun h => (on _).trans (congrArg _ (if_pos h)), fun h => (on _).trans (congrArg _ (if_neg (Nat.not_lt.mpr h))),
    (on fun s => s.writeOverrun true).trans ?_, (on fun s => s.writeOverrun false).trans ?_, on _⟩
  · rw [State.writeOverrun, Bool.not_true, Bool.and_false]
  · rw [State.writeOverrun, Bool.not_false, Bool.and_true]

/-- An interrupt message counted when a test holds. -/
theorem countWhen (b : Bool) (p : Prop) [Decidable p] (h : b = true ↔ p) (n : Nat) :
    (if b then n + 1 else n) = n + if p then 1 else 0 := by
  by_cases hp : p
  · rw [if_pos (h.mpr hp), if_pos hp]
  · rw [if_neg (mt h.mp hp), if_neg hp, Nat.add_zero]

/-- Settles O5: the three words by their definitions, each count of interrupt messages by `countWhen`. -/
theorem releaseAndEnableSendInterrupts : Obligations.ReleaseAndEnableSendInterrupts := by
  intro s value bit hp
  have on := fun f => whenPowered_on hp f
  refine ⟨fun h => (on _).trans ?_, fun a rest h => (on _).trans ?_, (on fun s => s.setEnable bit).trans ?_, fun kind o f tag b => ?_⟩
  · rw [State.releaseAnswer, h]
  · rw [State.releaseAnswer, h]
    dsimp only
    rw [countWhen _ (rest ≠ [] ∧ s.interruptEnable = true) (by simp)]
  · rw [State.setEnable, countWhen _ (bit = true ∧ s.interruptEnable = false ∧ s.answers ≠ []) (by simp [and_assoc])]
  · rw [State.enter_interruptsSent, countWhen _ (s.answers = [] ∧ s.interruptEnable = true) (by simp)]

/-! ### The machine after reset (R194) -/

/-- Settles O59: the machine after reset is a cold start. -/
theorem resetMeetsTheInvariants : Obligations.ResetMeetsTheInvariants := by
  refine ⟨State.conserves_startCold State.reset 0, State.reset_tablesWf, ?_,
    State.watchesAgree_startCold State.reset 0, ?_, rfl, rfl, rfl, rfl, rfl, rfl, rfl, rfl, rfl, ?_⟩
  · exact (State.queuesFit_iff _).mpr (.empty rfl rfl rfl rfl rfl)
  · exact (State.settled_startCold State.reset 0).agrees
  · rintro (n | n) <;> rfl

end Sys2Proof.Machine
end

section
/-! The supply lost between changes, what a board without power ignores, and the two starts (R192 to R195). -/

namespace Sys2Proof.Machine

variable {s t u : State} {i : Instr}

/-! ### A stop between changes (R192) -/

theorem State.interrupted_between (s : State) : s.interrupted Interruption.between = { s with slots := UpdateSlots.empty } := by
  unfold State.interrupted
  split
  · next h _ => cases h
  · next h => rfl

theorem exec_request_off {r : Request} (hp : s.powered = false) (hr : requestOf i = some r) : exec i s = .next s :=
  (runRequest_request hr s).symm.trans (runRequest_off hp i)

/-- A command that only a powered board takes. -/
theorem exec_off (hp : s.powered = false) (hc : i ≠ .clockTick) (ho : ∀ ties, i ≠ .powerOn ties)
    (hw : ∀ offset value, i = .windowWrite offset value → offset + 4 ≤ 0x11C) : exec i s = .next s := by
  cases i with
  | clockTick => exact absurd rfl hc
  | powerOn ties => exact absurd rfl (ho ties)
  | windowWrite offset value =>
    have h := hw offset value rfl
    show execWindowWrite offset value s = _
    rw [execWindowWrite, if_neg (by omega), whenPowered_off hp]
  | postWord value => exact whenPowered_off hp State.post
  | overrunFlag bit => exact whenPowered_off hp fun s => s.writeOverrun bit
  | releaseWord value => exact whenPowered_off hp State.releaseAnswer
  | interruptEnable bit => exact whenPowered_off hp fun s => s.setEnable bit
  | engineReset bit cut ties => exact whenPowered_off hp fun s => if bit then s.resetEngine cut ties else s
  | linkReset => exact whenPowered_off hp State.emptyPort
  | holdExpiry slot =>
    show execHoldExpiry slot s = _
    rw [execHoldExpiry, whenPowered_off hp]
  | lapse number =>
    show execLapse number s = _
    rw [execLapse, whenPowered_off hp]
  | windowExpiry entry card => exact whenPowered_off hp _
  | turn => exact whenPowered_off hp State.turn
  | descriptorService => exact whenPowered_off hp State.serveDescriptor
  | lapseNotice => exact whenPowered_off hp State.serveLapse
  | sweepStep => exact whenPowered_off hp State.sweepOnce
  | sweepEnd => exact whenPowered_off hp State.serveSweep
  | powerLoss kept ok cut =>
    show execPowerLoss kept ok cut s = _
    rw [execPowerLoss, whenPowered_off hp]
  | closeTrading tag => exact runRequest_off hp (.closeTrading tag)
  | _ => exact exec_request_off hp rfl

/-! ### The two starts (R194, R195) -/

theorem exec_powerOn_intact (h : s.intact = true) (ties : List Nat) : exec (.powerOn ties) s = .next (s.recover ties) :=
  congrArg Host.Outcome.next (if_pos h)

theorem exec_powerOn_lost (h : s.intact = false) (ties : List Nat) : exec (.powerOn ties) s = .next (s.startCold 0) :=
  congrArg Host.Outcome.next (if_neg (by simp [h]))

theorem exec_engineReset (hp : s.powered = true) (cut : Interruption) (ties : List Nat) :
    exec (.engineReset true cut ties) s = .next (s.resetEngine cut ties) :=
  if_pos hp

theorem State.resetEngine_intact {cut : Interruption} (h : (s.interrupted cut).intact = true) (ties : List Nat) :
    s.resetEngine cut ties = (s.interrupted cut).recover ties :=
  if_pos h

theorem State.resetEngine_lost {cut : Interruption} (h : (s.interrupted cut).intact = false) (ties : List Nat) :
    s.resetEngine cut ties = (s.interrupted cut).startCold
      ((s.interrupted cut).memory.rollForward (s.interrupted cut).slots).clock :=
  if_neg (by simp [h])

/-! ### The supply lost (R192) -/

theorem exec_powerLoss (hp : s.powered = true) (kept ok : Bool) (cut : Interruption) :
    exec (.powerLoss kept ok cut) s = .next { s.interrupted cut with
      powered := false
      retention := if kept then (s.interrupted cut).retention else .lost
      indicatorCheck := (s.interrupted cut).indicatorCheck && ok } :=
  if_pos hp

/-- Settles O15: no change is in flight to stop, and every other command begins with the board's supply. -/
theorem powerLossStopsTheBoard : Obligations.PowerLossStopsTheBoard := by
  refine ⟨fun s kept ok hp => ?_, fun s i hp hc ho hw => exec_off hp hc ho hw⟩
  rw [exec_powerLoss hp]
  exact congrArg (fun t : State => Host.Outcome.next { t with
    powered := false
    retention := if kept then t.retention else .lost
    indicatorCheck := t.indicatorCheck && ok }) s.interrupted_between
end Sys2Proof.Machine
end

section
/-! What a slot's writes leave of Record Memory, record by record (R193): which contents a memory has, what a write gives,
and that a change's writes make the memory before it the memory after it. -/

namespace Sys2Proof.Machine

variable {m a b : RecordMemory} {w v : RecordWrite}

/-! ### Contents -/

/-- The memory has these contents of a record. -/
def RecordMemory.Has (m : RecordMemory) : RecordWrite → Prop
  | .mainCard i v => m.mainCards.find i = v
  | .poolCard i v => m.poolCards.find i = v
  | .chain i v => m.chains.find i = v
  | .product i v => m.products.find i = v
  | .merchant i v => m.merchants.find i = v
  | .tier i v => m.tiers.find i = v
  | .sponsor i v => m.sponsors.find i = v
  | .hold i v => m.holds.find i = v
  | .watch i v => m.watches.find i = v
  | .descriptor i v => m.descriptors.find i = v
  | .sweep v => m.sweep = v
  | .referralTime v => m.referralTime = v
  | .nextReferral v => m.nextReferral = v
  | .clock v => m.clock = v
  | .today v => m.today = v

/-- The indexes of every table rise. -/
structure RecordMemory.Rising (m : RecordMemory) : Prop where
  mainCards : m.mainCards.rising = true
  poolCards : m.poolCards.rising = true
  chains : m.chains.rising = true
  products : m.products.rising = true
  merchants : m.merchants.rising = true
  tiers : m.tiers.rising = true
  sponsors : m.sponsors.rising = true
  holds : m.holds.rising = true
  watches : m.watches.rising = true
  descriptors : m.descriptors.rising = true

theorem RecordMemory.rising_of_tablesWf (h : m.tablesWf = true) : m.Rising := by
  obtain ⟨h1, h2, h3, h4, h5, h6, h7, h8, h9, h10⟩ := m.tablesWf_iff.mp h
  exact ⟨h1, h2, ((Table.wf_iff _ _).mp h3).1, ((Table.wf_iff _ _).mp h4).1, ((Table.wf_iff _ _).mp h5).1,
    ((Table.wf_iff _ _).mp h6).1, ((Table.wf_iff _ _).mp h7).1, ((Table.wf_iff _ _).mp h8).1,
    ((Table.wf_iff _ _).mp h9).1, ((Table.wf_iff _ _).mp h10).1⟩

theorem RecordMemory.Rising.applyWrite (h : m.Rising) (w : RecordWrite) : (m.applyWrite w).Rising := by
  cases w with
  | mainCard i v => exact { h with mainCards := Table.rising_write i v h.mainCards }
  | poolCard i v => exact { h with poolCards := Table.rising_write i v h.poolCards }
  | chain i v => exact { h with chains := Table.rising_write i v h.chains }
  | product i v => exact { h with products := Table.rising_write i v h.products }
  | merchant i v => exact { h with merchants := Table.rising_write i v h.merchants }
  | tier i v => exact { h with tiers := Table.rising_write i v h.tiers }
  | sponsor i v => exact { h with sponsors := Table.rising_write i v h.sponsors }
  | hold i v => exact { h with holds := Table.rising_write i v h.holds }
  | watch i v => exact { h with watches := Table.rising_write i v h.watches }
  | descriptor i v => exact { h with descriptors := Table.rising_write i v h.descriptors }
  | sweep | referralTime | nextReferral | clock | today => exact { h with }

theorem RecordMemory.Rising.applyAll (h : m.Rising) (W : List RecordWrite) : (m.applyAll W).Rising :=
  foldl_keeps (Q := RecordMemory.Rising) (fun _ w hm => hm.applyWrite w) W m h

/-- Memories with the same contents of every record are the same but for the fund totals. -/
theorem RecordMemory.Rising.ext (ha : a.Rising) (hb : b.Rising) (h : ∀ w, a.Has w → b.Has w) :
    { b with funds := a.funds } = a := by
  have e1 := Table.ext_find ha.mainCards hb.mainCards fun i => (h (.mainCard i _) rfl).symm
  have e2 := Table.ext_find ha.poolCards hb.poolCards fun i => (h (.poolCard i _) rfl).symm
  have e3 := Table.ext_find ha.chains hb.chains fun i => (h (.chain i _) rfl).symm
  have e4 := Table.ext_find ha.products hb.products fun i => (h (.product i _) rfl).symm
  have e5 := Table.ext_find ha.merchants hb.merchants fun i => (h (.merchant i _) rfl).symm
  have e6 := Table.ext_find ha.tiers hb.tiers fun i => (h (.tier i _) rfl).symm
  have e7 := Table.ext_find ha.sponsors hb.sponsors fun i => (h (.sponsor i _) rfl).symm
  have e8 := Table.ext_find ha.holds hb.holds fun i => (h (.hold i _) rfl).symm
  have e9 := Table.ext_find ha.watches hb.watches fun i => (h (.watch i _) rfl).symm
  have e10 := Table.ext_find ha.descriptors hb.descriptors fun i => (h (.descriptor i _) rfl).symm
  have e11 : a.sweep = b.sweep := (h (.sweep _) rfl).symm
  have e12 : a.referralTime = b.referralTime := (h (.referralTime _) rfl).symm
  have e13 : a.nextReferral = b.nextReferral := (h (.nextReferral _) rfl).symm
  have e14 : a.clock = b.clock := (h (.clock _) rfl).symm
  have e15 : a.today = b.today := (h (.today _) rfl).symm
  cases a
  cases b
  simp_all only

/-! ### Writes -/

theorem RecordMemory.Has.unique (hw : m.Has w) (hv : m.Has v) (h : v.sameRecord w = true) : v = w := by
  cases v <;> cases w <;> simp_all [RecordWrite.sameRecord, RecordMemory.Has]

theorem RecordMemory.Rising.has_applyWrite (h : m.Rising) (w : RecordWrite) : (m.applyWrite w).Has w := by
  cases w with
  | mainCard i v => exact (Table.find_write h.mainCards i i v).trans (if_pos rfl)
  | poolCard i v => exact (Table.find_write h.poolCards i i v).trans (if_pos rfl)
  | chain i v => exact (Table.find_write h.chains i i v).trans (if_pos rfl)
  | product i v => exact (Table.find_write h.products i i v).trans (if_pos rfl)
  | merchant i v => exact (Table.find_write h.merchants i i v).trans (if_pos rfl)
  | tier i v => exact (Table.find_write h.tiers i i v).trans (if_pos rfl)
  | sponsor i v => exact (Table.find_write h.sponsors i i v).trans (if_pos rfl)
  | hold i v => exact (Table.find_write h.holds i i v).trans (if_pos rfl)
  | watch i v => exact (Table.find_write h.watches i i v).trans (if_pos rfl)
  | descriptor i v => exact (Table.find_write h.descriptors i i v).trans (if_pos rfl)
  | sweep | referralTime | nextReferral | clock | today => rfl

/-- A write leaves the contents of every other record. -/
theorem RecordMemory.Has.applyWrite (h : m.Rising) (hv : m.Has v) (hne : v.sameRecord w = false) :
    (m.applyWrite w).Has v := by
  cases w with
  | mainCard i x => cases v <;> simp_all [RecordWrite.sameRecord, Has, RecordMemory.applyWrite, Table.find_write h.mainCards]
  | poolCard i x => cases v <;> simp_all [RecordWrite.sameRecord, Has, RecordMemory.applyWrite, Table.find_write h.poolCards]
  | chain i x => cases v <;> simp_all [RecordWrite.sameRecord, Has, RecordMemory.applyWrite, Table.find_write h.chains]
  | product i x => cases v <;> simp_all [RecordWrite.sameRecord, Has, RecordMemory.applyWrite, Table.find_write h.products]
  | merchant i x =>
    cases v <;> simp_all [RecordWrite.sameRecord, Has, RecordMemory.applyWrite, Table.find_write h.merchants]
  | tier i x => cases v <;> simp_all [RecordWrite.sameRecord, Has, RecordMemory.applyWrite, Table.find_write h.tiers]
  | sponsor i x => cases v <;> simp_all [RecordWrite.sameRecord, Has, RecordMemory.applyWrite, Table.find_write h.sponsors]
  | hold i x => cases v <;> simp_all [RecordWrite.sameRecord, Has, RecordMemory.applyWrite, Table.find_write h.holds]
  | watch i x => cases v <;> simp_all [RecordWrite.sameRecord, Has, RecordMemory.applyWrite, Table.find_write h.watches]
  | descriptor i x =>
    cases v <;> simp_all [RecordWrite.sameRecord, Has, RecordMemory.applyWrite, Table.find_write h.descriptors]
  | sweep | referralTime | nextReferral | clock | today =>
    cases v <;> simp_all [RecordWrite.sameRecord, Has, RecordMemory.applyWrite]

/-- Writes of `b`'s contents bring a memory nearer to `b`: what it has of `b` stays, and what they write it has. -/
theorem RecordMemory.has_applyAll (W : List RecordWrite) : ∀ {m : RecordMemory}, m.Rising → (∀ w ∈ W, b.Has w) →
    b.Has v → m.Has v ∨ v ∈ W → (m.applyAll W).Has v := by
  induction W with
  | nil => exact fun _ _ _ h => h.resolve_right List.not_mem_nil
  | cons w W ih =>
    intro m hm hW hv h
    refine ih (hm.applyWrite w) (fun x hx => hW x (List.mem_cons_of_mem _ hx)) hv ?_
    by_cases hvw : v = w
    · exact .inl (hvw ▸ hm.has_applyWrite w)
    · have hne : v.sameRecord w = false :=
        Bool.eq_false_iff.mpr fun h => hvw ((hW w List.mem_cons_self).unique hv h)
      exact h.imp (fun h => h.applyWrite hm hne) fun h => (List.mem_cons.mp h).resolve_left hvw

theorem Table.mem_diff_contents {α : Type} [DecidableEq α] {a b : Table α} (ha : a.rising = true) (hb : b.rising = true)
    (k : Nat) (x : Option α) : (k, x) ∈ a.diff b ↔ b.find k = x ∧ ¬ a.find k = x := by
  rw [Table.mem_diff_iff ha hb]
  constructor
  · rintro ⟨rfl, h⟩
    exact ⟨rfl, h⟩
  · rintro ⟨rfl, h⟩
    exact ⟨rfl, h⟩

theorem ne_and_eq_iff {α : Type} {a b x : α} : a ≠ b ∧ x = b ↔ b = x ∧ ¬ a = x := by
  constructor
  · rintro ⟨h, rfl⟩
    exact ⟨rfl, h⟩
  · rintro ⟨rfl, h⟩
    exact ⟨h, rfl⟩

/-- A change's writes are the contents that are new in it. -/
theorem RecordMemory.mem_writesTo (ha : a.Rising) (hb : b.Rising) : w ∈ a.writesTo b ↔ b.Has w ∧ ¬ a.Has w := by
  cases w with
  | mainCard i x =>
    simp [writesTo, mem_tableWrites, mem_valueWrite, Has, Table.mem_diff_contents ha.mainCards hb.mainCards]
  | poolCard i x =>
    simp [writesTo, mem_tableWrites, mem_valueWrite, Has, Table.mem_diff_contents ha.poolCards hb.poolCards]
  | chain i x =>
    simp [writesTo, mem_tableWrites, mem_valueWrite, Has, Table.mem_diff_contents ha.chains hb.chains]
  | product i x =>
    simp [writesTo, mem_tableWrites, mem_valueWrite, Has, Table.mem_diff_contents ha.products hb.products]
  | merchant i x =>
    simp [writesTo, mem_tableWrites, mem_valueWrite, Has, Table.mem_diff_contents ha.merchants hb.merchants]
  | tier i x =>
    simp [writesTo, mem_tableWrites, mem_valueWrite, Has, Table.mem_diff_contents ha.tiers hb.tiers]
  | sponsor i x =>
    simp [writesTo, mem_tableWrites, mem_valueWrite, Has, Table.mem_diff_contents ha.sponsors hb.sponsors]
  | hold i x =>
    simp [writesTo, mem_tableWrites, mem_valueWrite, Has, Table.mem_diff_contents ha.holds hb.holds]
  | watch i x =>
    simp [writesTo, mem_tableWrites, mem_valueWrite, Has, Table.mem_diff_contents ha.watches hb.watches]
  | descriptor i x =>
    simp [writesTo, mem_tableWrites, mem_valueWrite, Has, Table.mem_diff_contents ha.descriptors hb.descriptors]
  | sweep | referralTime | nextReferral | clock | today =>
    simpa [writesTo, mem_tableWrites, mem_valueWrite, Has] using ne_and_eq_iff

theorem RecordMemory.applyAll_withFunds (W : List RecordWrite) : ∀ (m : RecordMemory) (f : Funds),
    ({ m with funds := f } : RecordMemory).applyAll W = { m.applyAll W with funds := f } := by
  induction W with
  | nil => exact fun _ _ => rfl
  | cons w W ih =>
    intro m f
    refine Eq.trans ?_ (ih (m.applyWrite w) f)
    cases w <;> rfl

/-- A change's writes, any number of them made once before, give every record the contents it has after the change. -/
theorem RecordMemory.applyAll_writesTo (ha : a.Rising) (hb : b.Rising) (n : Nat) :
    ({ (a.applyAll ((a.writesTo b).take n)).applyAll (a.writesTo b) with funds := b.funds } : RecordMemory) = b := by
  have hW : ∀ w ∈ a.writesTo b, b.Has w := fun w hw => ((mem_writesTo ha hb).mp hw).1
  have hm := ha.applyAll ((a.writesTo b).take n)
  refine hb.ext (hm.applyAll (a.writesTo b)) fun v hv => has_applyAll _ hm hW hv ?_
  by_cases hav : a.Has v
  · exact .inl (has_applyAll _ ha (fun w hw => hW w (List.mem_of_mem_take hw)) hv (.inl hav))
  · exact .inr ((mem_writesTo ha hb).mpr ⟨hv, hav⟩)

theorem RecordMemory.rollSlot_sealed (m : RecordMemory) (W : List RecordWrite) (f amounts : Funds) (applied : Bool) :
    ({ m with funds := if applied = true then f.add amounts else f } : RecordMemory).rollSlot
      (.sealed W amounts applied true) = { m.applyAll W with funds := f.add amounts } := by
  unfold RecordMemory.rollSlot
  dsimp only
  rw [applyAll_withFunds]
  cases applied <;> rfl

/-- A sealed slot rolled forward after the fund amounts were added, or not yet. -/
theorem RecordMemory.rollSlot_of_applied (m : RecordMemory) (W : List RecordWrite) (amounts : Funds) (applied : Bool) :
    (if applied = true then { m with funds := m.funds.add amounts } else m : RecordMemory).rollSlot
      (.sealed W amounts applied true) = { m.applyAll W with funds := m.funds.add amounts } := by
  refine Eq.trans ?_ (m.rollSlot_sealed W m.funds amounts applied)
  cases applied <;> rfl

/-! ### Step credits left out (R172) -/

theorem Table.rising_update {α : Type} [DecidableEq α] (d : α) (f : α → α) {t : Table α} (h : t.rising = true) :
    (t.update d f).rising = true :=
  ((Table.wf_iff _ _).mp (Table.wf_update d f h)).1

theorem Table.find_filter {α : Type} (p : α → Bool) {t : Table α} (h : t.rising = true) (k : Nat) :
    Table.find (List.filter (fun e => p e.2) t) k = (t.find k).filter p := by
  induction t with
  | nil => rfl
  | cons e t ih =>
    obtain ⟨j, v⟩ := e
    obtain ⟨ha, ht⟩ := (Table.rising_cons j v t).mp h
    rw [List.filter_cons]
    by_cases hj : j = k
    · subst hj
      have hn : Table.find t j = none := Table.find_of_above ha (Nat.le_refl _)
      split <;> simp_all [Table.find, Option.filter]
    · split <;> simp_all [Table.find]

theorem Table.find_update {α : Type} [DecidableEq α] (d : α) (f : α → α) {t : Table α} (h : t.rising = true) (k : Nat) :
    (t.update d f).find k = ((t.find k).map f).filter fun v => !decide (v = d) := by
  unfold Table.update
  rw [Table.find_filter (fun v => !decide (v = d)) (Table.rising_map (fun e => f e.2) h), Table.find_map]

/-- An update commutes with the write of contents that it leaves. -/
theorem Table.update_write {α : Type} [DecidableEq α] {d : α} {f : α → α} {t : Table α} (h : t.rising = true) (k : Nat)
    {x : Option α} (hx : ((x.map f).filter fun v => !decide (v = d)) = x) :
    (t.write k x).update d f = (t.update d f).write k x := by
  have hu := Table.rising_update d f h
  refine Table.ext_find (Table.rising_update d f (Table.rising_write k x h)) (Table.rising_write k x hu) fun i => ?_
  rw [Table.find_update d f (Table.rising_write k x h), Table.find_write h, Table.find_write hu, Table.find_update d f h]
  split
  · exact hx
  · rfl

/-- Of two updates the second stands alone when it undoes what the first changed. -/
theorem Table.update_update {α : Type} [DecidableEq α] {d : α} {f g : α → α} (hg : ∀ v, g (f v) = g v) (hd : g d = d)
    (t : Table α) : (t.update d f).update d g = t.update d g := by
  unfold Table.update
  induction t with
  | nil => rfl
  | cons e t ih =>
    have hfd : f e.2 = d → g e.2 = d := fun h => (hg e.2).symm.trans ((congrArg g h).trans hd)
    by_cases h : f e.2 = d
    · simpa [List.filter_cons, h, hfd h] using ih
    · simp [List.filter_cons, h, hg, ih]

theorem filter_map_idempotent {α : Type} {f : α → α} (hf : ∀ v, f (f v) = f v) (p : α → Bool) (o : Option α) :
    ((((o.map f).filter p).map f).filter p) = (o.map f).filter p := by
  cases o with
  | none => rfl
  | some v => by_cases h : p (f v) <;> simp [Option.filter, h, hf]

/-- Contents of which the step credits are left out. -/
def RecordWrite.Uncredited : RecordWrite → Prop
  | .descriptor _ x => ((x.map Descriptor.uncredited).filter fun d => !decide (d = Descriptor.idle)) = x
  | _ => True

theorem RecordMemory.uncredited_applyWrite (h : m.Rising) (hw : w.Uncredited) :
    (m.applyWrite w).uncredited = m.uncredited.applyWrite w := by
  cases w with
  | descriptor k x => exact congrArg (fun t => { m with descriptors := t }) (Table.update_write h.descriptors k hw)
  | _ => rfl

theorem RecordMemory.uncredited_applyAll (W : List RecordWrite) : ∀ {m : RecordMemory}, m.Rising →
    (∀ w ∈ W, w.Uncredited) → (m.applyAll W).uncredited = m.uncredited.applyAll W := by
  induction W with
  | nil => exact fun _ _ => rfl
  | cons w W ih =>
    intro m hm hW
    refine (ih (hm.applyWrite w) fun x hx => hW x (List.mem_cons_of_mem _ hx)).trans ?_
    rw [uncredited_applyWrite hm (hW w List.mem_cons_self)]
    rfl

theorem RecordMemory.Rising.uncredited (h : m.Rising) : m.uncredited.Rising :=
  { h with descriptors := Table.rising_update _ _ h.descriptors }

theorem RecordMemory.Rising.uncredited_of_has (h : m.Rising) (hw : m.uncredited.Has w) : w.Uncredited := by
  cases w with
  | descriptor k x =>
    cases hw
    show _ = (m.descriptors.update Descriptor.idle Descriptor.uncredited).find k
    rw [RecordMemory.uncredited, Table.find_update _ _ h.descriptors]
    exact filter_map_idempotent (f := Descriptor.uncredited) (fun _ => rfl) _ _
  | _ => trivial

theorem RecordMemory.uncredited_withFunds (m : RecordMemory) (f : Funds) :
    ({ m with funds := f } : RecordMemory).uncredited = { m.uncredited with funds := f } := rfl

/-- A change's writes made twice, the step credits left out on both sides. -/
theorem RecordMemory.uncredited_writesTo (ha : a.Rising) (hb : b.Rising) (n : Nat) :
    ({ (a.applyAll ((a.uncredited.writesTo b.uncredited).take n)).applyAll (a.uncredited.writesTo b.uncredited) with
      funds := b.funds } : RecordMemory).uncredited = b.uncredited := by
  have hW : ∀ w ∈ a.uncredited.writesTo b.uncredited, w.Uncredited := fun w hw =>
    hb.uncredited_of_has ((mem_writesTo ha.uncredited hb.uncredited).mp hw).1
  have h := applyAll_writesTo ha.uncredited hb.uncredited n
  rw [← uncredited_applyAll _ ha fun w hw => hW w (List.mem_of_mem_take hw),
    ← uncredited_applyAll _ (ha.applyAll _) hW] at h
  rw [uncredited_withFunds]
  exact h

/-- A recovery is the same with the step credits left out. -/
theorem RecordMemory.recovered_uncredited (m : RecordMemory) (ties : List Nat) :
    m.uncredited.recovered ties = m.recovered ties := by
  have h := Table.update_update (d := Descriptor.idle) (f := Descriptor.uncredited) (g := Descriptor.recovered)
    (fun _ => rfl) rfl m.descriptors
  simp only [RecordMemory.recovered, RecordMemory.uncredited, RecordMemory.mapCards, h]

/-! ### One writer stopped within its change (R193) -/

variable {s t u : State} {i : Instr}

/-- The memory that a start makes of one writer stopped within its change. -/
def afterStop (before after : RecordMemory) : Stage → RecordMemory
  | .sealed true _ _ => after
  | _ => before

/-- The first writer stopped, its slot rolled forward: the whole change or none of it. -/
theorem uncredited_roll_writer (hs : s.memory.Rising) (hu : u.memory.Rising) (answers : List Answer) (stage : Stage) :
    ((Stopped.writer ⟨s.memory, [], answers⟩ s u stage).1.memory.rollSlot
      (Stopped.writer ⟨s.memory, [], answers⟩ s u stage).2).uncredited =
        (afterStop s.memory u.memory stage).uncredited := by
  unfold Stopped.writer
  by_cases hsu : s = u
  · subst hsu
    rw [if_pos rfl]
    cases stage with
    | filling => rfl
    | sealed checkPasses written applied => cases checkPasses <;> rfl
  · rw [if_neg hsu]
    cases stage with
    | filling => rfl
    | sealed checkPasses written applied =>
      cases checkPasses with
      | false =>
        dsimp only
        rw [if_neg (by simp)]
        rfl
      | true =>
        dsimp only
        rw [if_neg (by simp), if_neg (by simp)]
        refine (congrArg RecordMemory.uncredited (RecordMemory.rollSlot_of_applied ..)).trans ?_
        rw [RecordMemory.applyAll_funds, Funds.add_sub s.memory.funds u.memory.funds]
        exact RecordMemory.uncredited_writesTo hs hu written

/-- A stop leaves only Record Memory and the slots changed, and its slots roll forward to `x` but for step credits. -/
def StopsTo (s : State) (cut : Interruption) (x : RecordMemory) : Prop :=
  ∃ m slots, s.interrupted cut = { s with memory := m, slots := slots } ∧ (m.rollForward slots).uncredited = x.uncredited

/-- Both ways to stop the engine recover the memory that the slots roll forward to. -/
theorem StopsTo.starts {cut : Interruption} {x : RecordMemory} (h : StopsTo s cut x) (hp : s.powered = true)
    (hv : s.retention = .valid) (hc : s.indicatorCheck = true) (ties : List Nat) :
    ∃ p u v, exec (.powerLoss true true cut) s = .next p ∧ p.powered = false ∧ exec (.powerOn ties) p = .next u ∧
      exec (.engineReset true cut ties) s = .next v ∧ u.memory = v.memory ∧ v.memory = x.recovered ties := by
  obtain ⟨m, slots, hcut, hroll⟩ := h
  have hmem : (m.rollForward slots).recovered ties = x.recovered ties := by
    rw [← RecordMemory.recovered_uncredited, hroll, RecordMemory.recovered_uncredited]
  refine ⟨{ s with memory := m, slots := slots, powered := false, indicatorCheck := s.indicatorCheck && true },
    State.recover { s with memory := m, slots := slots, powered := false, indicatorCheck := s.indicatorCheck && true } ties,
    State.recover { s with memory := m, slots := slots } ties, ?_, rfl, ?_, ?_, rfl, hmem⟩
  · rw [exec_powerLoss hp, hcut]
    rfl
  · refine exec_powerOn_intact ?_ ties
    rw [State.intact_iff]
    exact ⟨hv, by simp [hc]⟩
  · have hi : (s.interrupted cut).intact = true := by
      rw [hcut]
      exact (State.intact_iff _).mpr ⟨hv, hc⟩
    rw [exec_engineReset hp, State.resetEngine_intact hi, hcut]

variable {stage : Stage}

/-- One writer alone stopped, `t` the state its change would have given. -/
def State.stoppedWriter (s t : State) (stage : Stage) : Stopped × UpdateSlot :=
  Stopped.writer ⟨s.memory, [], s.answers⟩ s t stage

theorem exec_readMessage (m : Message) (s : State) : exec (readMessage m) s = runRequest (readMessage m) s := by
  have hf : (readMessage m).fields ≠ none := fun h => by
    have := readMessage_header m
    rw [headerOf, h] at this
    cases this
  rcases requestOf_or_closeTrading hf with ⟨r, hr⟩ | ⟨tag, hc⟩
  · exact (runRequest_request hr s).symm
  · rw [hc]
    rfl

theorem formatting_eq_none {m : Message} {rest : List Message} (hin : s.inbound = m :: rest)
    (h : ∀ tag day reading, readMessage m ≠ .format tag day reading) : s.formatting = none := by
  unfold State.formatting
  rw [hin]
  dsimp only
  split
  · next tag day reading he => exact absurd he (h tag day reading)
  · rfl

theorem State.nextRequest_eq {m : Message} {rest : List Message} (hin : s.inbound = m :: rest)
    (h : exec (readMessage m) s = .next t) : s.nextRequest = t := by
  rw [exec_readMessage] at h
  unfold State.nextRequest
  rw [hin]
  exact congrArg (outcomeState s) h

/-- A state whose memory is canonical. -/
def State.Canonical (s : State) : Prop := s.Upheld (fun m => m.tablesWf = true) fun _ => True

theorem State.Canonical.rising (h : s.Canonical) : s.memory.Rising := RecordMemory.rising_of_tablesWf h.1

section
variable (hs : s.Canonical)
include hs

theorem State.Canonical.stopsTo_request {m : Message} {rest : List Message} (hin : s.inbound = m :: rest)
    (hf : ∀ tag day reading, readMessage m ≠ .format tag day reading) (hu : exec (readMessage m) s = .next t) :
    StopsTo s ⟨some stage, none, none, none⟩ (afterStop s.memory t.memory stage) := by
  have he : s.nextRequest = t := s.nextRequest_eq hin hu
  have ht : t.Canonical := he ▸ RecordMemory.tablesWf_kept.nextRequest RecordMemory.tablesWf_blank trivial hs
  refine ⟨(s.stoppedWriter t stage).1.memory, ⟨(s.stoppedWriter t stage).2, .empty, .empty, .empty⟩, ?_,
    uncredited_roll_writer hs.rising ht.rising s.answers stage⟩
  unfold State.interrupted
  rw [formatting_eq_none hin hf, ← he]
  rfl

theorem State.Canonical.stopsTo_payout (w : PayoutWriter) :
    StopsTo s ⟨none, some (w, stage), none, none⟩ (afterStop s.memory (s.payoutChange w).memory stage) := by
  have ht : (s.payoutChange w).Canonical := RecordMemory.tablesWf_kept.payoutChange w hs
  exact ⟨(s.stoppedWriter (s.payoutChange w) stage).1.memory,
    ⟨.empty, (s.stoppedWriter (s.payoutChange w) stage).2, .empty, .empty⟩, rfl,
    uncredited_roll_writer hs.rising ht.rising s.answers stage⟩

theorem State.Canonical.stopsTo_sweep :
    StopsTo s ⟨none, none, some stage, none⟩ (afterStop s.memory s.sweepChange.memory stage) := by
  have ht : s.sweepChange.Canonical := RecordMemory.tablesWf_kept.sweepChange hs
  exact ⟨(s.stoppedWriter s.sweepChange stage).1.memory,
    ⟨.empty, .empty, (s.stoppedWriter s.sweepChange stage).2, .empty⟩, rfl,
    uncredited_roll_writer hs.rising ht.rising s.answers stage⟩

theorem State.Canonical.stopsTo_expiry (w : ExpiryWriter) :
    StopsTo s ⟨none, none, none, some (w, stage)⟩ (afterStop s.memory (s.expiryChange w).memory stage) := by
  have ht : (s.expiryChange w).Canonical := RecordMemory.tablesWf_kept.expiryChange w hs
  exact ⟨(s.stoppedWriter (s.expiryChange w) stage).1.memory,
    ⟨.empty, .empty, .empty, (s.stoppedWriter (s.expiryChange w) stage).2⟩, rfl,
    uncredited_roll_writer hs.rising ht.rising s.answers stage⟩

end

/-- Settles O16: a change's writes are the contents that are new in it, so writing them again completes it, and each writer's
slot holds exactly those of its own command. -/
theorem sealedSlotRollsForwardWhole : Obligations.SealedSlotRollsForwardWhole := by
  refine ⟨fun a b n applied ha hb => ⟨?_, rfl, rfl⟩, fun s t i stage cut ties hp hv hc hw hu hcut => ?_⟩
  · refine (RecordMemory.rollSlot_sealed _ _ a.funds _ applied).trans ?_
    rw [Funds.add_sub a.funds b.funds]
    exact RecordMemory.applyAll_writesTo (RecordMemory.rising_of_tablesWf ha) (RecordMemory.rising_of_tablesWf hb) n
  · have hs : s.Canonical := ⟨by simp_all [State.tablesWf], trivial⟩
    have hstop : StopsTo s cut (afterStop s.memory t.memory stage) := by
      rcases hcut with ⟨m, rest, hin, rfl, hf, rfl⟩ | ⟨rfl, rfl⟩ | ⟨rfl, rfl⟩ | ⟨rfl, hsw, rfl⟩ | ⟨rfl, hsw, rfl⟩ |
        ⟨n, rfl, rfl⟩ | ⟨n, rfl, rfl⟩ | ⟨rfl, rfl⟩
      · exact hs.stopsTo_request hin hf hu
      · cases (if_pos hp : whenPowered s State.turn = _).symm.trans hu
        exact hs.stopsTo_payout .turn
      · cases (if_pos hp : whenPowered s State.serveDescriptor = _).symm.trans hu
        exact hs.stopsTo_payout .service
      · cases (if_pos hp : whenPowered s State.sweepOnce = _).symm.trans hu
        exact (if_neg hsw : s.sweepChange = s.sweepOnce) ▸ hs.stopsTo_sweep
      · cases (if_pos hp : whenPowered s State.serveSweep = _).symm.trans hu
        exact (if_pos hsw : s.sweepChange = s.serveSweep) ▸ hs.stopsTo_sweep
      · have he : s.expiryChange (.hold n) = t := congrArg (outcomeState s) hu
        exact he ▸ hs.stopsTo_expiry (.hold n)
      · have he : s.expiryChange (.lapse n) = t := congrArg (outcomeState s) hu
        exact he ▸ hs.stopsTo_expiry (.lapse n)
      · cases (if_pos hp : whenPowered s State.serveLapse = _).symm.trans hu
        exact hs.stopsTo_expiry .notice
    obtain ⟨p, u, v, h1, h2, h3, h4, h5, h6⟩ := hstop.starts hp hv hc ties
    refine ⟨p, u, v, h1, h2, h3, h4, h5, h6.trans ?_⟩
    cases stage with
    | filling => rfl
    | sealed checkPasses written applied => cases checkPasses <;> rfl

end Sys2Proof.Machine
end

section
/-! The starts of the engine (R194, R195): what the changes in flight leave of the clock, the cold start, and what a recovery
makes of the runs, the watch entries and the cards. -/

namespace Sys2Proof.Machine

variable {s t u : State} {m a b : RecordMemory}

/-! ### Changes that keep the clock -/

@[simp] theorem RecordMemory.clock_putCard (m : RecordMemory) (slot : Slot) (c : Card) :
    (m.putCard slot c).clock = m.clock := by
  cases slot <;> rfl

theorem RecordMemory.clock_mapCard (m : RecordMemory) (number : Nat) (f : Card → Card) :
    (m.mapCard number f).clock = m.clock := by
  unfold RecordMemory.mapCard
  split
  · exact RecordMemory.clock_putCard ..
  · rfl

theorem RecordMemory.clock_examine (m : RecordMemory) : m.examine.clock = m.clock := by
  unfold RecordMemory.examine
  split
  · rfl
  · split
    · rfl
    · dsimp only
      rw [RecordMemory.settle_eq]
      split <;> exact RecordMemory.clock_putCard ..

theorem RecordMemory.clock_expireHold (m : RecordMemory) (n : Nat) (x : HoldRecord) :
    (m.expireHold n x).clock = m.clock := by
  unfold RecordMemory.expireHold
  split
  · exact (RecordMemory.clock_putCard ..).trans (RecordMemory.freeHold_clock ..)
  · rfl

theorem State.clock_orWait {step : State → Nat → State} (h : ∀ s i, (step s i).memory.clock = s.memory.clock) (s : State)
    (i : Nat) : (s.orWait i step).memory.clock = s.memory.clock := by
  unfold State.orWait
  split
  · exact h s i
  · rfl

theorem State.clock_turn (s : State) : s.turn.memory.clock = s.memory.clock := by
  unfold State.turn
  split
  · rfl
  · split
    · unfold State.takeTurn
      dsimp only
      split
      · exact State.clock_orWait (step := State.endRun) (fun _ _ => rfl) ..
      · split
        · exact State.clock_orWait (step := State.cutMerchant) (fun _ _ => rfl) ..
        · rfl
    · rfl

theorem State.clock_serveDescriptor (s : State) : s.serveDescriptor.memory.clock = s.memory.clock := by
  unfold State.serveDescriptor
  split
  · split
    · split
      · unfold State.serveStep
        dsimp only
        split
        · rfl
        · split <;> rfl
      · rfl
    · rfl
  · rfl

theorem State.clock_payoutChange (s : State) (w : PayoutWriter) : (s.payoutChange w).memory.clock = s.memory.clock := by
  cases w with
  | turn => exact s.clock_turn
  | service => exact s.clock_serveDescriptor

theorem State.clock_sweepChange (s : State) : s.sweepChange.memory.clock = s.memory.clock := by
  unfold State.sweepChange
  split
  · unfold State.serveSweep
    split
    · split <;> rfl
    · rfl
  · unfold State.sweepOnce
    split
    · dsimp only
      split
      · exact s.memory.clock_examine
      · split <;> exact s.memory.clock_examine
    · rfl

theorem State.clock_placeLapseNotice (s : State) (e : Referral) :
    (s.placeLapseNotice e).memory.clock = s.memory.clock :=
  RecordMemory.clock_mapCard ..

theorem State.clock_offerLapse (s : State) (e : Referral) : (s.offerLapse e).memory.clock = s.memory.clock := by
  unfold State.offerLapse
  split
  · exact s.clock_placeLapseNotice e
  · rfl

theorem State.clock_lapseEntry (s : State) (e : Referral) : (s.lapseEntry e).memory.clock = s.memory.clock := by
  rw [State.lapseEntry_memory]
  split
  · exact RecordMemory.clock_mapCard ..
  · rfl

theorem State.clock_serveLapse (s : State) : s.serveLapse.memory.clock = s.memory.clock := by
  unfold State.serveLapse
  split
  · split
    · split
      · exact State.clock_placeLapseNotice ..
      · rfl
    · rfl
  · rfl

theorem State.clock_execHoldExpiry (slot : Nat) (hu : execHoldExpiry slot s = .next u) :
    u.memory.clock = s.memory.clock := by
  refine whenPowered_keeps (P := fun u => u.memory.clock = s.memory.clock) (fun h => ?_) rfl hu
  split
  · rfl
  · split
    · exact RecordMemory.clock_expireHold ..
    · rfl

theorem State.clock_execLapse (number : Nat) (hu : execLapse number s = .next u) : u.memory.clock = s.memory.clock := by
  refine whenPowered_keeps (P := fun u => u.memory.clock = s.memory.clock) (fun h => ?_) rfl hu
  split
  · rfl
  · split
    · exact (State.clock_offerLapse ..).trans (State.clock_lapseEntry ..)
    · rfl

theorem State.clock_expiryChange (s : State) (w : ExpiryWriter) : (s.expiryChange w).memory.clock = s.memory.clock := by
  cases w with
  | hold slot =>
    exact outcomeState_keeps (P := fun u => u.memory.clock = s.memory.clock) rfl fun _ => State.clock_execHoldExpiry slot
  | lapse number =>
    exact outcomeState_keeps (P := fun u => u.memory.clock = s.memory.clock) rfl fun _ => State.clock_execLapse number
  | notice => exact s.clock_serveLapse

/-! ### The clock that the slots roll forward to (R193) -/

theorem mem_writesTo_clock {n : Nat} : .clock n ∈ a.writesTo b ↔ a.clock ≠ b.clock ∧ n = b.clock := by
  simp [RecordMemory.writesTo, mem_tableWrites, mem_valueWrite]

theorem RecordMemory.clock_applyAll (W : List RecordWrite) {c : Nat} : ∀ {m : RecordMemory},
    (∀ n, .clock n ∈ W → n = c) → m.clock = c ∨ .clock c ∈ W → (m.applyAll W).clock = c := by
  induction W with
  | nil => exact fun _ h => h.resolve_right List.not_mem_nil
  | cons w W ih =>
    intro m hW h
    refine ih (m := m.applyWrite w) (fun n hn => hW n (List.mem_cons_of_mem _ hn)) ?_
    cases w with
    | clock n => exact .inl (hW n List.mem_cons_self)
    | _ =>
      refine Or.imp (fun h => h) (fun h => ?_) h
      simpa using h

theorem RecordMemory.clock_withFunds (m : RecordMemory) (f : Funds) :
    ({ m with funds := f } : RecordMemory).clock = m.clock := rfl

/-- A change's writes, any number of them made once before, leave the clock that the change left. -/
theorem RecordMemory.clock_writesTo (a b : RecordMemory) (n : Nat) :
    ((a.applyAll ((a.uncredited.writesTo b.uncredited).take n)).applyAll (a.uncredited.writesTo b.uncredited)).clock =
      b.clock := by
  have hW : ∀ k, .clock k ∈ a.uncredited.writesTo b.uncredited → k = b.clock := fun k hk => (mem_writesTo_clock.mp hk).2
  by_cases hc : a.clock = b.clock
  · exact clock_applyAll _ hW (.inl (clock_applyAll _ (fun k hk => hW k (List.mem_of_mem_take hk)) (.inl hc)))
  · exact clock_applyAll _ hW (.inr (mem_writesTo_clock.mpr ⟨hc, rfl⟩))

/-- The slot holds no clock. -/
def UpdateSlot.KeepsClock (x : UpdateSlot) : Prop := ∀ m : RecordMemory, (m.rollSlot x).clock = m.clock

theorem UpdateSlot.keepsClock_sealed {W : List RecordWrite} (h : ∀ n, .clock n ∉ W) (amounts : Funds)
    (applied checkPasses : Bool) : (UpdateSlot.sealed W amounts applied checkPasses).KeepsClock := fun m => by
  have hW := RecordMemory.clock_applyAll (c := m.clock) W (fun n hn => absurd hn (h n)) (.inl rfl)
  cases checkPasses with
  | false => rfl
  | true => cases applied <;> exact hW

theorem Stopped.clock_maybe (acc : Stopped) (s : State) {work : Option ((State → State) × Stage)}
    (h : ∀ w ∈ work, ∀ t : State, (w.1 t).memory.clock = t.memory.clock) :
    (acc.maybe s work).1.memory.clock = acc.memory.clock ∧ (acc.maybe s work).2.KeepsClock := by
  unfold Stopped.maybe
  split
  · exact ⟨rfl, fun _ => rfl⟩
  · next change stage =>
    have hc := h _ rfl { s with answers := acc.answers }
    have hW : ∀ n, .clock n ∉ s.memory.uncredited.writesTo (change { s with answers := acc.answers }).memory.uncredited :=
      fun n hn => (mem_writesTo_clock.mp hn).1 hc.symm
    unfold Stopped.writer
    dsimp only
    split
    · exact ⟨rfl, fun _ => rfl⟩
    · split
      · exact ⟨rfl, fun _ => rfl⟩
      · next checkPasses written applied =>
        split
        · exact ⟨rfl, fun _ => rfl⟩
        · split
          · exact ⟨rfl, UpdateSlot.keepsClock_sealed hW _ _ _⟩
          · refine ⟨?_, UpdateSlot.keepsClock_sealed hW _ _ _⟩
            have hm := RecordMemory.clock_applyAll (m := acc.memory) (c := acc.memory.clock)
              ((s.memory.uncredited.writesTo (change { s with answers := acc.answers }).memory.uncredited).take written)
              (fun n hn => absurd (List.mem_of_mem_take hn) (hW n)) (.inl rfl)
            split <;> exact hm

theorem RecordMemory.clock_applyAll_congr (W : List RecordWrite) : ∀ {m m' : RecordMemory}, m.clock = m'.clock →
    (m.applyAll W).clock = (m'.applyAll W).clock := by
  induction W with
  | nil => exact fun h => h
  | cons w W ih =>
    intro m m' h
    refine ih (m := m.applyWrite w) (m' := m'.applyWrite w) ?_
    cases w with
    | clock n => rfl
    | _ => exact h

theorem RecordMemory.clock_rollSlot_congr (x : UpdateSlot) (h : m.clock = a.clock) :
    (m.rollSlot x).clock = (a.rollSlot x).clock := by
  cases x with
  | sealed W amounts applied checkPasses =>
    have hW := RecordMemory.clock_applyAll_congr W h
    cases checkPasses with
    | false => exact h
    | true => cases applied <;> exact hW
  | _ => exact h

/-- Of four writers stopped only the request path's can move the clock. -/
theorem State.clock_writersCut (s : State) (request : Option ((State → State) × Stage)) (cut : Interruption) :
    (s.writersCut request cut).memory.clock =
        (Stopped.maybe ⟨s.memory, [], s.answers⟩ s request).1.memory.clock ∧
      ∀ m : RecordMemory, (m.rollForward (s.writersCut request cut).slots).clock =
        (m.rollSlot (Stopped.maybe ⟨s.memory, [], s.answers⟩ s request).2).clock := by
  unfold State.writersCut
  dsimp only
  generalize Stopped.maybe ⟨s.memory, [], s.answers⟩ s request = a
  obtain ⟨hb, kb⟩ := a.1.clock_maybe s (work := cut.payout.map fun w => (fun t => t.payoutChange w.1, w.2)) fun w hw t => by
    obtain ⟨v, -, rfl⟩ := Option.map_eq_some_iff.mp hw
    exact t.clock_payoutChange v.1
  generalize a.1.maybe s (cut.payout.map fun w => (fun t => t.payoutChange w.1, w.2)) = b at hb kb ⊢
  obtain ⟨hc, kc⟩ := b.1.clock_maybe s (work := cut.sweep.map fun stage => (State.sweepChange, stage)) fun w hw t => by
    obtain ⟨v, -, rfl⟩ := Option.map_eq_some_iff.mp hw
    exact t.clock_sweepChange
  generalize b.1.maybe s (cut.sweep.map fun stage => (State.sweepChange, stage)) = c at hc kc ⊢
  obtain ⟨hd, kd⟩ := c.1.clock_maybe s (work := cut.expiry.map fun w => (fun t => t.expiryChange w.1, w.2)) fun w hw t => by
    obtain ⟨v, -, rfl⟩ := Option.map_eq_some_iff.mp hw
    exact t.clock_expiryChange v.1
  generalize c.1.maybe s (cut.expiry.map fun w => (fun t => t.expiryChange w.1, w.2)) = d at hd kd ⊢
  refine ⟨hd.trans (hc.trans hb), fun m => ?_⟩
  unfold RecordMemory.rollForward
  rw [kd, kc, kb]

/-- The clock that the slots of four writers stopped roll forward to. -/
theorem State.clock_roll_writersCut (s : State) (request : Option ((State → State) × Stage)) (cut : Interruption) :
    ((s.writersCut request cut).memory.rollForward (s.writersCut request cut).slots).clock =
      ((Stopped.maybe ⟨s.memory, [], s.answers⟩ s request).1.memory.rollSlot
        (Stopped.maybe ⟨s.memory, [], s.answers⟩ s request).2).clock := by
  obtain ⟨hm, hr⟩ := s.clock_writersCut request cut
  exact (hr _).trans (RecordMemory.clock_rollSlot_congr _ hm)

/-- The request path's writer stopped within its change: the clock after the change, or that before it. -/
theorem clock_roll_writer (answers : List Answer) (stage : Stage) :
    ((Stopped.writer ⟨s.memory, [], answers⟩ s u stage).1.memory.rollSlot
      (Stopped.writer ⟨s.memory, [], answers⟩ s u stage).2).clock = (afterStop s.memory u.memory stage).clock := by
  unfold Stopped.writer
  by_cases hsu : s = u
  · subst hsu
    rw [if_pos rfl]
    cases stage with
    | filling => rfl
    | sealed checkPasses written applied => cases checkPasses <;> rfl
  · rw [if_neg hsu]
    cases stage with
    | filling => rfl
    | sealed checkPasses written applied =>
      cases checkPasses with
      | false =>
        dsimp only
        rw [if_neg (by simp)]
        rfl
      | true =>
        dsimp only
        rw [if_neg (by simp), if_neg (by simp)]
        refine (congrArg RecordMemory.clock (RecordMemory.rollSlot_of_applied ..)).trans ?_
        exact (RecordMemory.clock_withFunds ..).trans (RecordMemory.clock_writesTo ..)

/-! ### The cold start (R194, R195) -/

/-- A start with retention lost, as the statement of O12 spells it. -/
def ColdFrom (s w : State) : Prop :=
  w.engine = .unformatted ∧ w.startCause = .cold ∧ w.retention = .lost ∧ w.memory.funds = Funds.zero ∧
    (∀ slot, w.memory.cardAt slot = none) ∧ w.inbound = [] ∧ w.answers = [] ∧ w.overrun = false ∧
    w.interruptEnable = false ∧ w.lastNumber = 0 ∧ w.waiting = [] ∧ w.referrals = [] ∧ w.slots = UpdateSlots.empty ∧
    w.pending = s.pending

theorem State.coldFrom_startCold (s : State) (reading : Nat) : ColdFrom s (s.startCold reading) :=
  ⟨rfl, rfl, rfl, rfl, fun slot => by cases slot <;> rfl, rfl, rfl, rfl, rfl, rfl, rfl, rfl, rfl, rfl⟩

variable {cut : Interruption}

/-- An engine reset that a stop leaves without a good indicator: a cold start with the clock the slots roll forward to. -/
theorem exec_engineReset_lost (hp : s.powered = true) (h : (s.interrupted cut).intact = false) (ties : List Nat) :
    ∃ v, exec (.engineReset true cut ties) s = .next v ∧ ColdFrom s v ∧
      v.memory.clock = ((s.interrupted cut).memory.rollForward (s.interrupted cut).slots).clock := by
  refine ⟨_, (exec_engineReset hp cut ties).trans (congrArg _ (State.resetEngine_lost h ties)), ?_, rfl⟩
  obtain ⟨memory, slots, retention, hcut, -⟩ := s.interrupted_frame cut
  rw [hcut]
  exact State.coldFrom_startCold ..

theorem State.intact_interrupted (h : s.intact = false) (cut : Interruption) : (s.interrupted cut).intact = false := by
  obtain ⟨memory, slots, retention, hcut, rfl | rfl⟩ := s.interrupted_frame cut <;> rw [hcut]
  · exact h
  · rfl

theorem State.intact_eq_false_iff (s : State) : s.intact = false ↔ s.retention = .lost ∨ s.indicatorCheck = false := by
  rw [← Bool.not_eq_true, s.intact_iff]
  cases s.retention <;> simp

theorem State.clock_interrupted_idle (h : cut.request = none) :
    ((s.interrupted cut).memory.rollForward (s.interrupted cut).slots).clock = s.memory.clock := by
  have hi : s.interrupted cut = s.writersCut none cut := by
    unfold State.interrupted
    rw [h]
    rfl
  rw [hi]
  exact s.clock_roll_writersCut none cut

/-- A request that is no FORMAT, stopped within its change: the clock that its slot rolls forward to. -/
theorem State.clock_interrupted_request {stage : Stage} (hf : s.formatting = none) (h : cut.request = some stage) :
    ((s.interrupted cut).memory.rollForward (s.interrupted cut).slots).clock =
      (afterStop s.memory s.nextRequest.memory stage).clock := by
  have hi : s.interrupted cut = s.writersCut (some (State.nextRequest, stage)) cut := by
    unfold State.interrupted
    rw [h, hf]
    rfl
  rw [hi]
  exact (s.clock_roll_writersCut _ cut).trans (clock_roll_writer ..)

theorem State.nextRequest_setClock {tag reading : Nat} (h : s.take (.setClock tag reading) = some t) :
    s.nextRequest.memory.clock = max s.memory.clock reading := by
  obtain ⟨-, -, -, m, rest, hin, hm, rfl⟩ := State.take_eq_some.mp h
  have hu := exec_request_taken (i := .setClock tag reading) rfl h
  rw [s.nextRequest_eq hin ((congrArg (exec · s) hm).trans hu)]
  show (setClockChange reading _).1.memory.clock = _
  unfold setClockChange
  split
  · next hr => exact (max_eq_left hr.le).symm
  · next hr => exact (max_eq_right (Nat.le_of_not_lt hr)).symm

/-- A FORMAT that is taken and stopped: the reading of its operand from its step 5 on, the indicator LOST. -/
theorem State.interrupted_format {tag day reading : Nat} {stage : Stage} (h : s.take (.format tag day reading) = some t)
    (he : t.engine ≠ .trading) (hc : cut.request = some stage) :
    s.interrupted cut = (s.writersCut none cut).formatCut reading stage := by
  obtain ⟨-, -, -, m, rest, hin, hm, ht⟩ := State.take_eq_some.mp h
  have hs : s.engine ≠ .trading := by
    rwa [ht] at he
  have hf : s.formatting = some reading := by
    unfold State.formatting
    rw [hin]
    dsimp only
    rw [hm]
    exact if_pos ⟨by rw [h]; rfl, hs⟩
  unfold State.interrupted
  rw [hc, hf]

/-- Settles O12: the changes of the other writers keep the clock, so it is the request path's slot, or the FORMAT, that
decides the reading. -/
theorem coldStartIsUnformatted : Obligations.ColdStartIsUnformatted := by
  refine ⟨fun s ties h => ⟨_, exec_powerOn_lost (s.intact_eq_false_iff.mpr h) ties, s.coldFrom_startCold 0, rfl⟩,
    fun s ties cut hp => ⟨fun h => ?_, fun t tag day reading ht he stage hc => ?_⟩⟩
  · obtain ⟨v, hv, hcold, hclock⟩ :=
      exec_engineReset_lost hp (State.intact_interrupted (s.intact_eq_false_iff.mpr h) cut) ties
    refine ⟨v, hv, hcold, fun hc => hclock.trans (State.clock_interrupted_idle hc),
      fun t tag reading ht stage hc => hclock.trans ?_⟩
    have hf : s.formatting = none := by
      obtain ⟨-, -, m, rest, hin, -, hm⟩ := State.take_port ht
      exact formatting_eq_none hin (by rw [hm]; nofun)
    rw [State.clock_interrupted_request hf hc]
    cases stage with
    | filling => rfl
    | sealed checkPasses written applied =>
      cases checkPasses with
      | false => rfl
      | true => exact State.nextRequest_setClock ht
  · have hi := State.interrupted_format ht he hc
    obtain ⟨v, hv, hcold, hclock⟩ := exec_engineReset_lost hp (cut := cut) (by rw [hi]; rfl) ties
    refine ⟨v, hv, hcold, hclock.trans ?_⟩
    rw [hi]
    obtain ⟨hm, hr⟩ := s.clock_writersCut none cut
    refine (hr _).trans ?_
    unfold State.formatCut
    split
    · exact hm
    · rfl

end Sys2Proof.Machine
end

section
/-! A start with retention intact: the runs, the watch entries, the cards and the waiting list as the recovery leaves them
(R194, with R51, R128, R140, R172 and R183). -/

namespace Sys2Proof.Machine

variable {s : State} {m : RecordMemory}

/-! ### Hold expiries leave the runs and the referral flags -/

theorem RecordMemory.descriptors_freeHold (m : RecordMemory) (n : Nat) (x : HoldRecord) (cause : EndCause) :
    (m.freeHold n x cause).descriptors = m.descriptors := by
  unfold RecordMemory.freeHold
  dsimp only
  split <;> rfl

theorem RecordMemory.descriptors_expireHold (m : RecordMemory) (n : Nat) (x : HoldRecord) :
    (m.expireHold n x).descriptors = m.descriptors := by
  unfold RecordMemory.expireHold
  split
  · exact (RecordMemory.putCard_descriptors ..).trans (RecordMemory.descriptors_freeHold ..)
  · rfl

/-- No card has its referral-open flag set. -/
def RecordMemory.Unreferred (m : RecordMemory) : Prop := ∀ slot c, m.cardAt slot = some c → c.referralOpen = false

theorem RecordMemory.Unreferred.expireHold (h : m.Unreferred) (n : Nat) (x : HoldRecord) : (m.expireHold n x).Unreferred := by
  unfold RecordMemory.expireHold
  split
  · next slot c hf =>
    have hc := h slot c (RecordMemory.findCard_spec hf).2.1
    intro y d hd
    unfold RecordMemory.giveBack RecordMemory.commit at hd
    dsimp only at hd
    rw [RecordMemory.cardAt_putCard] at hd
    split at hd
    · cases hd
      exact (sweepCard_frame m.today c).2.1.trans hc
    · rw [RecordMemory.freeHold_cardAt] at hd
      exact h y d (by cases y <;> exact hd)
  · exact h

theorem RecordMemory.expireDue_keeps {P : RecordMemory → Prop} (hP : ∀ {m} n x, P m → P (RecordMemory.expireHold m n x))
    (ties : List Nat) (fuel : Nat) : ∀ {m : RecordMemory}, P m → P (m.expireDue ties fuel) := by
  induction fuel with
  | zero => exact fun h => h
  | succ fuel ih =>
    intro m h
    unfold RecordMemory.expireDue
    split
    · exact ih (hP _ _ h)
    · exact h

/-! ### The recovered memory -/

theorem RecordMemory.unreferred_recovered (m : RecordMemory) (ties : List Nat) : (m.recovered ties).Unreferred := by
  refine RecordMemory.expireDue_keeps (fun n x h => h.expireHold n x) ties _ fun slot c hc => ?_
  have hm : (m.mapCards clearReferralOpen).cardAt slot = some c := by cases slot <;> exact hc
  rw [RecordMemory.cardAt_mapCards] at hm
  obtain ⟨d, -, rfl⟩ := Option.map_eq_some_iff.mp hm
  rfl

theorem RecordMemory.descriptors_recovered (m : RecordMemory) (ties : List Nat) :
    (m.recovered ties).descriptors = m.descriptors.update Descriptor.idle Descriptor.recovered := by
  refine RecordMemory.expireDue_keeps
    (P := fun x => x.descriptors = m.descriptors.update Descriptor.idle Descriptor.recovered) ?_ ties _ rfl
  exact fun n x h => (RecordMemory.descriptors_expireHold ..).trans h

theorem Descriptor.recovered_state (d : Descriptor) : d.recovered.state ≠ .running ∧ d.recovered.state ≠ .waiting := by
  unfold Descriptor.recovered
  dsimp only
  split
  · exact ⟨nofun, nofun⟩
  · next h => exact not_or.mp h

theorem RecordMemory.recovered_descriptor (m : RecordMemory) (ties : List Nat) (i : Nat) :
    ((m.recovered ties).descriptor i).state ≠ .running ∧ ((m.recovered ties).descriptor i).state ≠ .waiting ∧
      ((m.recovered ties).descriptor i).credit = 0 := by
  unfold RecordMemory.descriptor
  rw [m.descriptors_recovered ties]
  rcases Table.get_update_cases Descriptor.idle Descriptor.recovered m.descriptors i with h | ⟨d, h⟩ <;> rw [h]
  · exact ⟨nofun, nofun, rfl⟩
  · exact ⟨d.recovered_state.1, d.recovered_state.2, rfl⟩

/-- Settles O13: the recovered memory's runs, watch entries and cards, and a reset between changes as a power-on. -/
theorem recoveryRestartsInSetup : Obligations.RecoveryRestartsInSetup := by
  intro s ties hv hc
  have hi : s.intact = true := s.intact_iff.mpr ⟨hv, hc⟩
  have hon := exec_powerOn_intact hi ties
  refine ⟨⟨s.recover ties, hon, rfl, rfl, rfl, hv, rfl, rfl, rfl, rfl, rfl, rfl, rfl, rfl, rfl, rfl, rfl,
    RecordMemory.recovered_descriptor _ ties, RecordMemory.recovered_watchEntry _ ties,
    RecordMemory.unreferred_recovered _ ties⟩, fun hp hs => ?_, fun hp cut => ?_⟩
  · have hb : s.interrupted ⟨none, none, none, none⟩ = s := by
      refine s.interrupted_between.trans ?_
      rw [← hs]
    rw [exec_engineReset hp, State.resetEngine_intact (by rw [hb]; exact hi), hb, hon]
  · exact if_pos hp

end Sys2Proof.Machine
end

section
/-! The bytes of messages and answers (R197, 11.8): what a packed field reads, by its offset, and every request read back from
the message that spells it (R187, R198, R199). -/

namespace Sys2Proof

variable {fs gs : List (Nat × Nat)} {o k n v : Nat}

/-! ### Numbers as bytes -/

@[simp] theorem length_writeLE (size n : Nat) : (writeLE size n).length = size := by
  induction size generalizing n with
  | zero => rfl
  | succ size ih => rw [writeLE, List.length_cons, ih]

theorem readLE_writeLE {size : Nat} (h : n < 256 ^ size) : readLE (writeLE size n) = n := by
  induction size generalizing n with
  | zero =>
    rw [Nat.pow_zero] at h
    exact (Nat.lt_one_iff.mp h).symm
  | succ size ih =>
    have hq : n / 256 < 256 ^ size := Nat.div_lt_of_lt_mul (by rwa [Nat.pow_succ', ] at h)
    rw [writeLE, readLE, ih hq, BitVec.toNat_ofNat]
    omega

theorem getD_writeLE {size j : Nat} (h : j < size) (n : Nat) : (writeLE size n).getD j 0 = BitVec.ofNat 8 (n / 256 ^ j) := by
  induction size generalizing n j with
  | zero => cases h
  | succ size ih =>
    cases j with
    | zero => simp [writeLE]
    | succ j =>
      rw [writeLE, List.getD_cons_succ, ih (Nat.lt_of_succ_lt_succ h), Nat.div_div_eq_div_mul, Nat.pow_succ']

/-! ### Packed fields -/

/-- The packed field that begins at an offset and has a size. -/
def fieldAt (o k : Nat) : List (Nat × Nat) → Option Nat
  | [] => none
  | f :: fs => if o = 0 then (if f.1 = k then some f.2 else none) else if f.1 ≤ o then fieldAt (o - f.1) k fs else none

theorem pack_cons (f : Nat × Nat) (fs : List (Nat × Nat)) : pack (f :: fs) = writeLE f.1 f.2 ++ pack fs := rfl

theorem length_pack (fs : List (Nat × Nat)) : (pack fs).length = (fs.map Prod.fst).sum := by
  induction fs with
  | nil => rfl
  | cons f fs ih => simp [pack_cons, ih]

theorem length_padMessage (h : (fs.map Prod.fst).sum ≤ 128) : (padMessage (pack fs)).length = 128 := by
  rw [padMessage, List.length_append, List.length_replicate, length_pack]
  omega

/-- Bytes that begin with a field. -/
theorem field_append_here (h : v < 256 ^ k) (bytes : List Byte) : field (writeLE k v ++ bytes) 0 k = v := by
  rw [field, List.drop_zero, List.take_left' (length_writeLE k v), readLE_writeLE h]

theorem field_append_skip {bytes : List Byte} (h : bytes.length ≤ o) (rest : List Byte) (k : Nat) :
    field (bytes ++ rest) o k = field rest (o - bytes.length) k := by
  rw [field, field, List.drop_append, List.drop_eq_nil_of_le h, List.nil_append]

/-- What a packed field reads as a number. -/
theorem field_pack (tail : List Byte) (hfit : fieldsFit fs = true) (h : fieldAt o k fs = some v) :
    field (pack fs ++ tail) o k = v := by
  induction fs generalizing o with
  | nil => cases h
  | cons f fs ih =>
    obtain ⟨hf, hfs⟩ := (Bool.and_eq_true _ _).mp hfit
    rw [pack_cons, List.append_assoc]
    unfold fieldAt at h
    split at h
    · next ho =>
      split at h
      · next hk =>
        cases h
        subst ho hk
        exact field_append_here (of_decide_eq_true hf) _
      · cases h
    · split at h
      · next hle =>
        rw [field_append_skip (by rwa [length_writeLE]), length_writeLE]
        exact ih hfs h
      · cases h

/-- What a packed field reads byte by byte. -/
theorem getD_pack {j : Nat} (h : fieldAt o k fs = some v) (hj : j < k) :
    (pack fs).getD (o + j) 0 = BitVec.ofNat 8 (v / 256 ^ j) := by
  induction fs generalizing o with
  | nil => cases h
  | cons f fs ih =>
    rw [pack_cons]
    unfold fieldAt at h
    split at h
    · next ho =>
      split at h
      · next hk =>
        cases h
        subst ho hk
        rw [Nat.zero_add, List.getD_append _ _ _ _ (by rwa [length_writeLE]), getD_writeLE hj]
      · cases h
    · split at h
      · next hle =>
        rw [List.getD_append_right _ _ _ _ (by rw [length_writeLE]; omega), length_writeLE, Nat.sub_add_comm hle]
        exact ih h
      · cases h

theorem getD_pack_beyond (h : (fs.map Prod.fst).sum ≤ o) : (pack fs).getD o 0 = 0 :=
  List.getD_eq_default _ _ (by rwa [length_pack])

/-! ### Messages read field by field -/

/-- What the fields of a packed message read, by offset and size: the packed value where one lies. -/
def packedField (fs : List (Nat × Nat)) (o k : Nat) : Nat := (fieldAt o k fs).getD (field (padMessage (pack fs)) o k)

theorem field_message (hfit : fieldsFit fs = true) : field (padMessage (pack fs)) = packedField fs := by
  funext o k
  unfold packedField
  cases h : fieldAt o k fs with
  | none => rfl
  | some v => exact field_pack _ hfit h

/-- A message whose length is the one its code requires is read as a request of its code. -/
theorem readMessage_fixed {code length : Nat} (hfit : fieldsFit fs = true) (h0 : fieldAt 0 2 fs = some code)
    (h2 : fieldAt 2 2 fs = some length) (hlen : fixedLength code = some length) :
    readMessage (padMessage (pack fs)) = readFixed (padMessage (pack fs)) code := by
  have hcode : field (padMessage (pack fs)) 0 2 = code := field_pack _ hfit h0
  have hlength : field (padMessage (pack fs)) 2 2 = length := field_pack _ hfit h2
  unfold readMessage
  dsimp only
  rw [hcode, hlength, if_neg, if_neg, if_pos hlen]
  · rintro rfl
    cases hlen
  · rintro rfl
    cases hlen


/-! ### Requests of fixed length read back -/

/-- A request reads back from the message that packs its fields. -/
def Instr.ReadsBack (i : Instr) : Prop :=
  ∀ fs, i.fields = some fs → fieldsFit fs = true →
    (padMessage (pack fs)).length = 128 ∧ readMessage (padMessage (pack fs)) = i

theorem readsBack_fixed {i : Instr} {code length : Nat} (hfs : i.fields = some fs) (hsum : (fs.map Prod.fst).sum ≤ 128)
    (h0 : fieldAt 0 2 fs = some code) (h2 : fieldAt 2 2 fs = some length) (hlen : fixedLength code = some length)
    (h : field (padMessage (pack fs)) = packedField fs → readFixed (padMessage (pack fs)) code = i) : i.ReadsBack := by
  intro gs hgs hfit
  cases hfs.symm.trans hgs
  exact ⟨length_padMessage hsum, (readMessage_fixed hfit h0 h2 hlen).trans (h (field_message hfit))⟩


theorem readsBack_defineWatch (tag entry : Nat) (w : WatchOperands) : (Instr.defineWatch tag entry w).ReadsBack := by
  have hfs : (Instr.defineWatch tag entry w).fields = some [(2, 42), (2, 48), (4, tag), (1, entry), (1, w.action),
      (1, w.mode), (1, w.enable), (4, w.window), (1, w.level1.product), (1, w.level1.productInvert),
      (1, w.level1.category), (1, w.level1.categoryInvert), (1, w.level1.anyMerchant), (1, w.level1.merchantInvert),
      (1, w.level1.relation), (1, 0), (4, w.level1.merchant), (4, w.level1.threshold), (1, w.level2.product),
      (1, w.level2.productInvert), (1, w.level2.category), (1, w.level2.categoryInvert), (1, w.level2.anyMerchant),
      (1, w.level2.merchantInvert), (1, w.level2.relation), (1, 0), (4, w.level2.merchant), (4, w.level2.threshold)] := rfl
  refine readsBack_fixed hfs (by simp) rfl rfl rfl fun h => ?_
  simp only [readFixed, readWatch, readCondition, h]
  rfl

/-- Every request but BAD_CODE, TENDER and REFUND. -/
theorem readsBack_of_fixedLength {i : Instr} (hbad : ∀ code length tag, i ≠ .badCode code length tag)
    (htender : ∀ tag merchant amount settle count members, i ≠ .tender tag merchant amount settle count members)
    (hrefund : ∀ tag card merchant paid count parts, i ≠ .refund tag card merchant paid count parts) : i.ReadsBack := by
  cases i with
  | badCode => exact absurd rfl (hbad _ _ _)
  | tender => exact absurd rfl (htender _ _ _ _ _ _)
  | refund => exact absurd rfl (hrefund _ _ _ _ _ _)
  | defineWatch tag entry w => exact readsBack_defineWatch tag entry w
  | postWord | overrunFlag | releaseWord | interruptEnable | engineReset | windowWrite | powerOn | linkReset | clockTick
  | holdExpiry | lapse | windowExpiry | turn | descriptorService | lapseNotice | sweepStep | sweepEnd | powerLoss =>
    exact fun _ h => nomatch h
  | _ =>
    refine readsBack_fixed rfl (by simp) rfl rfl rfl fun h => ?_
    simp only [readFixed, readProduct, h]
    rfl

/-! ### Lists of entries of one size -/

section entries
variable {α : Type} {g : α → List (Nat × Nat)} {w : Nat} {l : List α}

theorem fieldAt_append (hpos : ∀ f ∈ gs, 0 < f.1) (o k : Nat) (fs : List (Nat × Nat)) :
    fieldAt ((gs.map Prod.fst).sum + o) k (gs ++ fs) = fieldAt o k fs := by
  induction gs with
  | nil => simp
  | cons f gs ih =>
    have hf := hpos f List.mem_cons_self
    rw [List.cons_append, fieldAt, List.map_cons, List.sum_cons, if_neg (by omega), if_pos (by omega),
      show f.1 + (gs.map Prod.fst).sum + o - f.1 = (gs.map Prod.fst).sum + o by omega]
    exact ih fun e he => hpos e (List.mem_cons_of_mem _ he)

theorem sum_flatMap (hw : ∀ a, ((g a).map Prod.fst).sum = w) (l : List α) :
    ((l.flatMap g).map Prod.fst).sum = w * l.length := by
  induction l with
  | nil => rfl
  | cons a l ih => rw [List.flatMap_cons, List.map_append, List.sum_append, ih, hw, List.length_cons]; ring

theorem fieldAt_flatMap (hw : ∀ a, ((g a).map Prod.fst).sum = w) (hpos : ∀ a, ∀ f ∈ g a, 0 < f.1) {a : α}
    (h : l[n]? = some a) (o k : Nat) : ∃ rest, fieldAt (w * n + o) k (l.flatMap g) = fieldAt o k (g a ++ rest) := by
  induction l generalizing n with
  | nil => cases h
  | cons b l ih =>
    cases n with
    | zero =>
      cases h
      exact ⟨l.flatMap g, by rw [Nat.mul_zero, Nat.zero_add, List.flatMap_cons]⟩
    | succ n =>
      obtain ⟨rest, hr⟩ := ih h
      refine ⟨rest, ?_⟩
      rw [List.flatMap_cons, ← hr, ← fieldAt_append (hpos b) (w * n + o), hw, Nat.mul_succ]
      congr 1
      omega

/-- A field of an entry of a list that follows the header `gs`. -/
theorem packedField_entry {s q v : Nat} (hs : (gs.map Prod.fst).sum = s) (hgs : ∀ f ∈ gs, 0 < f.1)
    (hw : ∀ a, ((g a).map Prod.fst).sum = w) (hpos : ∀ a, ∀ f ∈ g a, 0 < f.1) {a : α} (h : l[n]? = some a)
    (hq : q = s + (w * n + o)) (hv : ∀ rest, fieldAt o k (g a ++ rest) = some v) :
    packedField (gs ++ l.flatMap g) q k = v := by
  obtain ⟨rest, hr⟩ := fieldAt_flatMap hw hpos h o k
  rw [packedField, hq, ← hs, fieldAt_append hgs, hr, hv rest, Option.getD_some]

theorem map_range_eq {f : Nat → α} (h : ∀ n a, l[n]? = some a → f n = a) : (List.range l.length).map f = l := by
  refine List.ext_getElem (by simp) fun n h1 h2 => ?_
  rw [List.getElem_map, List.getElem_range]
  exact h n _ (List.getElem?_eq_getElem h2)

end entries

/-! ### TENDER, REFUND, and messages that are no request -/

theorem sum_memberFields (p : MemberOperands) : ((memberFields p).map Prod.fst).sum = 12 := rfl

theorem sum_partFields (p : PartOperands) : ((partFields p).map Prod.fst).sum = 8 := rfl

theorem memberFields_pos (p : MemberOperands) : ∀ f ∈ memberFields p, 0 < f.1 := by
  simp [memberFields]

theorem partFields_pos (p : PartOperands) : ∀ f ∈ partFields p, 0 < f.1 := by
  simp [partFields]

/-- The fields of a TENDER before its members. -/
def tenderHeader (tag merchant amount settle count : Nat) : List (Nat × Nat) :=
  [(2, 21), (2, 20 + 12 * count), (4, tag), (4, merchant), (4, amount), (1, settle), (1, count), (2, 0)]

/-- The fields of a REFUND before its parts. -/
def refundHeader (tag card merchant paid count : Nat) : List (Nat × Nat) :=
  [(2, 22), (2, 28 + 8 * count), (4, tag), (8, card), (4, merchant), (4, paid), (1, count), (3, 0)]

theorem readMember_packed {m : Message} {tag merchant amount settle count : Nat} {members : List MemberOperands}
    (hm : field m = packedField (tenderHeader tag merchant amount settle count ++ members.flatMap memberFields))
    {p : MemberOperands} (h : members[n]? = some p) : readMember m n = p := by
  have entry : ∀ {q o k v}, q = 20 + (12 * n + o) → (∀ rest, fieldAt o k (memberFields p ++ rest) = some v) →
      field m q k = v := fun hq hv => by
    rw [hm]
    exact packedField_entry rfl (by simp [tenderHeader]) sum_memberFields memberFields_pos h hq hv
  have hcard : field m (20 + 12 * n) 8 = p.card := entry (o := 0) rfl fun _ => rfl
  have hcondition : field m (28 + 12 * n) 1 = p.condition := entry (o := 8) (by omega) fun _ => rfl
  have hselector : field m (29 + 12 * n) 1 = p.selector := entry (o := 9) (by omega) fun _ => rfl
  have hsponsor : field m (30 + 12 * n) 1 = p.sponsor := entry (o := 10) (by omega) fun _ => rfl
  rw [readMember, hcard, hcondition, hselector, hsponsor]

theorem readPart_packed {m : Message} {tag card merchant paid count : Nat} {parts : List PartOperands}
    (hm : field m = packedField (refundHeader tag card merchant paid count ++ parts.flatMap partFields))
    {p : PartOperands} (h : parts[n]? = some p) : readPart m n = p := by
  have entry : ∀ {q o k v}, q = 28 + (8 * n + o) → (∀ rest, fieldAt o k (partFields p ++ rest) = some v) →
      field m q k = v := fun hq hv => by
    rw [hm]
    exact packedField_entry rfl (by simp [refundHeader]) sum_partFields partFields_pos h hq hv
  have hsponsor : field m (28 + 8 * n) 1 = p.sponsor := entry (o := 0) rfl fun _ => rfl
  have hamount : field m (32 + 8 * n) 4 = p.amount := entry (o := 4) (by omega) fun _ => rfl
  rw [readPart, hsponsor, hamount]

theorem countAgrees_iff {least most count entries : Nat} : countAgrees least most count entries = true ↔
    (least ≤ count ∧ count ≤ most → entries = count) ∧ (¬ (least ≤ count ∧ count ≤ most) → entries = 0) := by
  unfold countAgrees
  split <;> simp [*]

theorem readsBack_tender {tag merchant amount settle count : Nat} {members : List MemberOperands}
    (h : countAgrees 1 6 count members.length = true) :
    (Instr.tender tag merchant amount settle count members).ReadsBack := by
  intro fs hfs hfit
  obtain ⟨hin, hout⟩ := countAgrees_iff.mp h
  obtain rfl : fs = tenderHeader tag merchant amount settle count ++ members.flatMap memberFields :=
    (Option.some.inj hfs).symm
  have hf := field_message hfit
  refine ⟨length_padMessage ?_, ?_⟩
  · rw [List.map_append, List.sum_append, sum_flatMap sum_memberFields]
    show 20 + _ ≤ 128
    omega
  · generalize padMessage (pack _) = m at hf
    unfold readMessage
    have hcode : field m 0 2 = 21 := congrFun (congrFun hf 0) 2
    have hlength : field m 2 2 = 20 + 12 * count := congrFun (congrFun hf 2) 2
    have hcount : field m 17 1 = count := congrFun (congrFun hf 17) 1
    dsimp only
    rw [if_pos hcode, hlength, hcount, if_pos rfl, hf]
    split
    · next hc =>
      rw [← hin hc, map_range_eq fun n p hp => readMember_packed hf hp]
      rfl
    · next hc =>
      rw [List.length_eq_zero_iff.mp (hout hc)]
      rfl

theorem readsBack_refund {tag card merchant paid count : Nat} {parts : List PartOperands}
    (h : countAgrees 0 4 count parts.length = true) :
    (Instr.refund tag card merchant paid count parts).ReadsBack := by
  intro fs hfs hfit
  obtain ⟨hin, hout⟩ := countAgrees_iff.mp h
  obtain rfl : fs = refundHeader tag card merchant paid count ++ parts.flatMap partFields :=
    (Option.some.inj hfs).symm
  have hf := field_message hfit
  refine ⟨length_padMessage ?_, ?_⟩
  · rw [List.map_append, List.sum_append, sum_flatMap sum_partFields]
    show 28 + _ ≤ 128
    omega
  · generalize padMessage (pack _) = m at hf
    unfold readMessage
    have hcode : field m 0 2 = 22 := congrFun (congrFun hf 0) 2
    have hlength : field m 2 2 = 28 + 8 * count := congrFun (congrFun hf 2) 2
    have hcount : field m 24 1 = count := congrFun (congrFun hf 24) 1
    dsimp only
    rw [if_neg (by rw [hcode]; decide), if_pos hcode, hlength, hcount, if_pos rfl, hf]
    split
    · next hc =>
      rw [← hin ⟨Nat.zero_le _, hc⟩, map_range_eq fun n p hp => readPart_packed hf hp]
      rfl
    · next hc =>
      rw [List.length_eq_zero_iff.mp (hout fun h => hc h.2)]
      rfl

/-- The fields of a message that is no request: a header, and the count that no list of its length has. -/
def badFields (code length tag : Nat) : List (Nat × Nat) :=
  [(2, code), (2, length), (4, tag)] ++
    (if code = 21 then [(9, 0), (1, if length = 32 then 2 else 1)]
     else if code = 22 then [(16, 0), (1, if length = 28 then 1 else 0)] else [])

theorem fieldsFit_badFields {code length tag : Nat} (hcode : fits 2 code = true) (hlength : fits 2 length = true)
    (htag : fits 4 tag = true) : fieldsFit (badFields code length tag) = true := by
  have hbody : fieldsFit (if code = 21 then [(9, 0), (1, if length = 32 then 2 else 1)]
      else if code = 22 then [(16, 0), (1, if length = 28 then 1 else 0)] else []) = true := by
    split
    · split <;> decide
    · split
      · split <;> decide
      · rfl
  simp only [fieldsFit, List.all_append, badFields, Bool.and_eq_true] at hbody ⊢
  exact ⟨by simp [hcode, hlength, htag], hbody⟩

theorem sum_badFields (code length tag : Nat) : ((badFields code length tag).map Prod.fst).sum ≤ 128 := by
  unfold badFields
  split
  · simp
  · split <;> simp

theorem readMessage_badCode {m : Message} {code length tag : Nat} (hf : field m = packedField (badFields code length tag))
    (hlen : fixedLength code ≠ some length) : readMessage m = .badCode code length tag := by
  have hcode : field m 0 2 = code := congrFun (congrFun hf 0) 2
  have hlength : field m 2 2 = length := congrFun (congrFun hf 2) 2
  have htag : field m 4 4 = tag := congrFun (congrFun hf 4) 4
  unfold readMessage
  dsimp only
  rw [hcode, hlength, htag]
  by_cases h21 : code = 21
  · subst h21
    have hcount : field m 17 1 = if length = 32 then 2 else 1 := congrFun (congrFun hf 17) 1
    rw [if_pos rfl, hcount, if_pos (by split <;> decide), if_neg (by split <;> omega)]
  · rw [if_neg h21]
    by_cases h22 : code = 22
    · subst h22
      have hcount : field m 24 1 = if length = 28 then 1 else 0 := congrFun (congrFun hf 24) 1
      rw [if_pos rfl, hcount, if_pos (by split <;> decide), if_neg (by split <;> omega)]
    · rw [if_neg h22, if_neg hlen]

theorem readsBack_badCode {code length tag : Nat} (hlen : fixedLength code ≠ some length) :
    (Instr.badCode code length tag).ReadsBack := by
  intro fs hfs hfit
  obtain rfl : fs = badFields code length tag := (Option.some.inj hfs).symm
  exact ⟨length_padMessage (sum_badFields code length tag), readMessage_badCode (field_message hfit) hlen⟩

/-! ### Every request -/

theorem fieldsFit_of_wellFormed {i : Instr} (hfs : i.fields = some fs) (hw : i.wellFormed = true) :
    fieldsFit fs = true := by
  have hfit : ∀ {b : Bool}, (b && (i.fields.map fieldsFit).getD true) = true → fieldsFit fs = true := fun h => by
    rw [hfs] at h
    exact ((Bool.and_eq_true _ _).mp h).2
  cases i with
  | badCode code length tag =>
    simp only [Instr.wellFormed, Bool.and_eq_true] at hw
    obtain ⟨⟨⟨hcode, hlength⟩, htag⟩, -⟩ := hw
    obtain rfl : fs = badFields code length tag := (Option.some.inj hfs).symm
    exact fieldsFit_badFields hcode hlength htag
  | postWord | overrunFlag | releaseWord | interruptEnable | engineReset | windowWrite | powerOn | linkReset | clockTick
  | holdExpiry | lapse | windowExpiry | turn | descriptorService | lapseNotice | sweepStep | sweepEnd | powerLoss => cases hfs
  | tender => exact hfit hw
  | refund => exact hfit hw
  | _ => exact hfit (b := true) hw

theorem readsBack_of_wellFormed {i : Instr} (hw : i.wellFormed = true) : i.ReadsBack := by
  cases i with
  | badCode code length tag =>
    simp only [Instr.wellFormed, Bool.and_eq_true, decide_eq_true_eq] at hw
    exact readsBack_badCode hw.2
  | tender tag merchant amount settle count members => exact readsBack_tender ((Bool.and_eq_true _ _).mp hw).1
  | refund tag card merchant paid count parts => exact readsBack_refund ((Bool.and_eq_true _ _).mp hw).1
  | _ => exact readsBack_of_fixedLength nofun nofun nofun

/-- Settles O60: each packed field is read where it lies, and a TENDER's and REFUND's list entry by entry. -/
theorem requestsReadBackFromTheirMessages : Obligations.RequestsReadBackFromTheirMessages := by
  intro i m hw hm
  obtain ⟨fs, hfs, rfl⟩ := Option.map_eq_some_iff.mp hm
  exact readsBack_of_wellFormed hw fs hfs (fieldsFit_of_wellFormed hfs hw)

end Sys2Proof
end

section
/-! The memory window (R197): what a write reaches, and what the named bytes and bits read. -/

namespace Sys2Proof.Machine

variable {s : State}

/-! ### Writes -/

theorem State.storePost_frame (offset : Nat) (bytes : List Byte) (s : State) :
    s.storePost offset bytes = { s with postArea := (s.storePost offset bytes).postArea } ∧
      (s.storePost offset bytes).postArea.length = s.postArea.length := by
  induction bytes generalizing offset s with
  | nil => exact ⟨rfl, rfl⟩
  | cons b bytes ih =>
    obtain ⟨hs, hl⟩ := ih (offset + 1) { s with postArea := s.postArea.set offset b }
    exact ⟨hs, hl.trans List.length_set⟩

/-- Bytes stored one after the other from an offset on. -/
theorem State.postArea_storePost (offset : Nat) (bytes : List Byte) (s : State) {k : Nat} (hk : k < s.postArea.length) :
    (s.storePost offset bytes).postArea.getD k 0 =
      if offset ≤ k ∧ k < offset + bytes.length then bytes.getD (k - offset) 0 else s.postArea.getD k 0 := by
  induction bytes generalizing offset s with
  | nil => exact (if_neg (by rintro ⟨h1, h2⟩; exact absurd h2 (Nat.not_lt.mpr h1))).symm
  | cons b bytes ih =>
    refine (ih (offset + 1) { s with postArea := s.postArea.set offset b } (by rwa [List.length_set])).trans ?_
    by_cases ho : k = offset
    · subst ho
      rw [if_neg (by omega), if_pos (by simp), Nat.sub_self]
      simp [hk]
    · have hlen : (b :: bytes).length = bytes.length + 1 := rfl
      by_cases hin : offset + 1 ≤ k ∧ k < offset + 1 + bytes.length
      · rw [if_pos hin, if_pos (by omega), show k - offset = k - (offset + 1) + 1 by omega, List.getD_cons_succ]
      · rw [if_neg hin, if_neg (by omega)]
        simp [List.getElem?_set_ne (Ne.symm ho)]

/-- Bytes stored past the post area fall on read-only words. -/
theorem State.storePost_beyond (bytes : List Byte) {offset : Nat} (h : s.postArea.length ≤ offset) :
    s.storePost offset bytes = s := by
  induction bytes generalizing offset with
  | nil => rfl
  | cons b bytes ih =>
    have hset : s.postArea.set offset b = s.postArea := List.set_eq_of_length_le h
    show State.storePost { s with postArea := s.postArea.set offset b } (offset + 1) bytes = s
    rw [hset]
    exact ih (by omega)

theorem execWindowWrite_within (hp : s.powered = true) {offset : Nat} (ho : offset + 4 ≤ 0x11C) (value : Nat) :
    exec (.windowWrite offset value) s = .next (s.writeWindow offset value) := by
  show execWindowWrite offset value s = _
  rw [execWindowWrite, if_neg (by omega), whenPowered, if_pos hp]

theorem State.writeWindow_store {offset : Nat} (ho : offset < 0x108 ∨ 0x118 ≤ offset) (value : Nat) :
    s.writeWindow offset value = s.storePost offset (writeLE 4 value) := by
  unfold State.writeWindow
  rw [if_neg (by omega), if_neg (by omega), if_neg (by omega), if_neg (by omega)]

theorem State.writeWindow_control (s : State) (value : Nat) : s.writeWindow 0x10C value = s.writeControl value := rfl

theorem State.writeWindow_control_enable (s : State) {value : Nat} (h : value.testBit 1 = false) :
    s.writeWindow 0x10C value = s.setEnable (value.testBit 0) := by
  rw [State.writeWindow_control, State.writeControl, h]
  rfl

theorem State.writeWindow_control_reset (s : State) {value : Nat} (h : value.testBit 1 = true) :
    s.writeWindow 0x10C value = (s.setEnable (value.testBit 0)).resetEngine Interruption.between [] := by
  rw [State.writeWindow_control, State.writeControl, h]
  rfl

/-- Settles O6: four bytes stored in the post area, one of the four control words, or nothing. -/
theorem windowWriteReachesItsWord : Obligations.WindowWriteReachesItsWord := by
  intro s offset value hp
  refine ⟨fun ho => ?_, ?_, fun hb => ?_, fun hb => ?_, ?_, ?_, fun hl h1 h2 => ?_, fun hl => ?_, fun ho => if_pos ho⟩
  · obtain ⟨hframe, hlength⟩ := s.storePost_frame offset (writeLE 4 value)
    refine ⟨s.storePost offset (writeLE 4 value), ?_, hframe, hlength, fun k hk => ?_⟩
    · rw [execWindowWrite_within hp (by omega), State.writeWindow_store (by omega)]
    · rw [s.postArea_storePost offset _ hk, length_writeLE]
      split
      · exact getD_writeLE (by omega) value
      · rfl
  · rw [execWindowWrite_within hp (by omega)]
    exact (if_pos hp).symm
  · rw [execWindowWrite_within hp (by omega), s.writeWindow_control_enable hb]
    exact (if_pos hp).symm
  · rw [execWindowWrite_within hp (by omega), s.writeWindow_control_reset hb]
    exact (exec_engineReset (s := s.setEnable (value.testBit 0)) hp _ _).symm
  · rw [execWindowWrite_within hp (by omega)]
    exact (if_pos hp).symm
  · rw [execWindowWrite_within hp (by omega)]
    exact (if_pos hp).symm
  · rw [execWindowWrite_within hp (by omega), State.writeWindow_store (by omega), State.storePost_beyond _ (by omega)]
  · rw [execWindowWrite_within hp (by omega), State.writeWindow_store (by omega), State.storePost_beyond _ (by omega)]

/-! ### Reads: the status words -/

/-- Bytes of the window from an offset on read a number, least significant first. -/
def State.Shows (s : State) (offset size value : Nat) : Prop :=
  ∀ j, j < size → s.readByte (offset + j) = some (BitVec.ofNat 8 (value / 256 ^ j))

/-- The status words' fields, which `statusBytes` packs. -/
def State.statusFields (s : State) : List (Nat × Nat) :=
  [(1, s.engine.code), (1, s.startCause.code), (1, s.retention.code), (1, s.waiting.length),
    (1, s.inbound.length), (1, s.answers.length), (1, bitValue s.burstHeld 0), (1, 0),
    (4, bitValue s.overrun 0), (4, bitValue s.interruptEnable 0), (4, 0), (4, 0), (4, s.lastNumber)]

theorem State.readByte_post {k : Nat} (h : k < 0x80) : s.readByte k = some (s.postArea.getD k 0) :=
  if_pos h

theorem State.readByte_status {o : Nat} (h : o < 28) :
    s.readByte (0x100 + o) = some ((pack s.statusFields).getD o 0) := by
  unfold State.readByte
  rw [if_neg (by omega), if_neg (by omega), if_pos (by omega), Nat.add_sub_cancel_left]
  rfl

theorem State.shows_status (s : State) {q o k v : Nat} (hq : q = 0x100 + o) (hk : o + k ≤ 28)
    (h : fieldAt o k s.statusFields = some v) : s.Shows q k v := fun j hj => by
  rw [hq, Nat.add_assoc, State.readByte_status (by omega), getD_pack h hj]

theorem getLsbD_bitValue (b : Bool) : (BitVec.ofNat 8 (bitValue b 0)).getLsbD 0 = b := by
  cases b <;> rfl

theorem getLsbD_one_bitValue (b : Bool) : (BitVec.ofNat 8 (bitValue b 0)).getLsbD 1 = false := by
  cases b <;> rfl

theorem State.readByte_flag {q o : Nat} {b : Bool} (hq : q = 0x100 + o) (hk : o + 4 ≤ 28)
    (h : fieldAt o 4 s.statusFields = some (bitValue b 0)) : s.readByte q = some (BitVec.ofNat 8 (bitValue b 0)) := by
  have := s.shows_status hq hk h 0 (by decide)
  rwa [Nat.add_zero, Nat.pow_zero, Nat.div_one] at this

/-! ### Reads: the oldest answer -/

theorem State.readByte_empty (h : s.answers = []) {k : Nat} (hk : k < 0x80) : s.readByte (0x80 + k) = some 0 := by
  unfold State.readByte
  rw [if_neg (by omega), if_pos (by omega), h]

/-- An answer's header fields, which `Answer.header` packs. -/
def Answer.headerFields (a : Answer) : List (Nat × Nat) :=
  [(2, a.kind), (1, a.outcome.code), (1, a.flags.code), (4, a.tag), (2, a.outcome.reason), (2, a.body.length), (4, a.number)]

theorem RefusalReason.place_eq (r : RefusalReason) : r.place =
    1 + [RefusalReason.badCode, .badLength, .badField, .badNumber, .badTime, .wrongState, .tableFull,
      .unknownCard, .unknownProduct, .unknownMerchant, .unknownSponsor, .unknownHold, .unknownReferral, .duplicate,
      .inUse, .holdsOpen, .dueOpen, .sweepBusy, .runBusy].idxOf r := by
  cases r <;> rfl

theorem DeclineReason.place_eq (r : DeclineReason) : r.place =
    1 + [DeclineReason.short, .cardFrozen, .cardLocked, .cardExpired, .cardBusy, .merchantSuspended,
      .category, .overLimit, .loadRange, .lotsFull, .holdsFull, .poolFull, .allowance, .cut, .stale, .tooLate,
      .referFull, .needsReferral, .watchFrozen, .denied, .positionLimit].idxOf r := by
  cases r <;> rfl

/-- The fields of a laid-out body fit the answer. -/
theorem AnswerBody.sum_fields {b : AnswerBody} {fs : List (Nat × Nat)} (h : b.fields = some fs) :
    (fs.map Prod.fst).sum ≤ 112 := by
  cases b with
  | payoutAdvice i index merchant label c =>
    cases h
    simp [Function.comp_def]
  | empty | payoutEnd | lapseNotice | sweepEnd => cases h; simp
  | _ => cases h

theorem AnswerBody.length_of_fields {b : AnswerBody} {fs : List (Nat × Nat)} (h : b.fields = some fs) :
    b.length = 16 + (fs.map Prod.fst).sum := by
  unfold AnswerBody.length
  rw [h]
  exact congrArg (16 + ·) (length_pack fs)

theorem AnswerBody.length_bounds (b : AnswerBody) : 16 ≤ b.length ∧ b.length ≤ 128 := by
  cases h : b.fields with
  | none =>
    unfold AnswerBody.length
    rw [h]
    dsimp only
    have := Nat.mod_lt (Config.bodyLength b) (show 113 > 0 by decide)
    omega
  | some fs =>
    have := b.sum_fields h
    rw [b.length_of_fields h]
    omega

section pending
variable {a : Answer} {rest : List Answer} (h : s.answers = a :: rest) {q o k v : Nat}
include h

theorem State.readByte_answer (hk : k < 0x80) : s.readByte (0x80 + k) = some (a.byteAt k) := by
  unfold State.readByte
  rw [if_neg (by omega), if_pos (by omega), h, Nat.add_sub_cancel_left]

theorem State.shows_header (hq : q = 0x80 + o) (hk : o + k ≤ 16) (hv : fieldAt o k a.headerFields = some v) :
    s.Shows q k v := fun j hj => by
  rw [hq, Nat.add_assoc, State.readByte_answer h (by omega), Answer.byteAt, if_pos (by omega)]
  exact congrArg some (getD_pack hv hj)

theorem State.shows_body {fs : List (Nat × Nat)} (hfs : a.body.fields = some fs) (hq : q = 0x90 + o) (hk : o + k ≤ 112)
    (hv : fieldAt o k fs = some v) : s.Shows q k v := fun j hj => by
  have hb : q + j = 0x80 + (16 + (o + j)) := by omega
  rw [hb, State.readByte_answer h (by omega), Answer.byteAt, if_neg (by omega), Answer.bodyAt, hfs]
  dsimp only
  rw [Nat.add_sub_cancel_left, getD_pack hv hj]

theorem State.readByte_beyond (hlen : a.body.length ≤ k) (hk : k < 0x80) : s.readByte (0x80 + k) = some 0 := by
  have hb := a.body.length_bounds
  rw [State.readByte_answer h hk, Answer.byteAt, if_neg (by omega), Answer.bodyAt]
  cases hfs : a.body.fields with
  | none => exact congrArg some (if_neg (by omega))
  | some fs =>
    rw [a.body.length_of_fields hfs] at hlen
    exact congrArg some (getD_pack_beyond (by omega))

end pending

/-- The words that R197 names, from 0x100 on. -/
theorem State.shows_words (s : State) :
    s.Shows 0x100 1 s.engine.code ∧ s.Shows 0x101 1 s.startCause.code ∧ s.Shows 0x102 1 s.retention.code ∧
      s.Shows 0x103 1 s.waiting.length ∧ s.Shows 0x104 1 s.inbound.length ∧ s.Shows 0x105 1 s.answers.length ∧
      s.Shows 0x106 1 (bitValue s.burstHeld 0) ∧ s.Shows 0x110 4 0 ∧ s.Shows 0x114 4 0 ∧ s.Shows 0x118 4 s.lastNumber :=
  ⟨s.shows_status (o := 0) rfl (by decide) rfl, s.shows_status (o := 1) rfl (by decide) rfl,
    s.shows_status (o := 2) rfl (by decide) rfl, s.shows_status (o := 3) rfl (by decide) rfl,
    s.shows_status (o := 4) rfl (by decide) rfl, s.shows_status (o := 5) rfl (by decide) rfl,
    s.shows_status (o := 6) rfl (by decide) rfl, s.shows_status (o := 16) rfl (by decide) rfl,
    s.shows_status (o := 20) rfl (by decide) rfl, s.shows_status (o := 24) rfl (by decide) rfl⟩

theorem fieldAt_after {fs gs : List (Nat × Nat)} {n : Nat} (hn : (gs.map Prod.fst).sum = n) (hpos : ∀ f ∈ gs, 0 < f.1)
    (o k : Nat) : fieldAt (n + o) k (gs ++ fs) = fieldAt o k fs :=
  hn ▸ fieldAt_append hpos o k fs

theorem fieldAt_map {α : Type} {l : List α} {f : α → Nat} {w n : Nat} {a : α} (hw : 0 < w) (h : l[n]? = some a) :
    fieldAt (w * n) w (l.map fun a => (w, f a)) = some (f a) := by
  obtain ⟨rest, hr⟩ := fieldAt_flatMap (g := fun a => [(w, f a)]) (w := w) (fun _ => by simp) (fun _ => by simpa) h 0 w
  rw [List.map_eq_flatMap]
  refine hr.trans ?_
  simp [fieldAt]

theorem CutResult.getElem?_billings (c : CutResult) (x : Fin 8) : c.billings.toList[x.val]? = some c.billings[x] := by
  simp

section pending
variable {a : Answer} {rest : List Answer} (h : s.answers = a :: rest)
include h

theorem State.shows_answerHeader : s.Shows 0x80 2 a.kind ∧ s.Shows 0x82 1 a.outcome.code ∧ s.Shows 0x83 1 a.flags.code ∧
    s.Shows 0x84 4 a.tag ∧ s.Shows 0x88 2 a.outcome.reason ∧ s.Shows 0x8A 2 a.body.length ∧ s.Shows 0x8C 4 a.number :=
  ⟨shows_header h (o := 0) rfl (by decide) rfl, shows_header h (o := 2) rfl (by decide) rfl,
    shows_header h (o := 3) rfl (by decide) rfl, shows_header h (o := 4) rfl (by decide) rfl,
    shows_header h (o := 8) rfl (by decide) rfl, shows_header h (o := 10) rfl (by decide) rfl,
    shows_header h (o := 12) rfl (by decide) rfl⟩

theorem State.shows_length {fs : List (Nat × Nat)} {n : Nat} (hfs : a.body.fields = some fs)
    (hn : 16 + (fs.map Prod.fst).sum = n) : s.Shows 0x8A 2 n := by
  obtain ⟨-, -, -, -, -, hlength, -⟩ := State.shows_answerHeader h
  rwa [← hn, ← a.body.length_of_fields hfs]

/-- A PAYOUT-ADVICE in the answer slot (R200). -/
theorem State.shows_payoutAdvice {i index merchant label : Nat} {c : CutResult} (hb : a.body = .payoutAdvice i index merchant label c) :
    s.Shows 0x8A 2 128 ∧ s.Shows 0x90 1 i ∧ s.Shows 0x91 1 0 ∧ s.Shows 0x92 2 index ∧ s.Shows 0x94 4 merchant ∧
      s.Shows 0x98 4 label ∧ s.Shows 0x9C 4 0 ∧ s.Shows 0xA0 8 (signed c.net) ∧ s.Shows 0xA8 8 (signed c.fee) ∧
      s.Shows 0xB0 8 (signed c.payout) ∧ s.Shows 0xB8 8 (signed c.carry) ∧
      ∀ x : Fin 8, s.Shows (0xC0 + 8 * x.val) 8 (signed c.billings[x]) := by
  have hfs : a.body.fields = some _ := congrArg AnswerBody.fields hb
  refine ⟨shows_length h hfs (by simp [Function.comp_def]), shows_body h hfs (o := 0) rfl (by decide) rfl,
    shows_body h hfs (o := 1) rfl (by decide) rfl, shows_body h hfs (o := 2) rfl (by decide) rfl,
    shows_body h hfs (o := 4) rfl (by decide) rfl, shows_body h hfs (o := 8) rfl (by decide) rfl,
    shows_body h hfs (o := 12) rfl (by decide) rfl, shows_body h hfs (o := 16) rfl (by decide) rfl,
    shows_body h hfs (o := 24) rfl (by decide) rfl, shows_body h hfs (o := 32) rfl (by decide) rfl,
    shows_body h hfs (o := 40) rfl (by decide) rfl, fun x => shows_body h hfs (o := 48 + 8 * x.val) (by omega) (by omega) ?_⟩
  exact (fieldAt_after (n := 48) rfl (by simp) ..).trans (fieldAt_map (by decide) (c.getElem?_billings x))

/-- A PAYOUT-END in the answer slot (R201). -/
theorem State.shows_payoutEnd {i : Nat} {r : RunReport} (hb : a.body = .payoutEnd i r) :
    s.Shows 0x8A 2 64 ∧ s.Shows 0x90 1 i ∧ s.Shows 0x92 2 r.first ∧ s.Shows 0x94 2 r.last ∧ s.Shows 0x98 4 r.label ∧
      s.Shows 0x9C 2 r.cut ∧ s.Shows 0x9E 2 r.passed ∧ s.Shows 0xA0 8 (signed r.payout) ∧ s.Shows 0xA8 8 (signed r.fees) ∧
      s.Shows 0xB0 8 (signed r.billed) ∧ s.Shows 0xB8 8 (signed r.carried) := by
  have hfs : a.body.fields = some _ := congrArg AnswerBody.fields hb
  exact ⟨shows_length h hfs rfl, shows_body h hfs (o := 0) rfl (by decide) rfl,
    shows_body h hfs (o := 2) rfl (by decide) rfl, shows_body h hfs (o := 4) rfl (by decide) rfl,
    shows_body h hfs (o := 8) rfl (by decide) rfl, shows_body h hfs (o := 12) rfl (by decide) rfl,
    shows_body h hfs (o := 14) rfl (by decide) rfl, shows_body h hfs (o := 16) rfl (by decide) rfl,
    shows_body h hfs (o := 24) rfl (by decide) rfl, shows_body h hfs (o := 32) rfl (by decide) rfl,
    shows_body h hfs (o := 40) rfl (by decide) rfl⟩

/-- A LAPSE-NOTICE in the answer slot (R201). -/
theorem State.shows_lapseNotice {n tag card merchant amount : Nat} {kind : NoticeKind}
    (hb : a.body = .lapseNotice n kind tag card merchant amount) :
    s.Shows 0x8A 2 44 ∧ s.Shows 0x90 2 n ∧ s.Shows 0x92 1 kind.codes.1 ∧ s.Shows 0x93 1 kind.codes.2 ∧ s.Shows 0x94 4 tag ∧
      s.Shows 0x98 8 card ∧ s.Shows 0xA0 4 merchant ∧ s.Shows 0xA4 4 amount ∧ s.Shows 0xA8 1 3 ∧ s.Shows 0xAA 2 20 := by
  have hfs : a.body.fields = some _ := congrArg AnswerBody.fields hb
  exact ⟨shows_length h hfs rfl, shows_body h hfs (o := 0) rfl (by decide) rfl,
    shows_body h hfs (o := 2) rfl (by decide) rfl, shows_body h hfs (o := 3) rfl (by decide) rfl,
    shows_body h hfs (o := 4) rfl (by decide) rfl, shows_body h hfs (o := 8) rfl (by decide) rfl,
    shows_body h hfs (o := 16) rfl (by decide) rfl, shows_body h hfs (o := 20) rfl (by decide) rfl,
    shows_body h hfs (o := 24) rfl (by decide) rfl, shows_body h hfs (o := 26) rfl (by decide) rfl⟩

/-- A SWEEP-END in the answer slot (R201). -/
theorem State.shows_sweepEnd {day swept passed expired lots bonus : Nat}
    (hb : a.body = .sweepEnd day swept passed expired lots bonus) :
    s.Shows 0x8A 2 48 ∧ s.Shows 0x90 2 day ∧ s.Shows 0x94 4 swept ∧ s.Shows 0x98 4 passed ∧ s.Shows 0x9C 4 expired ∧
      s.Shows 0xA0 4 lots ∧ s.Shows 0xA8 8 bonus := by
  have hfs : a.body.fields = some _ := congrArg AnswerBody.fields hb
  exact ⟨shows_length h hfs rfl, shows_body h hfs (o := 0) rfl (by decide) rfl,
    shows_body h hfs (o := 4) rfl (by decide) rfl, shows_body h hfs (o := 8) rfl (by decide) rfl,
    shows_body h hfs (o := 12) rfl (by decide) rfl, shows_body h hfs (o := 16) rfl (by decide) rfl,
    shows_body h hfs (o := 24) rfl (by decide) rfl⟩

end pending

/-- Settles O7: the status words, then the oldest answer's header, length and body, each field where its layout packs it. -/
theorem windowShowsTheOldestAnswer : Obligations.WindowShowsTheOldestAnswer := by
  intro s shows held money
  refine ⟨fun k hk => State.readByte_post hk, fun h k hk => State.readByte_empty h hk, ?_, fun a rest h => ?_⟩
  · obtain ⟨h0, h1, h2, h3, h4, h5, h6, h16, h20, h24⟩ := s.shows_words
    refine ⟨h0, h1, h2, h3, h4, h5, fun hb => ?_, fun hb => ?_, ?_, ?_, h16, h20, h24⟩
    · have hheld : s.burstHeld = true := by
        by_contra hf
        obtain ⟨d, hd, hmode, hstate⟩ := hb
        obtain ⟨hr, hw⟩ := s.burstHeld_eq_false_iff.mp (Bool.eq_false_iff.mpr hf) d hd hmode
        exact hstate.elim hr hw
      rwa [hheld] at h6
    · have hfree : s.burstHeld = false :=
        s.burstHeld_eq_false_iff.mpr fun d hd hmode => not_or.mp fun hstate => hb d hd ⟨hmode, hstate⟩
      rwa [hfree] at h6
    · rw [State.readByte_flag (o := 8) rfl (by decide) rfl, Option.map_some, getLsbD_bitValue]
    · rw [State.readByte_flag (o := 12) rfl (by decide) rfl, Option.map_some, getLsbD_bitValue, getLsbD_one_bitValue]
  · intro bit
    obtain ⟨h0, h2, h3, h4, h8, h10, h12⟩ := State.shows_answerHeader h
    refine ⟨⟨h0, ?_, h3, h4, ?_, h12, a.body.length, a.body.length_bounds.1, a.body.length_bounds.2, h10,
      fun k hk => State.readByte_beyond h hk⟩, fun i index merchant label c hb => State.shows_payoutAdvice h hb,
      fun i r hb => State.shows_payoutEnd h hb, fun n kind tag card merchant amount hb => ?_,
      fun day swept passed expired lots bonus hb => State.shows_sweepEnd h hb⟩
    · cases ho : a.outcome <;> rw [ho] at h2 <;> exact h2
    · cases ho : a.outcome with
      | refused r =>
        rw [ho, AnswerOutcome.reason, r.place_eq] at h8
        exact h8
      | declined r =>
        rw [ho, AnswerOutcome.reason, r.place_eq] at h8
        exact h8
      | _ =>
        rw [ho] at h8
        exact h8
    · have := State.shows_lapseNotice h hb
      cases kind <;> exact this

end Sys2Proof.Machine
end
